-- ==== Sys2Proof/Syntax.lean ====
section
/-!
DEFINITION. The instructions of the Brupra (DQI-3, feature version 3.1) and the other steps of the
opcode table, one constructor of `Instr` per row of spec/opcode_table.json.

The table's rows that are no word come first: the events that the device, its engines, its firmware
and the outside world make (95_what_each_step_holds.md). Then come the full-form words in the order of
the opcode map (03, R51), the hint-space word (R52) and the compact slots of a pair word (R44).
Operands named `d a b c` are 6-bit operand numbers of R41, `imm` and `off` are x[19:0].
-/

namespace Sys2Proof

/-- Element type codes of R40. -/
inductive Ty where
  | i8 | i16 | i32 | i64 | n8 | n16 | n32 | n64
  | f32 | f16 | bf16 | e4m3 | e5m2 | e3m2 | e2m3 | e2m1
deriving DecidableEq, Repr

/-- Rounding-mode codes of R23; code 0b111 is no mode. -/
inductive Rm where
  | rne | rtz | rdn | rup | rna | rto | dyn
deriving DecidableEq, Repr

/-- The ls, q and k fields of a full-form word (R38). -/
structure VCtl where
  ls : BitVec 3
  q  : BitVec 3
  k  : BitVec 1
deriving DecidableEq, Repr

/-- The other operand of a compact slot (R43): a register 0–31 or a 19-bit signed immediate. -/
inductive CArg where
  | reg (a : BitVec 5)
  | imm (v : BitVec 19)
deriving DecidableEq, Repr

/-- One element of an event at another device (R253): its address there under `asid`, its width in bytes, the half of the
byte where it is a 4-bit code, what it writes, and what a compare-and-swap compares. -/
structure PeerElt where
  asid    : Nat
  va      : Nat
  width   : Nat
  half    : Option Bool
  data    : Nat
  compare : Nat
deriving DecidableEq, Repr

/-- The elements of one event that are bound for the same home device (R253, R276): kind 0 reads, 1 writes, 2 and more are
atomics (R290) whose function code is the kind less two, on elements of type `ty`, and 13 adds of `vsadd` (R260), which
saturate with `sat`. With `ask` the home gives its verdicts alone. -/
structure PeerReq where
  device : Nat
  kind   : Nat
  ty     : Ty
  sat    : Bool
  ask    : Bool
  elts   : List PeerElt
deriving DecidableEq, Repr

/-- What a write of the host carries (R371, R372): its bytes, whether it has the Relaxed Ordering attribute, and HWIN as it
stood when its first line performed, by which the lines after it go. -/
structure Posted where
  bytes   : List Nat
  relaxed : Bool
  began   : Option (BitVec 64)
deriving DecidableEq, Repr

/-- What the third run of the dailies queue settles for one element (R329) of an entry of a strand's flight. -/
inductive Vote where
  | firstStands (entry elem : Nat)
  | secondStands (entry elem : Nat) (values : List Nat)
  | threeDiffer (entry elem : Nat)
deriving DecidableEq, Repr

/-- Who has a physical vector, mask or tile register, or a latch: the core under its name, an entry of the flight of the
strand in a slot as its destination (R137), or a strand that waits for the lanes again (R322). -/
inductive Holder where
  | named
  | inFlight (slot entry : Nat)
  | saved (slot : Nat)
deriving DecidableEq, Repr

/-- An error that an error-correcting code finds (R324): corrected, with what its record holds (R330), the core 0x1FF for none;
or uncorrectable in a scalar register of a strand, or in a word of a vector or mask register, or of the codes or the side
store of a tile or of the latch. -/
inductive Ecc where
  | corrected (kind core lane slot asid location syndrome : Nat)
  | scalar (core slot reg : Nat)
  | vector (core : Nat) (of_ : Holder) (reg word : Nat)
  | mask (core : Nat) (of_ : Holder) (reg word : Nat)
  | tile (core : Nat) (of_ : Holder) (reg : Nat) (side : Bool) (word : Nat)
  | latch (core : Nat) (of_ : Holder) (side : Bool) (word : Nat)
deriving DecidableEq, Repr

inductive Instr where
  | backingStoreSpill (core : Nat) (slot : Nat)
  | backingStoreRefill (core : Nat) (slot : Nat)
  | laneGrant (core : Nat)
  | tileFillComplete (core : Nat) (tile : Nat)
  | tileDrainComplete (core : Nat) (tile : Nat)
  | latchCopy (core : Nat)
  | latchCopyComplete (core : Nat)
  | reelStorageRelease (cluster : Nat) (root : Nat)
  | hmovDelivery (cluster : Nat) (entry : Nat)
  | bankModeSwitchComplete (cluster : Nat) (bank : Nat)
  | fifoPush (core : Nat) (slot : Nat)
  | fifoPop (core : Nat) (slot : Nat)
  | vmuLineReply (core : Nat) (slot : Nat)
  | peerAccessRequest (req : PeerReq)
  | peerTimeout (core : Nat) (slot : Nat) (device : Nat)
  | memoryEventPerform (core : Nat) (slot : Nat)
  | tcopyChunk (cmd : Nat)
  | engineFaultQueueWrite (cmd : Nat)
  | migrationLineCopy (cmd : Nat)
  | slabLineCopy (cmd : Nat)
  | commandComplete (cmd : Nat)
  | xredContribution (core : Nat) (slot : Nat) (values : List Nat)
  | walkerService (core : Nat)
  | elementFire (core : Nat) (slot : Nat)
  | convoyRetire (core : Nat) (slot : Nat)
  | trapDelivery (core : Nat) (slot : Nat)
  | mwaitWake (core : Nat) (slot : Nat)
  | mwaitTimeout (core : Nat) (slot : Nat)
  | monitorLost (core : Nat) (slot : Nat)
  | tideMarkRise (core : Nat) (slot : Nat)
  | barrierRelease (launchId : Nat) (level : Nat) (group : Nat)
  | launchGroupStart
  | ownerScrub (core : Nat) (owner : Nat)
  | bankOwnerZeroing (cluster : Nat) (bank : Nat) (owner : Nat)
  | lqageExpiry (launchId : Nat)
  | haltRetire (core : Nat) (slot : Nat)
  | powerLimitChange (core : Nat) (limit : Nat)
  | lanePowerUp (core : Nat)
  | laneRollback (core : Nat) (lane : Nat) (syndrome : Nat)
  | lmapFailMark (core : Nat) (lane : Nat)
  | dailiesRecheck (core : Nat) (slot : Nat)
  | dailiesVote (core : Nat) (slot : Nat) (vote : Vote)
  | eccCorrection (err : Ecc)
  | hostWrite (bar : Nat) (offset : Nat) (data : Posted)
  | hostRead (bar : Nat) (offset : Nat) (len : Nat)
  | hmsiStore (value : Nat)
  | devregWrite (page : Nat) (offset : Nat) (value : Nat)
  | japp (addr : Nat)
  | jstat (value : Nat)
  | fwreqInstallKey (addr : Nat)
  | fwreqRemoveKey (addr : Nat)
  | fwreqAttestation (addr : Nat)
  | pdecEnable (k : Nat) (value : Nat)
  | pdecDisable (k : Nat) (value : Nat)
  | cxlPoisonReport (poolAddr : Nat) (syndrome : Nat)
  | flitReplay (port : Nat) (lane : Nat)
  | laneRecalibration (port : Nat)
  | portRetrain (port : Nat)
  | deviceDownReport (device : Nat)
  | gangPrepareAck (gseq : Nat) (member : Nat) (header : Nat)
  | gangCommit (gseq : Nat)
  | gangCommitResend (gseq : Nat)
  | gangAbort (gseq : Nat)
  | gangPartRetired (gseq : Nat) (member : Nat)
  | deviceReset
  | powerUpStage
  | bootImageVerify (k : Nat)
  | journalRecovery
  | supervisorStart
  | unitOutOfService (isCore : Bool) (unit : Nat)
  | instructionFetch (core : Nat) (slot : Nat)
  | illegalInstruction (core : Nat) (slot : Nat)
  | cacheEviction (line : Nat)
  | laneRecalibrationEnd (port : Nat) (ok : Bool)
  | portRetrainEnd (port : Nat)
  | gangAcknowledgement (gseq : Nat) (member : Nat) (commit : Bool)
  | memberAbort (gseq : Nat)
  | b (off : BitVec 20)
  | beq (a : BitVec 6) (b : BitVec 6) (off : BitVec 20)
  | bne (a : BitVec 6) (b : BitVec 6) (off : BitVec 20)
  | blt (a : BitVec 6) (b : BitVec 6) (off : BitVec 20)
  | bge (a : BitVec 6) (b : BitVec 6) (off : BitVec 20)
  | bltn (a : BitVec 6) (b : BitVec 6) (off : BitVec 20)
  | bgen (a : BitVec 6) (b : BitVec 6) (off : BitVec 20)
  | bz (a : BitVec 6) (off : BitVec 20)
  | bnz (a : BitVec 6) (off : BitVec 20)
  | jmp (a : BitVec 6)
  | calli (a : BitVec 6)
  | ret
  | call (off : BitVec 20)
  | mwait (d : BitVec 6) (a : BitVec 6) (b : BitVec 6) (c : BitVec 6)
  | halt
  | launch (d : BitVec 6) (a : BitVec 6)
  | glaunch (d : BitVec 6) (a : BitVec 6)
  | widGet (d : BitVec 6)
  | widGetField (d : BitVec 6) (f : BitVec 3)
  | barK (k : BitVec 3)
  | tmBind (a : BitVec 6) (b : BitVec 6) (c : BitVec 6) (n : BitVec 4)
  | tmAdv (a : BitVec 6) (b : BitVec 6) (n : BitVec 4)
  | tmRd (d : BitVec 6) (n : BitVec 4)
  | ldco (d : BitVec 6) (a : BitVec 6) (b : BitVec 6)
  | ldcoDrop (d : BitVec 6) (a : BitVec 6)
  | trap (imm : BitVec 20)
  | sret
  | ctxSave (d : BitVec 6) (a : BitVec 6) (b : BitVec 6)
  | ctxLoad (d : BitVec 6) (a : BitVec 6) (b : BitVec 6)
  | erecRd (d : BitVec 6) (a : BitVec 6) (k : BitVec 3)
  | add (d : BitVec 6) (a : BitVec 6) (b : BitVec 6)
  | sub (d : BitVec 6) (a : BitVec 6) (b : BitVec 6)
  | mul (d : BitVec 6) (a : BitVec 6) (b : BitVec 6)
  | mulh (d : BitVec 6) (a : BitVec 6) (b : BitVec 6)
  | mulhn (d : BitVec 6) (a : BitVec 6) (b : BitVec 6)
  | sAnd (d : BitVec 6) (a : BitVec 6) (b : BitVec 6)
  | sOr (d : BitVec 6) (a : BitVec 6) (b : BitVec 6)
  | sXor (d : BitVec 6) (a : BitVec 6) (b : BitVec 6)
  | andn (d : BitVec 6) (a : BitVec 6) (b : BitVec 6)
  | shl (d : BitVec 6) (a : BitVec 6) (b : BitVec 6)
  | shr (d : BitVec 6) (a : BitVec 6) (b : BitVec 6)
  | sra (d : BitVec 6) (a : BitVec 6) (b : BitVec 6)
  | rol (d : BitVec 6) (a : BitVec 6) (b : BitVec 6)
  | sMin (d : BitVec 6) (a : BitVec 6) (b : BitVec 6)
  | sMax (d : BitVec 6) (a : BitVec 6) (b : BitVec 6)
  | minn (d : BitVec 6) (a : BitVec 6) (b : BitVec 6)
  | maxn (d : BitVec 6) (a : BitVec 6) (b : BitVec 6)
  | slt (d : BitVec 6) (a : BitVec 6) (b : BitVec 6)
  | sltn (d : BitVec 6) (a : BitVec 6) (b : BitVec 6)
  | addi (d : BitVec 6) (a : BitVec 6) (imm : BitVec 20)
  | subi (d : BitVec 6) (a : BitVec 6) (imm : BitVec 20)
  | muli (d : BitVec 6) (a : BitVec 6) (imm : BitVec 20)
  | mulhi (d : BitVec 6) (a : BitVec 6) (imm : BitVec 20)
  | mulhni (d : BitVec 6) (a : BitVec 6) (imm : BitVec 20)
  | andi (d : BitVec 6) (a : BitVec 6) (imm : BitVec 20)
  | ori (d : BitVec 6) (a : BitVec 6) (imm : BitVec 20)
  | xori (d : BitVec 6) (a : BitVec 6) (imm : BitVec 20)
  | andni (d : BitVec 6) (a : BitVec 6) (imm : BitVec 20)
  | shli (d : BitVec 6) (a : BitVec 6) (imm : BitVec 20)
  | shri (d : BitVec 6) (a : BitVec 6) (imm : BitVec 20)
  | srai (d : BitVec 6) (a : BitVec 6) (imm : BitVec 20)
  | roli (d : BitVec 6) (a : BitVec 6) (imm : BitVec 20)
  | mini (d : BitVec 6) (a : BitVec 6) (imm : BitVec 20)
  | maxi (d : BitVec 6) (a : BitVec 6) (imm : BitVec 20)
  | minni (d : BitVec 6) (a : BitVec 6) (imm : BitVec 20)
  | maxni (d : BitVec 6) (a : BitVec 6) (imm : BitVec 20)
  | slti (d : BitVec 6) (a : BitVec 6) (imm : BitVec 20)
  | sltni (d : BitVec 6) (a : BitVec 6) (imm : BitVec 20)
  | div (d : BitVec 6) (a : BitVec 6) (b : BitVec 6)
  | divn (d : BitVec 6) (a : BitVec 6) (b : BitVec 6)
  | rem (d : BitVec 6) (a : BitVec 6) (b : BitVec 6)
  | remn (d : BitVec 6) (a : BitVec 6) (b : BitVec 6)
  | clz (d : BitVec 6) (a : BitVec 6)
  | ctz (d : BitVec 6) (a : BitVec 6)
  | popc (d : BitVec 6) (a : BitVec 6)
  | sel (d : BitVec 6) (a : BitVec 6) (b : BitVec 6) (c : BitVec 6)
  | li (d : BitVec 6) (imm : BitVec 20)
  | lui (d : BitVec 6) (imm : BitVec 20)
  | adr (d : BitVec 6) (imm : BitVec 20)
  | lsa (d : BitVec 6) (a : BitVec 6) (b : BitVec 6) (k : BitVec 2)
  | ext (d : BitVec 6) (a : BitVec 6) (pos : BitVec 6) (len : BitVec 6)
  | extS (d : BitVec 6) (a : BitVec 6) (pos : BitVec 6) (len : BitVec 6)
  | ins (d : BitVec 6) (a : BitVec 6) (pos : BitVec 6) (len : BitVec 6)
  | frame (n : BitVec 6)
  | faddS (d : BitVec 6) (a : BitVec 6) (b : BitVec 6) (rm : Rm)
  | fsubS (d : BitVec 6) (a : BitVec 6) (b : BitVec 6) (rm : Rm)
  | fmulS (d : BitVec 6) (a : BitVec 6) (b : BitVec 6) (rm : Rm)
  | ffmaS (d : BitVec 6) (a : BitVec 6) (b : BitVec 6) (rm : Rm) (c : BitVec 6)
  | fdivS (d : BitVec 6) (a : BitVec 6) (b : BitVec 6) (rm : Rm)
  | fsqrtS (d : BitVec 6) (a : BitVec 6) (rm : Rm)
  | fcmpSEq (d : BitVec 6) (a : BitVec 6) (b : BitVec 6)
  | fcmpSLt (d : BitVec 6) (a : BitVec 6) (b : BitVec 6)
  | fcmpSLe (d : BitVec 6) (a : BitVec 6) (b : BitVec 6)
  | fcmpSUn (d : BitVec 6) (a : BitVec 6) (b : BitVec 6)
  | fcvtSFi (d : BitVec 6) (a : BitVec 6) (rm : Rm)
  | fcvtSFn (d : BitVec 6) (a : BitVec 6) (rm : Rm)
  | fcvtSIf (d : BitVec 6) (a : BitVec 6) (rm : Rm)
  | fcvtSNf (d : BitVec 6) (a : BitVec 6) (rm : Rm)
  | mfs (d : BitVec 6) (num : BitVec 12)
  | mts (a : BitVec 6) (num : BitVec 12)
  | mvlWrite (a : BitVec 6) (num : BitVec 12)
  | tshapeWrite (a : BitVec 6) (num : BitVec 12)
  | dlymodeClr (a : BitVec 6) (num : BitVec 12)
  | efqWrite (a : BitVec 6) (num : BitVec 12)
  | vsetl (d : BitVec 6) (a : BitVec 6) (ty : Ty)
  | vrel
  | vspill (v : VCtl) (a : BitVec 6) (b : BitVec 6) (ty : Ty) (disp : BitVec 9)
  | vfill (d : BitVec 6) (a : BitVec 6) (ty : Ty) (disp : BitVec 9)
  | vadd (v : VCtl) (d : BitVec 6) (a : BitVec 6) (b : BitVec 6) (ty : Ty) (sat : BitVec 1)
  | vsub (v : VCtl) (d : BitVec 6) (a : BitVec 6) (b : BitVec 6) (ty : Ty) (sat : BitVec 1)
  | vmul (v : VCtl) (d : BitVec 6) (a : BitVec 6) (b : BitVec 6) (ty : Ty) (sat : BitVec 1)
  | vmulh (v : VCtl) (d : BitVec 6) (a : BitVec 6) (b : BitVec 6) (ty : Ty)
  | vmin (v : VCtl) (d : BitVec 6) (a : BitVec 6) (b : BitVec 6) (ty : Ty)
  | vmax (v : VCtl) (d : BitVec 6) (a : BitVec 6) (b : BitVec 6) (ty : Ty)
  | vand (v : VCtl) (d : BitVec 6) (a : BitVec 6) (b : BitVec 6) (ty : Ty)
  | vor (v : VCtl) (d : BitVec 6) (a : BitVec 6) (b : BitVec 6) (ty : Ty)
  | vxor (v : VCtl) (d : BitVec 6) (a : BitVec 6) (b : BitVec 6) (ty : Ty)
  | vshl (v : VCtl) (d : BitVec 6) (a : BitVec 6) (b : BitVec 6) (ty : Ty)
  | vshr (v : VCtl) (d : BitVec 6) (a : BitVec 6) (b : BitVec 6) (ty : Ty)
  | vsra (v : VCtl) (d : BitVec 6) (a : BitVec 6) (b : BitVec 6) (ty : Ty)
  | vcmpEq (v : VCtl) (d : BitVec 6) (a : BitVec 6) (b : BitVec 6) (ty : Ty)
  | vcmpNe (v : VCtl) (d : BitVec 6) (a : BitVec 6) (b : BitVec 6) (ty : Ty)
  | vcmpLt (v : VCtl) (d : BitVec 6) (a : BitVec 6) (b : BitVec 6) (ty : Ty)
  | vcmpLe (v : VCtl) (d : BitVec 6) (a : BitVec 6) (b : BitVec 6) (ty : Ty)
  | vwadd (v : VCtl) (d : BitVec 6) (a : BitVec 6) (b : BitVec 6) (rm : Rm) (ty : Ty) (wf : BitVec 2)
  | vwmul (v : VCtl) (d : BitVec 6) (a : BitVec 6) (b : BitVec 6) (rm : Rm) (ty : Ty) (wf : BitVec 2)
  | vwmac (v : VCtl) (d : BitVec 6) (a : BitVec 6) (b : BitVec 6) (rm : Rm) (c : BitVec 6) (ty : Ty) (sat : BitVec 1) (wf : BitVec 2)
  | vmov (v : VCtl) (d : BitVec 6) (a : BitVec 6) (ty : Ty)
  | vid (v : VCtl) (d : BitVec 6) (ty : Ty)
  | vsel (v : VCtl) (d : BitVec 6) (a : BitVec 6) (b : BitVec 6) (ty : Ty)
  | vdup (v : VCtl) (d : BitVec 6) (a : BitVec 6) (b : BitVec 6) (ty : Ty)
  | vperm (v : VCtl) (d : BitVec 6) (a : BitVec 6) (b : BitVec 6) (ty : Ty)
  | vslup (v : VCtl) (d : BitVec 6) (a : BitVec 6) (b : BitVec 6) (ty : Ty)
  | vsldn (v : VCtl) (d : BitVec 6) (a : BitVec 6) (b : BitVec 6) (ty : Ty)
  | vcmprs (v : VCtl) (d : BitVec 6) (a : BitVec 6) (ty : Ty)
  | vexpnd (v : VCtl) (d : BitVec 6) (a : BitVec 6) (ty : Ty)
  | qand (v : VCtl) (d : BitVec 6) (a : BitVec 6) (b : BitVec 6)
  | qor (v : VCtl) (d : BitVec 6) (a : BitVec 6) (b : BitVec 6)
  | qxor (v : VCtl) (d : BitVec 6) (a : BitVec 6) (b : BitVec 6)
  | qnot (v : VCtl) (d : BitVec 6) (a : BitVec 6)
  | qpopc (v : VCtl) (d : BitVec 6) (a : BitVec 6)
  | qfirst (v : VCtl) (d : BitVec 6) (a : BitVec 6)
  | vbmand (v : VCtl) (d : BitVec 6) (a : BitVec 6) (b : BitVec 6) (ty : Ty)
  | vbpfx (v : VCtl) (d : BitVec 6) (a : BitVec 6) (ty : Ty)
  | vxsect (v : VCtl) (d : BitVec 6) (a : BitVec 6) (b : BitVec 6) (ty : Ty)
  | vconf (v : VCtl) (d : BitVec 6) (a : BitVec 6) (ty : Ty) (qe : BitVec 3)
  | vfadd (v : VCtl) (d : BitVec 6) (a : BitVec 6) (b : BitVec 6) (rm : Rm) (ty : Ty)
  | vfsub (v : VCtl) (d : BitVec 6) (a : BitVec 6) (b : BitVec 6) (rm : Rm) (ty : Ty)
  | vfmul (v : VCtl) (d : BitVec 6) (a : BitVec 6) (b : BitVec 6) (rm : Rm) (ty : Ty)
  | vfmin (v : VCtl) (d : BitVec 6) (a : BitVec 6) (b : BitVec 6) (ty : Ty)
  | vfmax (v : VCtl) (d : BitVec 6) (a : BitVec 6) (b : BitVec 6) (ty : Ty)
  | vfma (v : VCtl) (d : BitVec 6) (a : BitVec 6) (b : BitVec 6) (rm : Rm) (c : BitVec 6) (ty : Ty)
  | vfms (v : VCtl) (d : BitVec 6) (a : BitVec 6) (b : BitVec 6) (rm : Rm) (c : BitVec 6) (ty : Ty)
  | vfnma (v : VCtl) (d : BitVec 6) (a : BitVec 6) (b : BitVec 6) (rm : Rm) (c : BitVec 6) (ty : Ty)
  | vfdiv (v : VCtl) (d : BitVec 6) (a : BitVec 6) (b : BitVec 6) (rm : Rm) (ty : Ty)
  | vfsqrt (v : VCtl) (d : BitVec 6) (a : BitVec 6) (rm : Rm) (ty : Ty)
  | vrcp (v : VCtl) (d : BitVec 6) (a : BitVec 6) (rm : Rm) (ty : Ty)
  | vrsqrt (v : VCtl) (d : BitVec 6) (a : BitVec 6) (rm : Rm) (ty : Ty)
  | vexp2 (v : VCtl) (d : BitVec 6) (a : BitVec 6) (rm : Rm) (ty : Ty)
  | vfcmpEq (v : VCtl) (d : BitVec 6) (a : BitVec 6) (b : BitVec 6) (ty : Ty)
  | vfcmpLt (v : VCtl) (d : BitVec 6) (a : BitVec 6) (b : BitVec 6) (ty : Ty)
  | vfcmpLe (v : VCtl) (d : BitVec 6) (a : BitVec 6) (b : BitVec 6) (ty : Ty)
  | vfcmpUn (v : VCtl) (d : BitVec 6) (a : BitVec 6) (b : BitVec 6) (ty : Ty)
  | vredoAdd (v : VCtl) (d : BitVec 6) (a : BitVec 6) (b : BitVec 6) (rm : Rm) (ty : Ty) (sat : BitVec 1)
  | vredoMin (v : VCtl) (d : BitVec 6) (a : BitVec 6) (b : BitVec 6) (ty : Ty)
  | vredoMax (v : VCtl) (d : BitVec 6) (a : BitVec 6) (b : BitVec 6) (ty : Ty)
  | vredoAnd (v : VCtl) (d : BitVec 6) (a : BitVec 6) (b : BitVec 6) (ty : Ty)
  | vredoOr (v : VCtl) (d : BitVec 6) (a : BitVec 6) (b : BitVec 6) (ty : Ty)
  | vredoXor (v : VCtl) (d : BitVec 6) (a : BitVec 6) (b : BitVec 6) (ty : Ty)
  | vredtAdd (v : VCtl) (d : BitVec 6) (a : BitVec 6) (b : BitVec 6) (rm : Rm) (ty : Ty) (sat : BitVec 1)
  | vredtMin (v : VCtl) (d : BitVec 6) (a : BitVec 6) (b : BitVec 6) (ty : Ty)
  | vredtMax (v : VCtl) (d : BitVec 6) (a : BitVec 6) (b : BitVec 6) (ty : Ty)
  | vredtAnd (v : VCtl) (d : BitVec 6) (a : BitVec 6) (b : BitVec 6) (ty : Ty)
  | vredtOr (v : VCtl) (d : BitVec 6) (a : BitVec 6) (b : BitVec 6) (ty : Ty)
  | vredtXor (v : VCtl) (d : BitVec 6) (a : BitVec 6) (b : BitVec 6) (ty : Ty)
  | vscanAdd (v : VCtl) (d : BitVec 6) (a : BitVec 6) (b : BitVec 6) (rm : Rm) (ty : Ty) (sat : BitVec 1)
  | vscanMin (v : VCtl) (d : BitVec 6) (a : BitVec 6) (b : BitVec 6) (ty : Ty)
  | vscanMax (v : VCtl) (d : BitVec 6) (a : BitVec 6) (b : BitVec 6) (ty : Ty)
  | vscanAnd (v : VCtl) (d : BitVec 6) (a : BitVec 6) (b : BitVec 6) (ty : Ty)
  | vscanOr (v : VCtl) (d : BitVec 6) (a : BitVec 6) (b : BitVec 6) (ty : Ty)
  | vscanXor (v : VCtl) (d : BitVec 6) (a : BitVec 6) (b : BitVec 6) (ty : Ty)
  | fmtSet (d : BitVec 6) (a : BitVec 6)
  | tidBind (d : BitVec 6) (a : BitVec 6)
  | tidRd (d : BitVec 6) (a : BitVec 6) (k : BitVec 3)
  | vcvtTo (v : VCtl) (d : BitVec 6) (a : BitVec 6) (rm : Rm) (ty : Ty) (sat : BitVec 1) (fc : BitVec 6)
  | vcvtFrom (v : VCtl) (d : BitVec 6) (a : BitVec 6) (rm : Rm) (ty : Ty) (sat : BitVec 1) (fc : BitVec 6)
  | vpack (v : VCtl) (d : BitVec 6) (a : BitVec 6) (ty : Ty) (fc : BitVec 6)
  | vunpk (v : VCtl) (d : BitVec 6) (a : BitVec 6) (ty : Ty) (fc : BitVec 6)
  | vscl (v : VCtl) (d : BitVec 6) (a : BitVec 6) (b : BitVec 6) (rm : Rm) (ty : Ty) (sat : BitVec 1) (fc : BitVec 6)
  | vquant (v : VCtl) (d : BitVec 6) (a : BitVec 6) (b : BitVec 6) (rm : Rm) (ty : Ty) (fc : BitVec 6)
  | tld (d : BitVec 6) (a : BitVec 6) (b : BitVec 6) (c : BitVec 6)
  | tldt (d : BitVec 6) (a : BitVec 6) (b : BitVec 6) (c : BitVec 6)
  | tst (d : BitVec 6) (a : BitVec 6) (b : BitVec 6) (c : BitVec 6)
  | tzero (d : BitVec 6) (a : BitVec 6)
  | tlatch (a : BitVec 6) (b : BitVec 6)
  | mmr (v : VCtl) (d : BitVec 6) (a : BitVec 6) (b : BitVec 6) (acc : BitVec 1)
  | mmrT (v : VCtl) (d : BitVec 6) (a : BitVec 6) (b : BitVec 6) (c : BitVec 6) (acc : BitVec 1)
  | mmrRep (v : VCtl) (d : BitVec 6) (a : BitVec 6) (b : BitVec 6) (acc : BitVec 1) (n : BitVec 3)
  | mmrSk (v : VCtl) (d : BitVec 6) (a : BitVec 6) (b : BitVec 6) (c : BitVec 6) (acc : BitVec 1)
  | rnew (d : BitVec 6) (a : BitVec 6) (b : BitVec 6) (nw : BitVec 1)
  | rcut (d : BitVec 6) (a : BitVec 6) (b : BitVec 6) (nw : BitVec 1) (axis : BitVec 1)
  | rsplc (d : BitVec 6) (a : BitVec 6) (b : BitVec 6)
  | rfree (a : BitVec 6)
  | hmov (d : BitVec 6) (a : BitVec 6) (b : BitVec 6)
  | hinfo (d : BitVec 6) (a : BitVec 6) (k : BitVec 2)
  | rld (v : VCtl) (d : BitVec 6) (a : BitVec 6) (b : BitVec 6)
  | rst (v : VCtl) (a : BitVec 6) (b : BitVec 6) (c : BitVec 6)
  | ldI8 (d : BitVec 6) (a : BitVec 6) (imm : BitVec 20)
  | ldI16 (d : BitVec 6) (a : BitVec 6) (imm : BitVec 20)
  | ldI32 (d : BitVec 6) (a : BitVec 6) (imm : BitVec 20)
  | ldI64 (d : BitVec 6) (a : BitVec 6) (imm : BitVec 20)
  | ldN8 (d : BitVec 6) (a : BitVec 6) (imm : BitVec 20)
  | ldN16 (d : BitVec 6) (a : BitVec 6) (imm : BitVec 20)
  | ldN32 (d : BitVec 6) (a : BitVec 6) (imm : BitVec 20)
  | st8 (d : BitVec 6) (a : BitVec 6) (imm : BitVec 20)
  | st16 (d : BitVec 6) (a : BitVec 6) (imm : BitVec 20)
  | st32 (d : BitVec 6) (a : BitVec 6) (imm : BitVec 20)
  | st64 (d : BitVec 6) (a : BitVec 6) (imm : BitVec 20)
  | vld (v : VCtl) (d : BitVec 6) (a : BitVec 6) (b : BitVec 6) (rm : Rm) (ty : Ty) (sat : BitVec 1) (t : BitVec 1) (disp : BitVec 8)
  | vst (v : VCtl) (a : BitVec 6) (b : BitVec 6) (c : BitVec 6) (ty : Ty) (t : BitVec 1) (disp : BitVec 8)
  | vlds (v : VCtl) (d : BitVec 6) (a : BitVec 6) (b : BitVec 6) (ty : Ty) (disp : BitVec 8)
  | vsts (v : VCtl) (a : BitVec 6) (b : BitVec 6) (c : BitVec 6) (ty : Ty) (disp : BitVec 8)
  | vgat (v : VCtl) (d : BitVec 6) (a : BitVec 6) (b : BitVec 6) (rm : Rm) (ty : Ty) (sat : BitVec 1) (mode : BitVec 2) (k : BitVec 2)
  | vsca (v : VCtl) (a : BitVec 6) (b : BitVec 6) (c : BitVec 6) (ty : Ty) (mode : BitVec 2) (k : BitVec 2)
  | vgpool (v : VCtl) (d : BitVec 6) (a : BitVec 6) (b : BitVec 6) (rm : Rm) (c : BitVec 6) (ty : Ty) (sat : BitVec 1) (mode : BitVec 2) (k : BitVec 2)
  | vsadd (v : VCtl) (a : BitVec 6) (b : BitVec 6) (c : BitVec 6) (ty : Ty) (sat : BitVec 1) (mode : BitVec 2) (k : BitVec 2)
  | tcopy (d : BitVec 6) (a : BitVec 6) (b : BitVec 6) (c : BitVec 6)
  | tcopyMig (d : BitVec 6) (a : BitVec 6) (b : BitVec 6)
  | tcopyRes (d : BitVec 6) (a : BitVec 6)
  | slabGrow (d : BitVec 6) (a : BitVec 6) (b : BitVec 6)
  | smapSet (d : BitVec 6) (a : BitVec 6) (b : BitVec 6)
  | smapInv (d : BitVec 6) (a : BitVec 6) (b : BitVec 6)
  | bankMode (d : BitVec 6) (a : BitVec 6) (b : BitVec 6)
  | tlbinvPg (a : BitVec 6) (b : BitVec 6)
  | tlbinvAs (a : BitVec 6)
  | tlbinvAll
  | pprobe (d : BitVec 6) (a : BitVec 6)
  | asidSwSet (a : BitVec 6)
  | asidSwBind (d : BitVec 6) (a : BitVec 6) (b : BitVec 6)
  | asidSwDrop (d : BitVec 6) (a : BitVec 6)
  | amoSwap (d : BitVec 6) (a : BitVec 6) (b : BitVec 6) (ty : Ty) (ord : BitVec 2)
  | amoCas (d : BitVec 6) (a : BitVec 6) (b : BitVec 6) (c : BitVec 6) (ty : Ty) (ord : BitVec 2)
  | amoAdd (d : BitVec 6) (a : BitVec 6) (b : BitVec 6) (ty : Ty) (ord : BitVec 2)
  | amoFadd (d : BitVec 6) (a : BitVec 6) (b : BitVec 6) (ty : Ty) (ord : BitVec 2)
  | amoAnd (d : BitVec 6) (a : BitVec 6) (b : BitVec 6) (ty : Ty) (ord : BitVec 2)
  | amoOr (d : BitVec 6) (a : BitVec 6) (b : BitVec 6) (ty : Ty) (ord : BitVec 2)
  | amoXor (d : BitVec 6) (a : BitVec 6) (b : BitVec 6) (ty : Ty) (ord : BitVec 2)
  | amoMin (d : BitVec 6) (a : BitVec 6) (b : BitVec 6) (ty : Ty) (ord : BitVec 2)
  | amoMax (d : BitVec 6) (a : BitVec 6) (b : BitVec 6) (ty : Ty) (ord : BitVec 2)
  | amoMinn (d : BitVec 6) (a : BitVec 6) (b : BitVec 6) (ty : Ty) (ord : BitVec 2)
  | amoMaxn (d : BitVec 6) (a : BitVec 6) (b : BitVec 6) (ty : Ty) (ord : BitVec 2)
  | vamoSwap (v : VCtl) (d : BitVec 6) (a : BitVec 6) (b : BitVec 6) (c : BitVec 6) (ty : Ty) (mode : BitVec 2) (ret : BitVec 1) (ord : BitVec 2) (k : BitVec 2)
  | vamoCas (v : VCtl) (d : BitVec 6) (a : BitVec 6) (b : BitVec 6) (c : BitVec 6) (ty : Ty) (mode : BitVec 2) (ret : BitVec 1) (ord : BitVec 2) (k : BitVec 2)
  | vamoAdd (v : VCtl) (d : BitVec 6) (a : BitVec 6) (b : BitVec 6) (c : BitVec 6) (ty : Ty) (mode : BitVec 2) (ret : BitVec 1) (ord : BitVec 2) (k : BitVec 2)
  | vamoFadd (v : VCtl) (d : BitVec 6) (a : BitVec 6) (b : BitVec 6) (c : BitVec 6) (ty : Ty) (mode : BitVec 2) (ret : BitVec 1) (ord : BitVec 2) (k : BitVec 2)
  | vamoAnd (v : VCtl) (d : BitVec 6) (a : BitVec 6) (b : BitVec 6) (c : BitVec 6) (ty : Ty) (mode : BitVec 2) (ret : BitVec 1) (ord : BitVec 2) (k : BitVec 2)
  | vamoOr (v : VCtl) (d : BitVec 6) (a : BitVec 6) (b : BitVec 6) (c : BitVec 6) (ty : Ty) (mode : BitVec 2) (ret : BitVec 1) (ord : BitVec 2) (k : BitVec 2)
  | vamoXor (v : VCtl) (d : BitVec 6) (a : BitVec 6) (b : BitVec 6) (c : BitVec 6) (ty : Ty) (mode : BitVec 2) (ret : BitVec 1) (ord : BitVec 2) (k : BitVec 2)
  | vamoMin (v : VCtl) (d : BitVec 6) (a : BitVec 6) (b : BitVec 6) (c : BitVec 6) (ty : Ty) (mode : BitVec 2) (ret : BitVec 1) (ord : BitVec 2) (k : BitVec 2)
  | vamoMax (v : VCtl) (d : BitVec 6) (a : BitVec 6) (b : BitVec 6) (c : BitVec 6) (ty : Ty) (mode : BitVec 2) (ret : BitVec 1) (ord : BitVec 2) (k : BitVec 2)
  | vamoMinn (v : VCtl) (d : BitVec 6) (a : BitVec 6) (b : BitVec 6) (c : BitVec 6) (ty : Ty) (mode : BitVec 2) (ret : BitVec 1) (ord : BitVec 2) (k : BitVec 2)
  | vamoMaxn (v : VCtl) (d : BitVec 6) (a : BitVec 6) (b : BitVec 6) (c : BitVec 6) (ty : Ty) (mode : BitVec 2) (ret : BitVec 1) (ord : BitVec 2) (k : BitVec 2)
  | vgl (v : VCtl) (d : BitVec 6) (a : BitVec 6) (b : BitVec 6) (rm : Rm) (ty : Ty) (sat : BitVec 1) (mode : BitVec 2) (k : BitVec 2)
  | vscc (v : VCtl) (d : BitVec 6) (a : BitVec 6) (b : BitVec 6) (c : BitVec 6) (ty : Ty) (mode : BitVec 2) (k : BitVec 2)
  | xredAdd (v : VCtl) (d : BitVec 6) (a : BitVec 6) (ty : Ty) (g : BitVec 3)
  | xredMin (v : VCtl) (d : BitVec 6) (a : BitVec 6) (ty : Ty) (g : BitVec 3)
  | xredMax (v : VCtl) (d : BitVec 6) (a : BitVec 6) (ty : Ty) (g : BitVec 3)
  | fence
  | fenceFab
  | fenceFabAcq
  | fenceFabRel
  | fenceFabAcqLoad (d : BitVec 6) (a : BitVec 6)
  | fenceFabRelStore (a : BitVec 6) (b : BitVec 6)
  | fencePool
  | fencePoolAcq
  | fencePoolRel
  | fencePoolAcqLoad (d : BitVec 6) (a : BitVec 6)
  | fencePoolRelStore (a : BitVec 6) (b : BitVec 6)
  | waitTl (a : BitVec 6) (b : BitVec 6)
  | tlNext (d : BitVec 6) (a : BitVec 6)
  | twalk (v : VCtl) (d : BitVec 6) (a : BitVec 6) (b : BitVec 6) (c : BitVec 6) (ty : Ty) (gn : BitVec 4)
  | twalkX (v : VCtl) (d : BitVec 6) (a : BitVec 6) (b : BitVec 6) (c : BitVec 6) (ty : Ty) (gn : BitVec 4)
  | twupd (d : BitVec 6) (a : BitVec 6) (b : BitVec 6) (c : BitVec 6) (ty : Ty)
  | twrd (v : VCtl) (d : BitVec 6) (a : BitVec 6) (p : BitVec 2)
  | twbuild (d : BitVec 6) (a : BitVec 6) (b : BitVec 6) (c : BitVec 6) (ty : Ty)
  | nop
  | yield_
  | pf (a : BitVec 6) (disp : BitVec 9)
  | pfW (a : BitVec 6) (disp : BitVec 9)
  | hintNop (fn : BitVec 6) (d : BitVec 6) (a : BitVec 6) (b : BitVec 6) (v : VCtl) (rm : Rm) (x : BitVec 20)
  | nopC
  | addC (d : BitVec 5) (o : CArg)
  | subC (d : BitVec 5) (o : CArg)
  | mulC (d : BitVec 5) (o : CArg)
  | andC (d : BitVec 5) (o : CArg)
  | orC (d : BitVec 5) (o : CArg)
  | xorC (d : BitVec 5) (o : CArg)
  | andnC (d : BitVec 5) (o : CArg)
  | shlC (d : BitVec 5) (o : CArg)
  | shrC (d : BitVec 5) (o : CArg)
  | sraC (d : BitVec 5) (o : CArg)
  | minC (d : BitVec 5) (o : CArg)
  | maxC (d : BitVec 5) (o : CArg)
  | minnC (d : BitVec 5) (o : CArg)
  | maxnC (d : BitVec 5) (o : CArg)
  | liC (d : BitVec 5) (o : CArg)
  | vaddC (d : BitVec 5) (o : CArg)
  | vsubC (d : BitVec 5) (o : CArg)
  | vmulC (d : BitVec 5) (o : CArg)
  | vandC (d : BitVec 5) (o : CArg)
  | vorC (d : BitVec 5) (o : CArg)
  | vxorC (d : BitVec 5) (o : CArg)
  | vshlC (d : BitVec 5) (o : CArg)
  | vshrC (d : BitVec 5) (o : CArg)
  | vsraC (d : BitVec 5) (o : CArg)
  | vminC (d : BitVec 5) (o : CArg)
  | vmaxC (d : BitVec 5) (o : CArg)
  | vfaddC (d : BitVec 5) (o : CArg)
  | vfsubC (d : BitVec 5) (o : CArg)
  | vfmulC (d : BitVec 5) (o : CArg)
  | vfminC (d : BitVec 5) (o : CArg)
  | vfmaxC (d : BitVec 5) (o : CArg)
deriving DecidableEq, Repr

end Sys2Proof
end

