-- ==== Sys2Proof/WellFormed.lean ====
section
/-!
DEFINITION. Which instructions are legal on their own (03, R40 to R45, R50, and the limits that the
entries of chapters 05 to 16 and 21 put on their fields). `wellFormed` is total: every constructor has
its own line. The events of the table are no words and are always well formed.
-/

namespace Sys2Proof

/-- Width in bits of an element of a type (R40). -/
def Ty.width : Ty → Nat
  | .i8 | .n8 | .e4m3 | .e5m2 | .e3m2 | .e2m3 | .e2m1 => 8
  | .i16 | .n16 | .f16 | .bf16 => 16
  | .i32 | .n32 | .f32 => 32
  | .i64 | .n64 => 64

/-- The codes 0x0–0x7 of R40. -/
def Ty.isInt : Ty → Bool
  | .i8 | .i16 | .i32 | .i64 | .n8 | .n16 | .n32 | .n64 => true
  | .f32 | .f16 | .bf16 | .e4m3 | .e5m2 | .e3m2 | .e2m3 | .e2m1 => false

/-- The codes 0x0–0x3 of R40. -/
def Ty.isSigned : Ty → Bool
  | .i8 | .i16 | .i32 | .i64 => true
  | .n8 | .n16 | .n32 | .n64 | .f32 | .f16 | .bf16 | .e4m3 | .e5m2 | .e3m2 | .e2m3 | .e2m1 => false

/-- The floating types of op 0x40–0x46 (R141). -/
def Ty.isF3 : Ty → Bool
  | .f32 | .f16 | .bf16 => true
  | .i8 | .i16 | .i32 | .i64 | .n8 | .n16 | .n32 | .n64 | .e4m3 | .e5m2 | .e3m2 | .e2m3 | .e2m1 => false

/-- The unsigned types (R149). -/
def Ty.isN : Ty → Bool
  | .n8 | .n16 | .n32 | .n64 => true
  | .i8 | .i16 | .i32 | .i64 | .f32 | .f16 | .bf16 | .e4m3 | .e5m2 | .e3m2 | .e2m3 | .e2m1 => false

/-- The types of the walker (R355). -/
def Ty.isTw : Ty → Bool
  | .f32 | .bf16 => true
  | .i8 | .i16 | .i32 | .i64 | .n8 | .n16 | .n32 | .n64 | .f16 | .e4m3 | .e5m2 | .e3m2 | .e2m3 | .e2m1 => false

/-- The types of reductions, scans, pooled sums and scatter-adds (R152, R259, R260). -/
def Ty.isRed (t : Ty) : Bool := t.isInt || t.isF3

/-- The types of `xred` (R301). -/
def Ty.isXred : Ty → Bool
  | .f32 | .f16 | .bf16 | .i32 | .i64 | .n32 | .n64 => true
  | .i8 | .i16 | .n8 | .n16 | .e4m3 | .e5m2 | .e3m2 | .e2m3 | .e2m1 => false

namespace Wf

/-- A scalar operand number (R41): 0–47. -/
def sc (x : BitVec 6) : Bool := x.toNat < 48
/-- A vector destination number (R41): 0–31. -/
def vd (x : BitVec 6) : Bool := x.toNat < 32
/-- A mask number (R41): 0–7. -/
def mk (x : BitVec 6) : Bool := x.toNat < 8
/-- A mask destination (R141): 1–7. -/
def mk1 (x : BitVec 6) : Bool := 0 < x.toNat && x.toNat < 8
/-- A tile number (R41): 0–7. -/
def tile (x : BitVec 6) : Bool := x.toNat < 8
/-- A reel handle number (R41): 0–15. -/
def hnd (x : BitVec 6) : Bool := x.toNat < 16
/-- The destination of `rcut`, which also writes the next handle (R206). -/
def hnd14 (x : BitVec 6) : Bool := x.toNat < 15
/-- A timeline counter number (R41): 0–15. -/
def tl (x : BitVec 6) : Bool := x.toNat < 16
/-- A format-record number (R41): 0–15. -/
def fmtNo (x : BitVec 6) : Bool := x.toNat < 16
/-- A length register (R131): g8–g15, numbered 40–47. -/
def lenReg (x : BitVec 6) : Bool := 40 ≤ x.toNat && x.toNat < 48
/-- Only the length register of the vector fields is used (R42). -/
def onlyLs (v : VCtl) : Bool := v.q == 0 && v.k == 0
/-- The policy bit must be zero (R135). -/
def noPol (v : VCtl) : Bool := v.k == 0

/-- `rm` is accepted only where a rounding step exists (R42, R145, R152). -/
def rmFloat (t : Ty) (r : Rm) : Bool := r == .rne || !t.isInt
/-- `.sat` only with an integer type (R145, R152, R260). -/
def satInt (t : Ty) (s : BitVec 1) : Bool := s == 0 || t.isInt

/-- The widening factor and type of R145: F = 2 is 1, F = 4 is 2. -/
def widen (t : Ty) (wf : BitVec 2) : Bool :=
  match t with
  | .i8 | .i16 | .n8 | .n16 => wf.toNat == 1 || wf.toNat == 2
  | .i32 | .n32 | .f16 | .bf16 => wf.toNat == 1
  | .i64 | .n64 | .f32 | .e4m3 | .e5m2 | .e3m2 | .e2m3 | .e2m1 => false

/-- A second format code that `vcvt` accepts (R40, R175). -/
def fcAny (f : BitVec 6) : Bool := f.toNat ≤ 16 || (32 ≤ f.toNat && f.toNat < 48)
/-- A second format code that `vpack` and `vunpk` accept: formats of 2 to 8 bits (R175). -/
def fcPack (f : BitVec 6) : Bool :=
  f.toNat == 0 || f.toNat == 4 || (11 ≤ f.toNat && f.toNat ≤ 16) || (32 ≤ f.toNat && f.toNat < 48)
/-- A second format code that `vscl` and `vquant` accept (R175). -/
def fcScl (f : BitVec 6) : Bool := (11 ≤ f.toNat && f.toNat ≤ 15) || (32 ≤ f.toNat && f.toNat < 48)

/-- `mmr.rep` touches n consecutive rows and destinations (R191); the field holds n − 1. -/
def rep (d a b : BitVec 6) (n : BitVec 3) : Bool :=
  d.toNat + n.toNat ≤ 31 && a.toNat + n.toNat ≤ 31 && (32 ≤ b.toNat || b.toNat + n.toNat ≤ 31)

/-- The base and index fields of `vld` and `vst` (R255). -/
def vldBase (t : BitVec 1) (a b : BitVec 6) (disp : BitVec 8) : Bool :=
  if t == 0 then sc a && b == 0 else sc b && disp == 0
/-- Raw forms move bits: rm and sat are zero (R257). -/
def rawForm (raw : Bool) (r : Rm) (s : BitVec 1) : Bool := !raw || (r == .rne && s == 0)
/-- The forms of a scatter, a pooled gather, a scatter-add, a vector atomic and `vgl`
(R255, R293, R298): 0 base, 1 tensor. -/
def mode2 (m : BitVec 2) (a : BitVec 6) (k : BitVec 2) : Bool :=
  (m.toNat == 0 && sc a) || (m.toNat == 1 && k == 0)
/-- The forms of `vgat` (R255): as `mode2`, and 2 the sequence-map form. -/
def mode3 (m : BitVec 2) (a : BitVec 6) (k : BitVec 2) : Bool :=
  mode2 m a k || (m.toNat == 2 && sc a && k == 0)

/-- The types that `amo` takes for each function code (R290). -/
def amoTy (fn : Nat) (t : Ty) : Bool :=
  match t with
  | .i32 | .i64 => fn != 3 && fn != 9 && fn != 10
  | .n32 | .n64 => fn != 3 && fn != 7 && fn != 8
  | .f32 => fn == 0 || fn == 1 || fn == 3 || fn == 7 || fn == 8
  | .i8 | .i16 | .n8 | .n16 | .f16 | .bf16 | .e4m3 | .e5m2 | .e3m2 | .e2m3 | .e2m1 => false
/-- The types that `vamo` takes: those of `amo`, and f16 and bf16 where R290 adds them. -/
def vamoTy (fn : Nat) (t : Ty) : Bool :=
  amoTy fn t || ((t == .f16 || t == .bf16) && (fn == 3 || fn == 7 || fn == 8))
/-- The destination of `vamo` (R293): 0 and policy keep when no old values are returned. -/
def vamoDst (d : BitVec 6) (v : VCtl) (ret : BitVec 1) : Bool :=
  if ret == 0 then d == 0 && v.k == 0 else vd d

/-- The assigned special-register numbers (R109, R310). -/
def spr (n : BitVec 12) : Bool :=
  let x := n.toNat
  x ≤ 2 || (0x10 ≤ x && x ≤ 0x13) || x == 0x18 || (0x20 ≤ x && x ≤ 0x22) || (0x30 ≤ x && x ≤ 0x32)
    || x == 0x38 || (0x40 ≤ x && x ≤ 0x47) || (0x50 ≤ x && x ≤ 0x53) || (0x60 ≤ x && x ≤ 0x6A)

/-- Which row of the opcode table an `mts` of a number is. -/
inductive Mts where
  | plain | mvl | tshape | dly | efq
deriving DecidableEq, Repr

/-- The table lists the writes of MVL, TSHAPE0–7, DLYMODE and the engine-fault queue as steps of
their own; they are `mts` words all the same (R110). -/
def mts (n : BitVec 12) : Mts :=
  let x := n.toNat
  if x == 0x31 then .mvl else if 0x40 ≤ x && x ≤ 0x47 then .tshape
  else if x == 0x38 then .dly else if x == 0x69 || x == 0x6A then .efq else .plain

/-- The immediate of a compact shift (R44). -/
def shiftArg : CArg → Bool
  | .reg _ => true
  | .imm v => v.toNat < 64
/-- A compact op that has no immediate form (R44). -/
def regArg : CArg → Bool
  | .reg _ => true
  | .imm _ => false
/-- A compact op that has no register form (R44). -/
def immArg : CArg → Bool
  | .reg _ => false
  | .imm _ => true

end Wf

/-- A word, slot or event that is legal on its own (R50). Op 0x30 and `vdup` take every element type (log 128). -/
def wellFormed : Instr → Bool
  | .b _ => true
  | .beq a b _ => Wf.sc a && Wf.sc b
  | .bne a b _ => Wf.sc a && Wf.sc b
  | .blt a b _ => Wf.sc a && Wf.sc b
  | .bge a b _ => Wf.sc a && Wf.sc b
  | .bltn a b _ => Wf.sc a && Wf.sc b
  | .bgen a b _ => Wf.sc a && Wf.sc b
  | .bz a _ => Wf.sc a
  | .bnz a _ => Wf.sc a
  | .jmp a => Wf.sc a
  | .calli a => Wf.sc a
  | .ret => true
  | .call _ => true
  | .mwait d a b c => Wf.sc d && Wf.sc a && Wf.sc b && Wf.sc c
  | .halt => true
  | .launch d a => Wf.sc d && Wf.sc a
  | .glaunch d a => Wf.sc d && Wf.sc a
  | .widGet d => Wf.sc d
  | .widGetField d _ => Wf.sc d
  | .barK k => decide (k.toNat < 6)
  | .tmBind a b c _ => Wf.sc a && Wf.sc b && Wf.sc c
  | .tmAdv a b _ => Wf.sc a && Wf.sc b
  | .tmRd d _ => Wf.sc d
  | .ldco d a b => Wf.sc d && Wf.sc a && Wf.sc b
  | .ldcoDrop d a => Wf.sc d && Wf.sc a
  | .trap _ => true
  | .sret => true
  | .ctxSave d a b => Wf.sc d && Wf.sc a && Wf.sc b
  | .ctxLoad d a b => Wf.sc d && Wf.sc a && Wf.sc b
  | .erecRd d a _ => Wf.sc d && Wf.sc a
  | .add d a b => Wf.sc d && Wf.sc a && Wf.sc b
  | .sub d a b => Wf.sc d && Wf.sc a && Wf.sc b
  | .mul d a b => Wf.sc d && Wf.sc a && Wf.sc b
  | .mulh d a b => Wf.sc d && Wf.sc a && Wf.sc b
  | .mulhn d a b => Wf.sc d && Wf.sc a && Wf.sc b
  | .sAnd d a b => Wf.sc d && Wf.sc a && Wf.sc b
  | .sOr d a b => Wf.sc d && Wf.sc a && Wf.sc b
  | .sXor d a b => Wf.sc d && Wf.sc a && Wf.sc b
  | .andn d a b => Wf.sc d && Wf.sc a && Wf.sc b
  | .shl d a b => Wf.sc d && Wf.sc a && Wf.sc b
  | .shr d a b => Wf.sc d && Wf.sc a && Wf.sc b
  | .sra d a b => Wf.sc d && Wf.sc a && Wf.sc b
  | .rol d a b => Wf.sc d && Wf.sc a && Wf.sc b
  | .sMin d a b => Wf.sc d && Wf.sc a && Wf.sc b
  | .sMax d a b => Wf.sc d && Wf.sc a && Wf.sc b
  | .minn d a b => Wf.sc d && Wf.sc a && Wf.sc b
  | .maxn d a b => Wf.sc d && Wf.sc a && Wf.sc b
  | .slt d a b => Wf.sc d && Wf.sc a && Wf.sc b
  | .sltn d a b => Wf.sc d && Wf.sc a && Wf.sc b
  | .addi d a _ => Wf.sc d && Wf.sc a
  | .subi d a _ => Wf.sc d && Wf.sc a
  | .muli d a _ => Wf.sc d && Wf.sc a
  | .mulhi d a _ => Wf.sc d && Wf.sc a
  | .mulhni d a _ => Wf.sc d && Wf.sc a
  | .andi d a _ => Wf.sc d && Wf.sc a
  | .ori d a _ => Wf.sc d && Wf.sc a
  | .xori d a _ => Wf.sc d && Wf.sc a
  | .andni d a _ => Wf.sc d && Wf.sc a
  | .shli d a imm => Wf.sc d && Wf.sc a && decide (imm.toNat < 64)
  | .shri d a imm => Wf.sc d && Wf.sc a && decide (imm.toNat < 64)
  | .srai d a imm => Wf.sc d && Wf.sc a && decide (imm.toNat < 64)
  | .roli d a imm => Wf.sc d && Wf.sc a && decide (imm.toNat < 64)
  | .mini d a _ => Wf.sc d && Wf.sc a
  | .maxi d a _ => Wf.sc d && Wf.sc a
  | .minni d a _ => Wf.sc d && Wf.sc a
  | .maxni d a _ => Wf.sc d && Wf.sc a
  | .slti d a _ => Wf.sc d && Wf.sc a
  | .sltni d a _ => Wf.sc d && Wf.sc a
  | .div d a b => Wf.sc d && Wf.sc a && Wf.sc b
  | .divn d a b => Wf.sc d && Wf.sc a && Wf.sc b
  | .rem d a b => Wf.sc d && Wf.sc a && Wf.sc b
  | .remn d a b => Wf.sc d && Wf.sc a && Wf.sc b
  | .clz d a => Wf.sc d && Wf.sc a
  | .ctz d a => Wf.sc d && Wf.sc a
  | .popc d a => Wf.sc d && Wf.sc a
  | .sel d a b c => Wf.sc d && Wf.sc a && Wf.sc b && Wf.sc c
  | .li d _ => Wf.sc d
  | .lui d _ => Wf.sc d
  | .adr d _ => Wf.sc d
  | .lsa d a b _ => Wf.sc d && Wf.sc a && Wf.sc b
  | .ext d a pos len => Wf.sc d && Wf.sc a && decide (pos.toNat + len.toNat < 64)
  | .extS d a pos len => Wf.sc d && Wf.sc a && decide (pos.toNat + len.toNat < 64)
  | .ins d a pos len => Wf.sc d && Wf.sc a && decide (pos.toNat + len.toNat < 64)
  | .frame n => decide (n.toNat ≤ 32)
  | .faddS d a b _ => Wf.sc d && Wf.sc a && Wf.sc b
  | .fsubS d a b _ => Wf.sc d && Wf.sc a && Wf.sc b
  | .fmulS d a b _ => Wf.sc d && Wf.sc a && Wf.sc b
  | .ffmaS d a b _ c => Wf.sc d && Wf.sc a && Wf.sc b && Wf.sc c
  | .fdivS d a b _ => Wf.sc d && Wf.sc a && Wf.sc b
  | .fsqrtS d a _ => Wf.sc d && Wf.sc a
  | .fcmpSEq d a b => Wf.sc d && Wf.sc a && Wf.sc b
  | .fcmpSLt d a b => Wf.sc d && Wf.sc a && Wf.sc b
  | .fcmpSLe d a b => Wf.sc d && Wf.sc a && Wf.sc b
  | .fcmpSUn d a b => Wf.sc d && Wf.sc a && Wf.sc b
  | .fcvtSFi d a _ => Wf.sc d && Wf.sc a
  | .fcvtSFn d a _ => Wf.sc d && Wf.sc a
  | .fcvtSIf d a _ => Wf.sc d && Wf.sc a
  | .fcvtSNf d a _ => Wf.sc d && Wf.sc a
  | .mfs d num => Wf.sc d && Wf.spr num
  | .mts a num => Wf.sc a && Wf.spr num && Wf.mts num == .plain
  | .mvlWrite a num => Wf.sc a && Wf.mts num == .mvl
  | .tshapeWrite a num => Wf.sc a && Wf.mts num == .tshape
  | .dlymodeClr a num => Wf.sc a && Wf.mts num == .dly
  | .efqWrite a num => Wf.sc a && Wf.mts num == .efq
  | .vsetl d a _ => Wf.lenReg d && Wf.sc a
  | .vrel => true
  | .vspill v a b _ _ => Wf.onlyLs v && Wf.sc a && Wf.vd b
  | .vfill d a _ _ => Wf.vd d && Wf.sc a
  | .vadd _ d _ _ ty _ => Wf.vd d && ty.isInt
  | .vsub _ d _ _ ty _ => Wf.vd d && ty.isInt
  | .vmul _ d _ _ ty _ => Wf.vd d && ty.isInt
  | .vmulh _ d _ _ ty => Wf.vd d && ty.isInt
  | .vmin _ d _ _ ty => Wf.vd d && ty.isInt
  | .vmax _ d _ _ ty => Wf.vd d && ty.isInt
  | .vand _ d _ _ ty => Wf.vd d && ty.isInt
  | .vor _ d _ _ ty => Wf.vd d && ty.isInt
  | .vxor _ d _ _ ty => Wf.vd d && ty.isInt
  | .vshl _ d _ _ ty => Wf.vd d && ty.isInt
  | .vshr _ d _ _ ty => Wf.vd d && ty.isInt
  | .vsra _ d _ _ ty => Wf.vd d && ty.isInt
  | .vcmpEq _ d _ _ ty => Wf.mk1 d && ty.isInt
  | .vcmpNe _ d _ _ ty => Wf.mk1 d && ty.isInt
  | .vcmpLt _ d _ _ ty => Wf.mk1 d && ty.isInt
  | .vcmpLe _ d _ _ ty => Wf.mk1 d && ty.isInt
  | .vwadd _ d _ _ rm ty wf => Wf.vd d && Wf.widen ty wf && Wf.rmFloat ty rm
  | .vwmul _ d _ _ rm ty wf => Wf.vd d && Wf.widen ty wf && Wf.rmFloat ty rm
  | .vwmac _ d _ _ rm _ ty sat wf => Wf.vd d && Wf.widen ty wf && Wf.rmFloat ty rm && Wf.satInt ty sat
  | .vmov _ d _ _ => Wf.vd d
  | .vid _ d ty => Wf.vd d && ty.isInt
  | .vsel v d _ _ _ => Wf.vd d && Wf.noPol v
  | .vdup _ d _ b _ => Wf.vd d && Wf.sc b
  | .vperm _ d _ _ _ => Wf.vd d
  | .vslup _ d _ b _ => Wf.vd d && Wf.sc b
  | .vsldn _ d _ b _ => Wf.vd d && Wf.sc b
  | .vcmprs v d _ _ => Wf.vd d && Wf.noPol v
  | .vexpnd _ d _ _ => Wf.vd d
  | .qand v d a b => Wf.mk1 d && Wf.mk a && Wf.mk b && Wf.onlyLs v
  | .qor v d a b => Wf.mk1 d && Wf.mk a && Wf.mk b && Wf.onlyLs v
  | .qxor v d a b => Wf.mk1 d && Wf.mk a && Wf.mk b && Wf.onlyLs v
  | .qnot v d a => Wf.mk1 d && Wf.mk a && Wf.onlyLs v
  | .qpopc v d a => Wf.sc d && Wf.mk a && Wf.onlyLs v
  | .qfirst v d a => Wf.sc d && Wf.mk a && Wf.onlyLs v
  | .vbmand _ d _ _ ty => Wf.vd d && ty.isN
  | .vbpfx _ d _ ty => Wf.vd d && ty.isN
  | .vxsect _ d _ _ ty => Wf.vd d && ty.isN
  | .vconf _ d _ ty _ => Wf.vd d && ty.isInt
  | .vfadd _ d _ _ _ ty => Wf.vd d && ty.isF3
  | .vfsub _ d _ _ _ ty => Wf.vd d && ty.isF3
  | .vfmul _ d _ _ _ ty => Wf.vd d && ty.isF3
  | .vfmin _ d _ _ ty => Wf.vd d && ty.isF3
  | .vfmax _ d _ _ ty => Wf.vd d && ty.isF3
  | .vfma _ d _ _ _ _ ty => Wf.vd d && ty.isF3
  | .vfms _ d _ _ _ _ ty => Wf.vd d && ty.isF3
  | .vfnma _ d _ _ _ _ ty => Wf.vd d && ty.isF3
  | .vfdiv _ d _ _ _ ty => Wf.vd d && ty.isF3
  | .vfsqrt _ d _ _ ty => Wf.vd d && ty.isF3
  | .vrcp _ d _ _ ty => Wf.vd d && ty.isF3
  | .vrsqrt _ d _ _ ty => Wf.vd d && ty.isF3
  | .vexp2 _ d _ _ ty => Wf.vd d && ty.isF3
  | .vfcmpEq _ d _ _ ty => Wf.mk1 d && ty.isF3
  | .vfcmpLt _ d _ _ ty => Wf.mk1 d && ty.isF3
  | .vfcmpLe _ d _ _ ty => Wf.mk1 d && ty.isF3
  | .vfcmpUn _ d _ _ ty => Wf.mk1 d && ty.isF3
  | .vredoAdd v d _ _ rm ty sat => Wf.vd d && ty.isRed && Wf.rmFloat ty rm && Wf.satInt ty sat && Wf.noPol v
  | .vredoMin v d _ _ ty => Wf.vd d && ty.isRed && Wf.noPol v
  | .vredoMax v d _ _ ty => Wf.vd d && ty.isRed && Wf.noPol v
  | .vredoAnd v d _ _ ty => Wf.vd d && ty.isInt && Wf.noPol v
  | .vredoOr v d _ _ ty => Wf.vd d && ty.isInt && Wf.noPol v
  | .vredoXor v d _ _ ty => Wf.vd d && ty.isInt && Wf.noPol v
  | .vredtAdd v d _ _ rm ty sat => Wf.vd d && ty.isRed && Wf.rmFloat ty rm && Wf.satInt ty sat && Wf.noPol v
  | .vredtMin v d _ _ ty => Wf.vd d && ty.isRed && Wf.noPol v
  | .vredtMax v d _ _ ty => Wf.vd d && ty.isRed && Wf.noPol v
  | .vredtAnd v d _ _ ty => Wf.vd d && ty.isInt && Wf.noPol v
  | .vredtOr v d _ _ ty => Wf.vd d && ty.isInt && Wf.noPol v
  | .vredtXor v d _ _ ty => Wf.vd d && ty.isInt && Wf.noPol v
  | .vscanAdd _ d _ _ rm ty sat => Wf.vd d && ty.isRed && Wf.rmFloat ty rm && Wf.satInt ty sat
  | .vscanMin _ d _ _ ty => Wf.vd d && ty.isRed
  | .vscanMax _ d _ _ ty => Wf.vd d && ty.isRed
  | .vscanAnd _ d _ _ ty => Wf.vd d && ty.isInt
  | .vscanOr _ d _ _ ty => Wf.vd d && ty.isInt
  | .vscanXor _ d _ _ ty => Wf.vd d && ty.isInt
  | .fmtSet d a => Wf.fmtNo d && Wf.sc a
  | .tidBind _ a => Wf.sc a
  | .tidRd d _ _ => Wf.sc d
  | .vcvtTo _ d _ _ _ _ fc => Wf.vd d && Wf.fcAny fc
  | .vcvtFrom _ d _ _ _ _ fc => Wf.vd d && Wf.fcAny fc
  | .vpack v d _ ty fc => Wf.vd d && Wf.onlyLs v && ty == .n8 && Wf.fcPack fc
  | .vunpk v d _ ty fc => Wf.vd d && Wf.onlyLs v && ty == .n8 && Wf.fcPack fc
  | .vscl _ d _ _ _ ty _ fc => Wf.vd d && ty.isF3 && Wf.fcScl fc
  | .vquant _ d _ b _ ty fc => Wf.vd d && Wf.vd b && ty.isF3 && Wf.fcScl fc && d != b
  | .tld d _ b c => Wf.tile d && Wf.sc b && Wf.sc c
  | .tldt d _ b c => Wf.tile d && Wf.sc b && Wf.sc c
  | .tst _ a b c => Wf.tile a && Wf.sc b && Wf.sc c
  | .tzero d _ => Wf.tile d
  | .tlatch a _ => Wf.tile a
  | .mmr _ d a _ _ => Wf.vd d && Wf.vd a
  | .mmrT _ d a _ c _ => Wf.vd d && Wf.tile a && Wf.sc c
  | .mmrRep _ d a b _ n => Wf.vd d && Wf.vd a && Wf.rep d a b n
  | .mmrSk _ d a _ c _ => Wf.vd d && Wf.vd a && Wf.mk1 c
  | .rnew d a b _ => Wf.hnd d && Wf.sc a && Wf.sc b
  | .rcut d a b _ _ => Wf.hnd14 d && Wf.hnd a && Wf.sc b
  | .rsplc d a b => Wf.hnd d && Wf.hnd a && Wf.hnd b
  | .rfree a => Wf.hnd a
  | .hmov d a b => Wf.hnd d && Wf.hnd a && Wf.sc b
  | .hinfo d a _ => Wf.sc d && Wf.hnd a
  | .rld _ d a b => Wf.vd d && Wf.hnd a && Wf.sc b
  | .rst v a b _ => Wf.noPol v && Wf.hnd a && Wf.sc b
  | .ldI8 d a _ => Wf.sc d && Wf.sc a
  | .ldI16 d a _ => Wf.sc d && Wf.sc a
  | .ldI32 d a _ => Wf.sc d && Wf.sc a
  | .ldI64 d a _ => Wf.sc d && Wf.sc a
  | .ldN8 d a _ => Wf.sc d && Wf.sc a
  | .ldN16 d a _ => Wf.sc d && Wf.sc a
  | .ldN32 d a _ => Wf.sc d && Wf.sc a
  | .st8 d a _ => Wf.sc d && Wf.sc a
  | .st16 d a _ => Wf.sc d && Wf.sc a
  | .st32 d a _ => Wf.sc d && Wf.sc a
  | .st64 d a _ => Wf.sc d && Wf.sc a
  | .vld _ d a b rm _ sat t disp => Wf.vd d && Wf.vldBase t a b disp && Wf.rawForm (t == 0) rm sat
  | .vst v a b _ _ t disp => Wf.noPol v && Wf.vldBase t a b disp
  | .vlds _ d a b _ _ => Wf.vd d && Wf.sc a && Wf.sc b
  | .vsts v a b _ _ _ => Wf.noPol v && Wf.sc a && Wf.sc b
  | .vgat _ d a _ rm _ sat mode k => Wf.vd d && Wf.mode3 mode a k && Wf.rawForm (mode.toNat != 1) rm sat
  | .vsca v a _ _ _ mode k => Wf.noPol v && Wf.mode2 mode a k
  | .vgpool v d a _ _ _ _ _ mode k => Wf.vd d && Wf.noPol v && Wf.mode2 mode a k
  | .vsadd v a _ _ ty sat mode k => Wf.noPol v && Wf.mode2 mode a k && ty.isRed && Wf.satInt ty sat
  | .tcopy d a b c => Wf.tl d && Wf.sc a && Wf.sc b && Wf.sc c
  | .tcopyMig d a b => Wf.tl d && Wf.sc a && Wf.sc b
  | .tcopyRes d a => Wf.tl d && Wf.sc a
  | .slabGrow d a b => Wf.tl d && Wf.sc a && Wf.sc b
  | .smapSet d a b => Wf.sc d && Wf.sc a && Wf.sc b
  | .smapInv d a b => Wf.tl d && Wf.sc a && Wf.sc b
  | .bankMode d a b => Wf.sc d && Wf.sc a && Wf.sc b
  | .tlbinvPg a b => Wf.sc a && Wf.sc b
  | .tlbinvAs a => Wf.sc a
  | .tlbinvAll => true
  | .pprobe d a => Wf.sc d && Wf.sc a
  | .asidSwSet a => Wf.sc a
  | .asidSwBind d a b => Wf.sc d && Wf.sc a && Wf.sc b
  | .asidSwDrop d a => Wf.sc d && Wf.sc a
  | .amoSwap d a b ty _ => Wf.sc d && Wf.sc a && Wf.sc b && Wf.amoTy 0 ty
  | .amoCas d a b c ty _ => Wf.sc d && Wf.sc a && Wf.sc b && Wf.sc c && Wf.amoTy 1 ty
  | .amoAdd d a b ty _ => Wf.sc d && Wf.sc a && Wf.sc b && Wf.amoTy 2 ty
  | .amoFadd d a b ty _ => Wf.sc d && Wf.sc a && Wf.sc b && Wf.amoTy 3 ty
  | .amoAnd d a b ty _ => Wf.sc d && Wf.sc a && Wf.sc b && Wf.amoTy 4 ty
  | .amoOr d a b ty _ => Wf.sc d && Wf.sc a && Wf.sc b && Wf.amoTy 5 ty
  | .amoXor d a b ty _ => Wf.sc d && Wf.sc a && Wf.sc b && Wf.amoTy 6 ty
  | .amoMin d a b ty _ => Wf.sc d && Wf.sc a && Wf.sc b && Wf.amoTy 7 ty
  | .amoMax d a b ty _ => Wf.sc d && Wf.sc a && Wf.sc b && Wf.amoTy 8 ty
  | .amoMinn d a b ty _ => Wf.sc d && Wf.sc a && Wf.sc b && Wf.amoTy 9 ty
  | .amoMaxn d a b ty _ => Wf.sc d && Wf.sc a && Wf.sc b && Wf.amoTy 10 ty
  | .vamoSwap v d a _ _ ty mode ret _ k => Wf.vamoTy 0 ty && Wf.vamoDst d v ret && Wf.mode2 mode a k
  | .vamoCas v d a _ _ ty mode ret _ k => Wf.vamoTy 1 ty && Wf.vamoDst d v ret && Wf.mode2 mode a k && ret == 1
  | .vamoAdd v d a _ _ ty mode ret _ k => Wf.vamoTy 2 ty && Wf.vamoDst d v ret && Wf.mode2 mode a k
  | .vamoFadd v d a _ _ ty mode ret _ k => Wf.vamoTy 3 ty && Wf.vamoDst d v ret && Wf.mode2 mode a k
  | .vamoAnd v d a _ _ ty mode ret _ k => Wf.vamoTy 4 ty && Wf.vamoDst d v ret && Wf.mode2 mode a k
  | .vamoOr v d a _ _ ty mode ret _ k => Wf.vamoTy 5 ty && Wf.vamoDst d v ret && Wf.mode2 mode a k
  | .vamoXor v d a _ _ ty mode ret _ k => Wf.vamoTy 6 ty && Wf.vamoDst d v ret && Wf.mode2 mode a k
  | .vamoMin v d a _ _ ty mode ret _ k => Wf.vamoTy 7 ty && Wf.vamoDst d v ret && Wf.mode2 mode a k
  | .vamoMax v d a _ _ ty mode ret _ k => Wf.vamoTy 8 ty && Wf.vamoDst d v ret && Wf.mode2 mode a k
  | .vamoMinn v d a _ _ ty mode ret _ k => Wf.vamoTy 9 ty && Wf.vamoDst d v ret && Wf.mode2 mode a k
  | .vamoMaxn v d a _ _ ty mode ret _ k => Wf.vamoTy 10 ty && Wf.vamoDst d v ret && Wf.mode2 mode a k
  | .vgl _ d a _ rm _ sat mode k => Wf.vd d && Wf.mode2 mode a k && Wf.rawForm (mode.toNat != 1) rm sat
  | .vscc v d a _ _ _ mode k => Wf.mk1 d && Wf.noPol v && Wf.mode2 mode a k
  | .xredAdd v d a ty g => Wf.onlyLs v && Wf.sc a && decide (d.toNat + g.toNat ≤ 31) && ty.isXred
  | .xredMin v d a ty g => Wf.onlyLs v && Wf.sc a && decide (d.toNat + g.toNat ≤ 31) && ty.isXred
  | .xredMax v d a ty g => Wf.onlyLs v && Wf.sc a && decide (d.toNat + g.toNat ≤ 31) && ty.isXred
  | .fence => true
  | .fenceFab => true
  | .fenceFabAcq => true
  | .fenceFabRel => true
  | .fenceFabAcqLoad d a => Wf.sc d && Wf.sc a
  | .fenceFabRelStore a b => Wf.sc a && Wf.sc b
  | .fencePool => true
  | .fencePoolAcq => true
  | .fencePoolRel => true
  | .fencePoolAcqLoad d a => Wf.sc d && Wf.sc a
  | .fencePoolRelStore a b => Wf.sc a && Wf.sc b
  | .waitTl a b => Wf.tl a && Wf.sc b
  | .tlNext d a => Wf.sc d && Wf.tl a
  | .twalk v d a b c ty _ => Wf.onlyLs v && Wf.vd d && Wf.vd a && Wf.sc b && Wf.vd c && ty.isTw && d != c
  | .twalkX v d a b c ty _ => Wf.onlyLs v && Wf.vd d && Wf.vd a && Wf.sc b && Wf.vd c && ty.isTw && d != c
  | .twupd d a b c ty => Wf.sc d && Wf.vd a && Wf.sc b && Wf.vd c && ty.isTw
  | .twrd _ d a _ => Wf.vd d && Wf.sc a
  | .twbuild d a b c ty => Wf.sc d && Wf.sc a && Wf.sc b && Wf.sc c && ty.isTw
  | .nop => true
  | .yield_ => true
  | .pf a _ => Wf.sc a
  | .pfW a _ => Wf.sc a
  | .hintNop fn _ _ _ _ _ _ => decide (2 < fn.toNat)
  | .nopC => true
  | .addC _ _ => true
  | .subC _ _ => true
  | .mulC _ _ => true
  | .andC _ _ => true
  | .orC _ _ => true
  | .xorC _ _ => true
  | .andnC _ _ => true
  | .shlC _ o => Wf.shiftArg o
  | .shrC _ o => Wf.shiftArg o
  | .sraC _ o => Wf.shiftArg o
  | .minC _ _ => true
  | .maxC _ _ => true
  | .minnC _ _ => true
  | .maxnC _ _ => true
  | .liC _ o => Wf.immArg o
  | .vaddC _ _ => true
  | .vsubC _ _ => true
  | .vmulC _ _ => true
  | .vandC _ _ => true
  | .vorC _ _ => true
  | .vxorC _ _ => true
  | .vshlC _ _ => true
  | .vshrC _ _ => true
  | .vsraC _ _ => true
  | .vminC _ _ => true
  | .vmaxC _ _ => true
  | .vfaddC _ o => Wf.regArg o
  | .vfsubC _ o => Wf.regArg o
  | .vfmulC _ o => Wf.regArg o
  | .vfminC _ o => Wf.regArg o
  | .vfmaxC _ o => Wf.regArg o
  | .backingStoreSpill _ _ => true
  | .backingStoreRefill _ _ => true
  | .laneGrant _ => true
  | .tileFillComplete _ _ => true
  | .tileDrainComplete _ _ => true
  | .latchCopy _ => true
  | .latchCopyComplete _ => true
  | .reelStorageRelease _ _ => true
  | .hmovDelivery _ _ => true
  | .bankModeSwitchComplete _ _ => true
  | .fifoPush _ _ => true
  | .fifoPop _ _ => true
  | .vmuLineReply _ _ => true
  | .peerAccessRequest _ => true
  | .peerTimeout _ _ _ => true
  | .memoryEventPerform _ _ => true
  | .tcopyChunk _ => true
  | .engineFaultQueueWrite _ => true
  | .migrationLineCopy _ => true
  | .slabLineCopy _ => true
  | .commandComplete _ => true
  | .xredContribution _ _ _ => true
  | .walkerService _ => true
  | .elementFire _ _ => true
  | .convoyRetire _ _ => true
  | .trapDelivery _ _ => true
  | .mwaitWake _ _ => true
  | .mwaitTimeout _ _ => true
  | .monitorLost _ _ => true
  | .tideMarkRise _ _ => true
  | .barrierRelease _ _ _ => true
  | .launchGroupStart => true
  | .ownerScrub _ _ => true
  | .bankOwnerZeroing _ _ _ => true
  | .lqageExpiry _ => true
  | .haltRetire _ _ => true
  | .powerLimitChange _ _ => true
  | .lanePowerUp _ => true
  | .laneRollback _ _ _ => true
  | .lmapFailMark _ _ => true
  | .dailiesRecheck _ _ => true
  | .dailiesVote _ _ _ => true
  | .eccCorrection _ => true
  | .hostWrite _ _ _ => true
  | .hostRead _ _ _ => true
  | .hmsiStore _ => true
  | .devregWrite _ _ _ => true
  | .japp _ => true
  | .jstat _ => true
  | .fwreqInstallKey _ => true
  | .fwreqRemoveKey _ => true
  | .fwreqAttestation _ => true
  | .pdecEnable _ _ => true
  | .pdecDisable _ _ => true
  | .cxlPoisonReport _ _ => true
  | .flitReplay _ _ => true
  | .laneRecalibration _ => true
  | .portRetrain _ => true
  | .deviceDownReport _ => true
  | .gangPrepareAck _ _ _ => true
  | .gangCommit _ => true
  | .gangCommitResend _ => true
  | .gangAbort _ => true
  | .gangPartRetired _ _ => true
  | .deviceReset => true
  | .powerUpStage => true
  | .bootImageVerify _ => true
  | .journalRecovery => true
  | .supervisorStart => true
  | .unitOutOfService _ _ => true
  | .instructionFetch _ _ => true
  | .illegalInstruction _ _ => true
  | .cacheEviction _ => true
  | .laneRecalibrationEnd _ _ => true
  | .portRetrainEnd _ => true
  | .gangAcknowledgement _ _ _ => true
  | .memberAbort _ => true

end Sys2Proof
end

