-- ==== Sys2Proof/Decode.lean ====
section
/-!
DEFINITION. Decoding and encoding of instruction words (03, R37 to R45, R50 to R52). Decoding is total
on any 64-bit word and on any list of bytes; what is no instruction is rejected by a named
`DecodeError`. A word is decoded by reading the fields of R38, naming the instruction by opcode and
function code, and then requiring that the instruction's own encoding has exactly the fields that were
read: that is R42, every field the entry does not use holds zero.
The section is noncomputable only because the compiler's runtime has no object tags for so many
constructors; the kernel evaluates every definition here.
-/

namespace Sys2Proof

noncomputable section

/-- Why a word is no instruction (R50). -/
inductive DecodeError where
  /-- The primary opcode is reserved, or is 0x00. -/
  | reservedOp
  /-- The function code is not assigned. -/
  | reservedFn
  /-- rm holds 0b111. -/
  | roundingMode
  /-- An operand number, type, format code or limit that the entry does not accept. -/
  | illegalOperand
  /-- A field that the entry does not use is nonzero. -/
  | unusedField
  /-- Bit 0 of a pair word is 1. -/
  | pairBit0
  /-- A register-form slot with bits [13:0] nonzero, or a `nop` slot with nonzero bits. -/
  | slotField
  /-- An immediate form that R44 does not give. -/
  | slotImmediate
  /-- Both slots are vector ops and break R45. -/
  | bankRule
  /-- Fewer than eight bytes are left. -/
  | shortBytes
deriving DecidableEq, Repr

/-- The code of an element type (R40). -/
def Ty.code : Ty → BitVec 4
  | .i8 => 0 | .i16 => 1 | .i32 => 2 | .i64 => 3 | .n8 => 4 | .n16 => 5 | .n32 => 6 | .n64 => 7
  | .f32 => 8 | .f16 => 9 | .bf16 => 10 | .e4m3 => 11 | .e5m2 => 12 | .e3m2 => 13 | .e2m3 => 14 | .e2m1 => 15

/-- The element type of a code (R40). -/
def Ty.ofCode (c : BitVec 4) : Ty :=
  match c.toNat with
  | 0 => .i8 | 1 => .i16 | 2 => .i32 | 3 => .i64 | 4 => .n8 | 5 => .n16 | 6 => .n32 | 7 => .n64
  | 8 => .f32 | 9 => .f16 | 10 => .bf16 | 11 => .e4m3 | 12 => .e5m2 | 13 => .e3m2 | 14 => .e2m3 | _ => .e2m1

/-- The code of a rounding mode (R23). -/
def Rm.code : Rm → BitVec 3
  | .rne => 0 | .rtz => 1 | .rdn => 2 | .rup => 3 | .rna => 4 | .rto => 5 | .dyn => 6

/-- The rounding mode of a code (R23); 0b111 is none. -/
def Rm.ofCode (c : BitVec 3) : Option Rm :=
  match c.toNat with
  | 0 => some .rne | 1 => some .rtz | 2 => some .rdn | 3 => some .rup | 4 => some .rna | 5 => some .rto
  | 6 => some .dyn
  | _ => none

/-- The body fields of a full-form word (R38). -/
structure Full where
  op : BitVec 7
  fn : BitVec 6
  d  : BitVec 6
  a  : BitVec 6
  b  : BitVec 6
  ls : BitVec 3
  q  : BitVec 3
  k  : BitVec 1
  rm : BitVec 3
  x  : BitVec 20
deriving DecidableEq, Repr

/-- The fields side by side, as R38 places them. -/
def Full.pack (f : Full) : BitVec 61 :=
  f.op ++ f.fn ++ f.d ++ f.a ++ f.b ++ f.ls ++ f.q ++ f.k ++ f.rm ++ f.x

/-- The fields read back (R38). -/
def Full.unpack (w : BitVec 61) : Full where
  op := w.extractLsb' 54 7
  fn := w.extractLsb' 48 6
  d  := w.extractLsb' 42 6
  a  := w.extractLsb' 36 6
  b  := w.extractLsb' 30 6
  ls := w.extractLsb' 27 3
  q  := w.extractLsb' 24 3
  k  := w.extractLsb' 23 1
  rm := w.extractLsb' 20 3
  x  := w.extractLsb' 0 20

/-- The i bit and the a/imm field of a compact slot (R43). -/
def CArg.bits : CArg → BitVec 20
  | .reg a => 0#1 ++ a ++ 0#14
  | .imm v => 1#1 ++ v

/-- The other operand of a compact slot (R43), before the check of the zero bits. -/
def CArg.ofBits (b : BitVec 20) : CArg :=
  if b.extractLsb' 19 1 == 0#1 then .reg (b.extractLsb' 14 5) else .imm (b.extractLsb' 0 19)

/-- Primary opcode 0x01 (R51). -/
def rawOp01 (f : Full) (_rm : Rm) : Except DecodeError Instr :=
  match f.fn.toNat with
  | 0 => .ok (.b f.x)
  | _ => .error .reservedFn

/-- Primary opcode 0x02 (R51). -/
def rawOp02 (f : Full) (_rm : Rm) : Except DecodeError Instr :=
  match f.fn.toNat with
  | 0 => .ok (.beq f.a f.b f.x)
  | 1 => .ok (.bne f.a f.b f.x)
  | 2 => .ok (.blt f.a f.b f.x)
  | 3 => .ok (.bge f.a f.b f.x)
  | 4 => .ok (.bltn f.a f.b f.x)
  | 5 => .ok (.bgen f.a f.b f.x)
  | _ => .error .reservedFn

/-- Primary opcode 0x03 (R51). -/
def rawOp03 (f : Full) (_rm : Rm) : Except DecodeError Instr :=
  match f.fn.toNat with
  | 0 => .ok (.bz f.a f.x)
  | 1 => .ok (.bnz f.a f.x)
  | _ => .error .reservedFn

/-- Primary opcode 0x04 (R51). -/
def rawOp04 (f : Full) (_rm : Rm) : Except DecodeError Instr :=
  match f.fn.toNat with
  | 0 => .ok (.jmp f.a)
  | 1 => .ok (.calli f.a)
  | 2 => .ok (.ret)
  | _ => .error .reservedFn

/-- Primary opcode 0x05 (R51). -/
def rawOp05 (f : Full) (_rm : Rm) : Except DecodeError Instr :=
  match f.fn.toNat with
  | 0 => .ok (.call f.x)
  | _ => .error .reservedFn

/-- Primary opcode 0x06 (R51). -/
def rawOp06 (f : Full) (_rm : Rm) : Except DecodeError Instr :=
  match f.fn.toNat with
  | 0 => .ok (.mwait f.d f.a f.b (f.x.extractLsb' 14 6))
  | 1 => .ok (.halt)
  | _ => .error .reservedFn

/-- Primary opcode 0x07 (R51). -/
def rawOp07 (f : Full) (_rm : Rm) : Except DecodeError Instr :=
  match f.fn.toNat with
  | 0 => .ok (.launch f.d f.a)
  | 1 => .ok (.glaunch f.d f.a)
  | _ => .error .reservedFn

/-- Primary opcode 0x08 (R51). -/
def rawOp08 (f : Full) (_rm : Rm) : Except DecodeError Instr :=
  match f.fn.toNat with
  | 0 => if f.x.extractLsb' 3 1 == 0#1 then .ok (.widGet f.d)
      else if f.x.extractLsb' 3 1 == 1#1 then .ok (.widGetField f.d (f.x.extractLsb' 0 3))
      else .error .illegalOperand
  | 1 => .ok (.barK (f.x.extractLsb' 0 3))
  | _ => .error .reservedFn

/-- Primary opcode 0x09 (R51). -/
def rawOp09 (f : Full) (_rm : Rm) : Except DecodeError Instr :=
  match f.fn.toNat with
  | 0 => .ok (.tmBind f.a f.b (f.x.extractLsb' 14 6) (f.x.extractLsb' 0 4))
  | 1 => .ok (.tmAdv f.a f.b (f.x.extractLsb' 0 4))
  | 2 => .ok (.tmRd f.d (f.x.extractLsb' 0 4))
  | _ => .error .reservedFn

/-- Primary opcode 0x0A (R51). -/
def rawOp0A (f : Full) (_rm : Rm) : Except DecodeError Instr :=
  match f.fn.toNat with
  | 0 => if f.x.extractLsb' 0 1 == 0#1 then .ok (.ldco f.d f.a f.b)
      else if f.x.extractLsb' 0 1 == 1#1 then .ok (.ldcoDrop f.d f.a)
      else .error .illegalOperand
  | _ => .error .reservedFn

/-- Primary opcode 0x0B (R51). -/
def rawOp0B (f : Full) (_rm : Rm) : Except DecodeError Instr :=
  match f.fn.toNat with
  | 0 => .ok (.trap f.x)
  | 1 => .ok (.sret)
  | _ => .error .reservedFn

/-- Primary opcode 0x0C (R51). -/
def rawOp0C (f : Full) (_rm : Rm) : Except DecodeError Instr :=
  match f.fn.toNat with
  | 0 => .ok (.ctxSave f.d f.a f.b)
  | 1 => .ok (.ctxLoad f.d f.a f.b)
  | _ => .error .reservedFn

/-- Primary opcode 0x0D (R51). -/
def rawOp0D (f : Full) (_rm : Rm) : Except DecodeError Instr :=
  match f.fn.toNat with
  | 0 => .ok (.erecRd f.d f.a (f.x.extractLsb' 0 3))
  | _ => .error .reservedFn

/-- Primary opcode 0x10 (R51). -/
def rawOp10 (f : Full) (_rm : Rm) : Except DecodeError Instr :=
  match f.fn.toNat with
  | 0 => .ok (.add f.d f.a f.b)
  | 1 => .ok (.sub f.d f.a f.b)
  | 2 => .ok (.mul f.d f.a f.b)
  | 3 => .ok (.mulh f.d f.a f.b)
  | 4 => .ok (.mulhn f.d f.a f.b)
  | 5 => .ok (.sAnd f.d f.a f.b)
  | 6 => .ok (.sOr f.d f.a f.b)
  | 7 => .ok (.sXor f.d f.a f.b)
  | 8 => .ok (.andn f.d f.a f.b)
  | 9 => .ok (.shl f.d f.a f.b)
  | 10 => .ok (.shr f.d f.a f.b)
  | 11 => .ok (.sra f.d f.a f.b)
  | 12 => .ok (.rol f.d f.a f.b)
  | 13 => .ok (.sMin f.d f.a f.b)
  | 14 => .ok (.sMax f.d f.a f.b)
  | 15 => .ok (.minn f.d f.a f.b)
  | 16 => .ok (.maxn f.d f.a f.b)
  | 17 => .ok (.slt f.d f.a f.b)
  | 18 => .ok (.sltn f.d f.a f.b)
  | 32 => .ok (.addi f.d f.a f.x)
  | 33 => .ok (.subi f.d f.a f.x)
  | 34 => .ok (.muli f.d f.a f.x)
  | 35 => .ok (.mulhi f.d f.a f.x)
  | 36 => .ok (.mulhni f.d f.a f.x)
  | 37 => .ok (.andi f.d f.a f.x)
  | 38 => .ok (.ori f.d f.a f.x)
  | 39 => .ok (.xori f.d f.a f.x)
  | 40 => .ok (.andni f.d f.a f.x)
  | 41 => .ok (.shli f.d f.a f.x)
  | 42 => .ok (.shri f.d f.a f.x)
  | 43 => .ok (.srai f.d f.a f.x)
  | 44 => .ok (.roli f.d f.a f.x)
  | 45 => .ok (.mini f.d f.a f.x)
  | 46 => .ok (.maxi f.d f.a f.x)
  | 47 => .ok (.minni f.d f.a f.x)
  | 48 => .ok (.maxni f.d f.a f.x)
  | 49 => .ok (.slti f.d f.a f.x)
  | 50 => .ok (.sltni f.d f.a f.x)
  | _ => .error .reservedFn

/-- Primary opcode 0x11 (R51). -/
def rawOp11 (f : Full) (_rm : Rm) : Except DecodeError Instr :=
  match f.fn.toNat with
  | 0 => .ok (.div f.d f.a f.b)
  | 1 => .ok (.divn f.d f.a f.b)
  | 2 => .ok (.rem f.d f.a f.b)
  | 3 => .ok (.remn f.d f.a f.b)
  | _ => .error .reservedFn

/-- Primary opcode 0x12 (R51). -/
def rawOp12 (f : Full) (_rm : Rm) : Except DecodeError Instr :=
  match f.fn.toNat with
  | 0 => .ok (.clz f.d f.a)
  | 1 => .ok (.ctz f.d f.a)
  | 2 => .ok (.popc f.d f.a)
  | _ => .error .reservedFn

/-- Primary opcode 0x13 (R51). -/
def rawOp13 (f : Full) (_rm : Rm) : Except DecodeError Instr :=
  match f.fn.toNat with
  | 0 => .ok (.sel f.d f.a f.b (f.x.extractLsb' 14 6))
  | _ => .error .reservedFn

/-- Primary opcode 0x14 (R51). -/
def rawOp14 (f : Full) (_rm : Rm) : Except DecodeError Instr :=
  match f.fn.toNat with
  | 0 => .ok (.li f.d f.x)
  | 1 => .ok (.lui f.d f.x)
  | _ => .error .reservedFn

/-- Primary opcode 0x15 (R51). -/
def rawOp15 (f : Full) (_rm : Rm) : Except DecodeError Instr :=
  match f.fn.toNat with
  | 0 => .ok (.adr f.d f.x)
  | 1 => .ok (.lsa f.d f.a f.b (f.x.extractLsb' 0 2))
  | _ => .error .reservedFn

/-- Primary opcode 0x16 (R51). -/
def rawOp16 (f : Full) (_rm : Rm) : Except DecodeError Instr :=
  match f.fn.toNat with
  | 0 => if f.x.extractLsb' 6 1 == 0#1 then .ok (.ext f.d f.a (f.x.extractLsb' 14 6) (f.x.extractLsb' 0 6))
      else if f.x.extractLsb' 6 1 == 1#1 then .ok (.extS f.d f.a (f.x.extractLsb' 14 6) (f.x.extractLsb' 0 6))
      else .error .illegalOperand
  | 1 => .ok (.ins f.d f.a (f.x.extractLsb' 14 6) (f.x.extractLsb' 0 6))
  | _ => .error .reservedFn

/-- Primary opcode 0x17 (R51). -/
def rawOp17 (f : Full) (_rm : Rm) : Except DecodeError Instr :=
  match f.fn.toNat with
  | 0 => .ok (.frame (f.x.extractLsb' 0 6))
  | _ => .error .reservedFn

/-- Primary opcode 0x20 (R51). -/
def rawOp20 (f : Full) (rm : Rm) : Except DecodeError Instr :=
  match f.fn.toNat with
  | 0 => .ok (.faddS f.d f.a f.b rm)
  | 1 => .ok (.fsubS f.d f.a f.b rm)
  | 2 => .ok (.fmulS f.d f.a f.b rm)
  | 3 => .ok (.ffmaS f.d f.a f.b rm (f.x.extractLsb' 14 6))
  | 4 => .ok (.fdivS f.d f.a f.b rm)
  | 5 => .ok (.fsqrtS f.d f.a rm)
  | _ => .error .reservedFn

/-- Primary opcode 0x21 (R51). -/
def rawOp21 (f : Full) (_rm : Rm) : Except DecodeError Instr :=
  match f.fn.toNat with
  | 0 => .ok (.fcmpSEq f.d f.a f.b)
  | 1 => .ok (.fcmpSLt f.d f.a f.b)
  | 2 => .ok (.fcmpSLe f.d f.a f.b)
  | 3 => .ok (.fcmpSUn f.d f.a f.b)
  | _ => .error .reservedFn

/-- Primary opcode 0x22 (R51). -/
def rawOp22 (f : Full) (rm : Rm) : Except DecodeError Instr :=
  match f.fn.toNat with
  | 0 => .ok (.fcvtSFi f.d f.a rm)
  | 1 => .ok (.fcvtSFn f.d f.a rm)
  | 2 => .ok (.fcvtSIf f.d f.a rm)
  | 3 => .ok (.fcvtSNf f.d f.a rm)
  | _ => .error .reservedFn

/-- Primary opcode 0x23 (R51). -/
def rawOp23 (f : Full) (_rm : Rm) : Except DecodeError Instr :=
  match f.fn.toNat with
  | 0 => .ok (.mfs f.d (f.x.extractLsb' 0 12))
  | 1 => match Wf.mts (f.x.extractLsb' 0 12) with
      | .plain => .ok (.mts f.a (f.x.extractLsb' 0 12))
      | .mvl => .ok (.mvlWrite f.a (f.x.extractLsb' 0 12))
      | .tshape => .ok (.tshapeWrite f.a (f.x.extractLsb' 0 12))
      | .dly => .ok (.dlymodeClr f.a (f.x.extractLsb' 0 12))
      | .efq => .ok (.efqWrite f.a (f.x.extractLsb' 0 12))
  | _ => .error .reservedFn

/-- Primary opcode 0x28 (R51). -/
def rawOp28 (f : Full) (_rm : Rm) : Except DecodeError Instr :=
  match f.fn.toNat with
  | 0 => .ok (.vsetl f.d f.a (Ty.ofCode (f.x.extractLsb' 10 4)))
  | 1 => .ok (.vrel)
  | _ => .error .reservedFn

/-- Primary opcode 0x29 (R51). -/
def rawOp29 (f : Full) (_rm : Rm) : Except DecodeError Instr :=
  match f.fn.toNat with
  | 0 => .ok (.vspill ⟨f.ls, f.q, f.k⟩ f.a f.b (Ty.ofCode (f.x.extractLsb' 10 4)) (f.x.extractLsb' 0 9))
  | 1 => .ok (.vfill f.d f.a (Ty.ofCode (f.x.extractLsb' 10 4)) (f.x.extractLsb' 0 9))
  | _ => .error .reservedFn

/-- Primary opcode 0x2A (R51). -/
def rawOp2A (f : Full) (_rm : Rm) : Except DecodeError Instr :=
  match f.fn.toNat with
  | 0 => .ok (.vadd ⟨f.ls, f.q, f.k⟩ f.d f.a f.b (Ty.ofCode (f.x.extractLsb' 10 4)) (f.x.extractLsb' 9 1))
  | 1 => .ok (.vsub ⟨f.ls, f.q, f.k⟩ f.d f.a f.b (Ty.ofCode (f.x.extractLsb' 10 4)) (f.x.extractLsb' 9 1))
  | 2 => .ok (.vmul ⟨f.ls, f.q, f.k⟩ f.d f.a f.b (Ty.ofCode (f.x.extractLsb' 10 4)) (f.x.extractLsb' 9 1))
  | 3 => .ok (.vmulh ⟨f.ls, f.q, f.k⟩ f.d f.a f.b (Ty.ofCode (f.x.extractLsb' 10 4)))
  | 4 => .ok (.vmin ⟨f.ls, f.q, f.k⟩ f.d f.a f.b (Ty.ofCode (f.x.extractLsb' 10 4)))
  | 5 => .ok (.vmax ⟨f.ls, f.q, f.k⟩ f.d f.a f.b (Ty.ofCode (f.x.extractLsb' 10 4)))
  | _ => .error .reservedFn

/-- Primary opcode 0x2B (R51). -/
def rawOp2B (f : Full) (_rm : Rm) : Except DecodeError Instr :=
  match f.fn.toNat with
  | 0 => .ok (.vand ⟨f.ls, f.q, f.k⟩ f.d f.a f.b (Ty.ofCode (f.x.extractLsb' 10 4)))
  | 1 => .ok (.vor ⟨f.ls, f.q, f.k⟩ f.d f.a f.b (Ty.ofCode (f.x.extractLsb' 10 4)))
  | 2 => .ok (.vxor ⟨f.ls, f.q, f.k⟩ f.d f.a f.b (Ty.ofCode (f.x.extractLsb' 10 4)))
  | 3 => .ok (.vshl ⟨f.ls, f.q, f.k⟩ f.d f.a f.b (Ty.ofCode (f.x.extractLsb' 10 4)))
  | 4 => .ok (.vshr ⟨f.ls, f.q, f.k⟩ f.d f.a f.b (Ty.ofCode (f.x.extractLsb' 10 4)))
  | 5 => .ok (.vsra ⟨f.ls, f.q, f.k⟩ f.d f.a f.b (Ty.ofCode (f.x.extractLsb' 10 4)))
  | _ => .error .reservedFn

/-- Primary opcode 0x2C (R51). -/
def rawOp2C (f : Full) (_rm : Rm) : Except DecodeError Instr :=
  match f.fn.toNat with
  | 0 => .ok (.vcmpEq ⟨f.ls, f.q, f.k⟩ f.d f.a f.b (Ty.ofCode (f.x.extractLsb' 10 4)))
  | 1 => .ok (.vcmpNe ⟨f.ls, f.q, f.k⟩ f.d f.a f.b (Ty.ofCode (f.x.extractLsb' 10 4)))
  | 2 => .ok (.vcmpLt ⟨f.ls, f.q, f.k⟩ f.d f.a f.b (Ty.ofCode (f.x.extractLsb' 10 4)))
  | 3 => .ok (.vcmpLe ⟨f.ls, f.q, f.k⟩ f.d f.a f.b (Ty.ofCode (f.x.extractLsb' 10 4)))
  | _ => .error .reservedFn

/-- Primary opcode 0x2D (R51). -/
def rawOp2D (f : Full) (rm : Rm) : Except DecodeError Instr :=
  match f.fn.toNat with
  | 0 => .ok (.vwadd ⟨f.ls, f.q, f.k⟩ f.d f.a f.b rm (Ty.ofCode (f.x.extractLsb' 10 4)) (f.x.extractLsb' 0 2))
  | 1 => .ok (.vwmul ⟨f.ls, f.q, f.k⟩ f.d f.a f.b rm (Ty.ofCode (f.x.extractLsb' 10 4)) (f.x.extractLsb' 0 2))
  | 2 => .ok (.vwmac ⟨f.ls, f.q, f.k⟩ f.d f.a f.b rm (f.x.extractLsb' 14 6) (Ty.ofCode (f.x.extractLsb' 10 4)) (f.x.extractLsb' 9 1) (f.x.extractLsb' 0 2))
  | _ => .error .reservedFn

/-- Primary opcode 0x2E (R51). -/
def rawOp2E (f : Full) (_rm : Rm) : Except DecodeError Instr :=
  match f.fn.toNat with
  | 0 => .ok (.vmov ⟨f.ls, f.q, f.k⟩ f.d f.a (Ty.ofCode (f.x.extractLsb' 10 4)))
  | 1 => .ok (.vid ⟨f.ls, f.q, f.k⟩ f.d (Ty.ofCode (f.x.extractLsb' 10 4)))
  | 2 => .ok (.vsel ⟨f.ls, f.q, f.k⟩ f.d f.a f.b (Ty.ofCode (f.x.extractLsb' 10 4)))
  | _ => .error .reservedFn

/-- Primary opcode 0x2F (R51). -/
def rawOp2F (f : Full) (_rm : Rm) : Except DecodeError Instr :=
  match f.fn.toNat with
  | 0 => .ok (.vdup ⟨f.ls, f.q, f.k⟩ f.d f.a f.b (Ty.ofCode (f.x.extractLsb' 10 4)))
  | _ => .error .reservedFn

/-- Primary opcode 0x30 (R51). -/
def rawOp30 (f : Full) (_rm : Rm) : Except DecodeError Instr :=
  match f.fn.toNat with
  | 0 => .ok (.vperm ⟨f.ls, f.q, f.k⟩ f.d f.a f.b (Ty.ofCode (f.x.extractLsb' 10 4)))
  | 1 => .ok (.vslup ⟨f.ls, f.q, f.k⟩ f.d f.a f.b (Ty.ofCode (f.x.extractLsb' 10 4)))
  | 2 => .ok (.vsldn ⟨f.ls, f.q, f.k⟩ f.d f.a f.b (Ty.ofCode (f.x.extractLsb' 10 4)))
  | 3 => .ok (.vcmprs ⟨f.ls, f.q, f.k⟩ f.d f.a (Ty.ofCode (f.x.extractLsb' 10 4)))
  | 4 => .ok (.vexpnd ⟨f.ls, f.q, f.k⟩ f.d f.a (Ty.ofCode (f.x.extractLsb' 10 4)))
  | _ => .error .reservedFn

/-- Primary opcode 0x31 (R51). -/
def rawOp31 (f : Full) (_rm : Rm) : Except DecodeError Instr :=
  match f.fn.toNat with
  | 0 => .ok (.qand ⟨f.ls, f.q, f.k⟩ f.d f.a f.b)
  | 1 => .ok (.qor ⟨f.ls, f.q, f.k⟩ f.d f.a f.b)
  | 2 => .ok (.qxor ⟨f.ls, f.q, f.k⟩ f.d f.a f.b)
  | 3 => .ok (.qnot ⟨f.ls, f.q, f.k⟩ f.d f.a)
  | 4 => .ok (.qpopc ⟨f.ls, f.q, f.k⟩ f.d f.a)
  | 5 => .ok (.qfirst ⟨f.ls, f.q, f.k⟩ f.d f.a)
  | _ => .error .reservedFn

/-- Primary opcode 0x32 (R51). -/
def rawOp32 (f : Full) (_rm : Rm) : Except DecodeError Instr :=
  match f.fn.toNat with
  | 0 => .ok (.vbmand ⟨f.ls, f.q, f.k⟩ f.d f.a f.b (Ty.ofCode (f.x.extractLsb' 10 4)))
  | 1 => .ok (.vbpfx ⟨f.ls, f.q, f.k⟩ f.d f.a (Ty.ofCode (f.x.extractLsb' 10 4)))
  | 2 => .ok (.vxsect ⟨f.ls, f.q, f.k⟩ f.d f.a f.b (Ty.ofCode (f.x.extractLsb' 10 4)))
  | _ => .error .reservedFn

/-- Primary opcode 0x33 (R51). -/
def rawOp33 (f : Full) (_rm : Rm) : Except DecodeError Instr :=
  match f.fn.toNat with
  | 0 => .ok (.vconf ⟨f.ls, f.q, f.k⟩ f.d f.a (Ty.ofCode (f.x.extractLsb' 10 4)) (f.x.extractLsb' 0 3))
  | _ => .error .reservedFn

/-- Primary opcode 0x40 (R51). -/
def rawOp40 (f : Full) (rm : Rm) : Except DecodeError Instr :=
  match f.fn.toNat with
  | 0 => .ok (.vfadd ⟨f.ls, f.q, f.k⟩ f.d f.a f.b rm (Ty.ofCode (f.x.extractLsb' 10 4)))
  | 1 => .ok (.vfsub ⟨f.ls, f.q, f.k⟩ f.d f.a f.b rm (Ty.ofCode (f.x.extractLsb' 10 4)))
  | 2 => .ok (.vfmul ⟨f.ls, f.q, f.k⟩ f.d f.a f.b rm (Ty.ofCode (f.x.extractLsb' 10 4)))
  | 3 => .ok (.vfmin ⟨f.ls, f.q, f.k⟩ f.d f.a f.b (Ty.ofCode (f.x.extractLsb' 10 4)))
  | 4 => .ok (.vfmax ⟨f.ls, f.q, f.k⟩ f.d f.a f.b (Ty.ofCode (f.x.extractLsb' 10 4)))
  | _ => .error .reservedFn

/-- Primary opcode 0x41 (R51). -/
def rawOp41 (f : Full) (rm : Rm) : Except DecodeError Instr :=
  match f.fn.toNat with
  | 0 => .ok (.vfma ⟨f.ls, f.q, f.k⟩ f.d f.a f.b rm (f.x.extractLsb' 14 6) (Ty.ofCode (f.x.extractLsb' 10 4)))
  | 1 => .ok (.vfms ⟨f.ls, f.q, f.k⟩ f.d f.a f.b rm (f.x.extractLsb' 14 6) (Ty.ofCode (f.x.extractLsb' 10 4)))
  | 2 => .ok (.vfnma ⟨f.ls, f.q, f.k⟩ f.d f.a f.b rm (f.x.extractLsb' 14 6) (Ty.ofCode (f.x.extractLsb' 10 4)))
  | _ => .error .reservedFn

/-- Primary opcode 0x42 (R51). -/
def rawOp42 (f : Full) (rm : Rm) : Except DecodeError Instr :=
  match f.fn.toNat with
  | 0 => .ok (.vfdiv ⟨f.ls, f.q, f.k⟩ f.d f.a f.b rm (Ty.ofCode (f.x.extractLsb' 10 4)))
  | 1 => .ok (.vfsqrt ⟨f.ls, f.q, f.k⟩ f.d f.a rm (Ty.ofCode (f.x.extractLsb' 10 4)))
  | 2 => .ok (.vrcp ⟨f.ls, f.q, f.k⟩ f.d f.a rm (Ty.ofCode (f.x.extractLsb' 10 4)))
  | 3 => .ok (.vrsqrt ⟨f.ls, f.q, f.k⟩ f.d f.a rm (Ty.ofCode (f.x.extractLsb' 10 4)))
  | 4 => .ok (.vexp2 ⟨f.ls, f.q, f.k⟩ f.d f.a rm (Ty.ofCode (f.x.extractLsb' 10 4)))
  | _ => .error .reservedFn

/-- Primary opcode 0x43 (R51). -/
def rawOp43 (f : Full) (_rm : Rm) : Except DecodeError Instr :=
  match f.fn.toNat with
  | 0 => .ok (.vfcmpEq ⟨f.ls, f.q, f.k⟩ f.d f.a f.b (Ty.ofCode (f.x.extractLsb' 10 4)))
  | 1 => .ok (.vfcmpLt ⟨f.ls, f.q, f.k⟩ f.d f.a f.b (Ty.ofCode (f.x.extractLsb' 10 4)))
  | 2 => .ok (.vfcmpLe ⟨f.ls, f.q, f.k⟩ f.d f.a f.b (Ty.ofCode (f.x.extractLsb' 10 4)))
  | 3 => .ok (.vfcmpUn ⟨f.ls, f.q, f.k⟩ f.d f.a f.b (Ty.ofCode (f.x.extractLsb' 10 4)))
  | _ => .error .reservedFn

/-- Primary opcode 0x44 (R51). -/
def rawOp44 (f : Full) (rm : Rm) : Except DecodeError Instr :=
  match f.fn.toNat with
  | 0 => .ok (.vredoAdd ⟨f.ls, f.q, f.k⟩ f.d f.a f.b rm (Ty.ofCode (f.x.extractLsb' 10 4)) (f.x.extractLsb' 9 1))
  | 1 => .ok (.vredoMin ⟨f.ls, f.q, f.k⟩ f.d f.a f.b (Ty.ofCode (f.x.extractLsb' 10 4)))
  | 2 => .ok (.vredoMax ⟨f.ls, f.q, f.k⟩ f.d f.a f.b (Ty.ofCode (f.x.extractLsb' 10 4)))
  | 3 => .ok (.vredoAnd ⟨f.ls, f.q, f.k⟩ f.d f.a f.b (Ty.ofCode (f.x.extractLsb' 10 4)))
  | 4 => .ok (.vredoOr ⟨f.ls, f.q, f.k⟩ f.d f.a f.b (Ty.ofCode (f.x.extractLsb' 10 4)))
  | 5 => .ok (.vredoXor ⟨f.ls, f.q, f.k⟩ f.d f.a f.b (Ty.ofCode (f.x.extractLsb' 10 4)))
  | _ => .error .reservedFn

/-- Primary opcode 0x45 (R51). -/
def rawOp45 (f : Full) (rm : Rm) : Except DecodeError Instr :=
  match f.fn.toNat with
  | 0 => .ok (.vredtAdd ⟨f.ls, f.q, f.k⟩ f.d f.a f.b rm (Ty.ofCode (f.x.extractLsb' 10 4)) (f.x.extractLsb' 9 1))
  | 1 => .ok (.vredtMin ⟨f.ls, f.q, f.k⟩ f.d f.a f.b (Ty.ofCode (f.x.extractLsb' 10 4)))
  | 2 => .ok (.vredtMax ⟨f.ls, f.q, f.k⟩ f.d f.a f.b (Ty.ofCode (f.x.extractLsb' 10 4)))
  | 3 => .ok (.vredtAnd ⟨f.ls, f.q, f.k⟩ f.d f.a f.b (Ty.ofCode (f.x.extractLsb' 10 4)))
  | 4 => .ok (.vredtOr ⟨f.ls, f.q, f.k⟩ f.d f.a f.b (Ty.ofCode (f.x.extractLsb' 10 4)))
  | 5 => .ok (.vredtXor ⟨f.ls, f.q, f.k⟩ f.d f.a f.b (Ty.ofCode (f.x.extractLsb' 10 4)))
  | _ => .error .reservedFn

/-- Primary opcode 0x46 (R51). -/
def rawOp46 (f : Full) (rm : Rm) : Except DecodeError Instr :=
  match f.fn.toNat with
  | 0 => .ok (.vscanAdd ⟨f.ls, f.q, f.k⟩ f.d f.a f.b rm (Ty.ofCode (f.x.extractLsb' 10 4)) (f.x.extractLsb' 9 1))
  | 1 => .ok (.vscanMin ⟨f.ls, f.q, f.k⟩ f.d f.a f.b (Ty.ofCode (f.x.extractLsb' 10 4)))
  | 2 => .ok (.vscanMax ⟨f.ls, f.q, f.k⟩ f.d f.a f.b (Ty.ofCode (f.x.extractLsb' 10 4)))
  | 3 => .ok (.vscanAnd ⟨f.ls, f.q, f.k⟩ f.d f.a f.b (Ty.ofCode (f.x.extractLsb' 10 4)))
  | 4 => .ok (.vscanOr ⟨f.ls, f.q, f.k⟩ f.d f.a f.b (Ty.ofCode (f.x.extractLsb' 10 4)))
  | 5 => .ok (.vscanXor ⟨f.ls, f.q, f.k⟩ f.d f.a f.b (Ty.ofCode (f.x.extractLsb' 10 4)))
  | _ => .error .reservedFn

/-- Primary opcode 0x50 (R51). -/
def rawOp50 (f : Full) (_rm : Rm) : Except DecodeError Instr :=
  match f.fn.toNat with
  | 0 => .ok (.fmtSet f.d f.a)
  | 1 => .ok (.tidBind f.d f.a)
  | 2 => .ok (.tidRd f.d f.a (f.x.extractLsb' 0 3))
  | _ => .error .reservedFn

/-- Primary opcode 0x51 (R51). -/
def rawOp51 (f : Full) (rm : Rm) : Except DecodeError Instr :=
  match f.fn.toNat with
  | 0 => if f.x.extractLsb' 2 1 == 0#1 then .ok (.vcvtTo ⟨f.ls, f.q, f.k⟩ f.d f.a rm (Ty.ofCode (f.x.extractLsb' 10 4)) (f.x.extractLsb' 9 1) (f.x.extractLsb' 3 6))
      else if f.x.extractLsb' 2 1 == 1#1 then .ok (.vcvtFrom ⟨f.ls, f.q, f.k⟩ f.d f.a rm (Ty.ofCode (f.x.extractLsb' 10 4)) (f.x.extractLsb' 9 1) (f.x.extractLsb' 3 6))
      else .error .illegalOperand
  | 1 => .ok (.vpack ⟨f.ls, f.q, f.k⟩ f.d f.a (Ty.ofCode (f.x.extractLsb' 10 4)) (f.x.extractLsb' 3 6))
  | 2 => .ok (.vunpk ⟨f.ls, f.q, f.k⟩ f.d f.a (Ty.ofCode (f.x.extractLsb' 10 4)) (f.x.extractLsb' 3 6))
  | 3 => .ok (.vscl ⟨f.ls, f.q, f.k⟩ f.d f.a f.b rm (Ty.ofCode (f.x.extractLsb' 10 4)) (f.x.extractLsb' 9 1) (f.x.extractLsb' 3 6))
  | 4 => .ok (.vquant ⟨f.ls, f.q, f.k⟩ f.d f.a f.b rm (Ty.ofCode (f.x.extractLsb' 10 4)) (f.x.extractLsb' 3 6))
  | _ => .error .reservedFn

/-- Primary opcode 0x58 (R51). -/
def rawOp58 (f : Full) (_rm : Rm) : Except DecodeError Instr :=
  match f.fn.toNat with
  | 0 => .ok (.tld f.d f.a f.b (f.x.extractLsb' 14 6))
  | 1 => .ok (.tldt f.d f.a f.b (f.x.extractLsb' 14 6))
  | 2 => .ok (.tst f.d f.a f.b (f.x.extractLsb' 14 6))
  | 3 => .ok (.tzero f.d f.a)
  | _ => .error .reservedFn

/-- Primary opcode 0x59 (R51). -/
def rawOp59 (f : Full) (_rm : Rm) : Except DecodeError Instr :=
  match f.fn.toNat with
  | 0 => .ok (.tlatch f.a f.b)
  | _ => .error .reservedFn

/-- Primary opcode 0x5A (R51). -/
def rawOp5A (f : Full) (_rm : Rm) : Except DecodeError Instr :=
  match f.fn.toNat with
  | 0 => .ok (.mmr ⟨f.ls, f.q, f.k⟩ f.d f.a f.b (f.x.extractLsb' 3 1))
  | 1 => .ok (.mmrT ⟨f.ls, f.q, f.k⟩ f.d f.a f.b (f.x.extractLsb' 14 6) (f.x.extractLsb' 3 1))
  | 2 => .ok (.mmrRep ⟨f.ls, f.q, f.k⟩ f.d f.a f.b (f.x.extractLsb' 3 1) (f.x.extractLsb' 0 3))
  | 3 => .ok (.mmrSk ⟨f.ls, f.q, f.k⟩ f.d f.a f.b (f.x.extractLsb' 14 6) (f.x.extractLsb' 3 1))
  | _ => .error .reservedFn

/-- Primary opcode 0x60 (R51). -/
def rawOp60 (f : Full) (_rm : Rm) : Except DecodeError Instr :=
  match f.fn.toNat with
  | 0 => .ok (.rnew f.d f.a f.b (f.x.extractLsb' 1 1))
  | 1 => .ok (.rcut f.d f.a f.b (f.x.extractLsb' 1 1) (f.x.extractLsb' 0 1))
  | 2 => .ok (.rsplc f.d f.a f.b)
  | 3 => .ok (.rfree f.a)
  | _ => .error .reservedFn

/-- Primary opcode 0x61 (R51). -/
def rawOp61 (f : Full) (_rm : Rm) : Except DecodeError Instr :=
  match f.fn.toNat with
  | 0 => .ok (.hmov f.d f.a f.b)
  | 1 => .ok (.hinfo f.d f.a (f.x.extractLsb' 0 2))
  | _ => .error .reservedFn

/-- Primary opcode 0x62 (R51). -/
def rawOp62 (f : Full) (_rm : Rm) : Except DecodeError Instr :=
  match f.fn.toNat with
  | 0 => .ok (.rld ⟨f.ls, f.q, f.k⟩ f.d f.a f.b)
  | 1 => .ok (.rst ⟨f.ls, f.q, f.k⟩ f.a f.b (f.x.extractLsb' 14 6))
  | _ => .error .reservedFn

/-- Primary opcode 0x64 (R51). -/
def rawOp64 (f : Full) (_rm : Rm) : Except DecodeError Instr :=
  match f.fn.toNat with
  | 0 => .ok (.ldI8 f.d f.a f.x)
  | 1 => .ok (.ldI16 f.d f.a f.x)
  | 2 => .ok (.ldI32 f.d f.a f.x)
  | 3 => .ok (.ldI64 f.d f.a f.x)
  | 4 => .ok (.ldN8 f.d f.a f.x)
  | 5 => .ok (.ldN16 f.d f.a f.x)
  | 6 => .ok (.ldN32 f.d f.a f.x)
  | _ => .error .reservedFn

/-- Primary opcode 0x65 (R51). -/
def rawOp65 (f : Full) (_rm : Rm) : Except DecodeError Instr :=
  match f.fn.toNat with
  | 0 => .ok (.st8 f.d f.a f.x)
  | 1 => .ok (.st16 f.d f.a f.x)
  | 2 => .ok (.st32 f.d f.a f.x)
  | 3 => .ok (.st64 f.d f.a f.x)
  | _ => .error .reservedFn

/-- Primary opcode 0x66 (R51). -/
def rawOp66 (f : Full) (rm : Rm) : Except DecodeError Instr :=
  match f.fn.toNat with
  | 0 => .ok (.vld ⟨f.ls, f.q, f.k⟩ f.d f.a f.b rm (Ty.ofCode (f.x.extractLsb' 10 4)) (f.x.extractLsb' 9 1) (f.x.extractLsb' 8 1) (f.x.extractLsb' 0 8))
  | 1 => .ok (.vst ⟨f.ls, f.q, f.k⟩ f.a f.b (f.x.extractLsb' 14 6) (Ty.ofCode (f.x.extractLsb' 10 4)) (f.x.extractLsb' 8 1) (f.x.extractLsb' 0 8))
  | 2 => .ok (.vlds ⟨f.ls, f.q, f.k⟩ f.d f.a f.b (Ty.ofCode (f.x.extractLsb' 10 4)) (f.x.extractLsb' 0 8))
  | 3 => .ok (.vsts ⟨f.ls, f.q, f.k⟩ f.a f.b (f.x.extractLsb' 14 6) (Ty.ofCode (f.x.extractLsb' 10 4)) (f.x.extractLsb' 0 8))
  | _ => .error .reservedFn

/-- Primary opcode 0x67 (R51). -/
def rawOp67 (f : Full) (rm : Rm) : Except DecodeError Instr :=
  match f.fn.toNat with
  | 0 => .ok (.vgat ⟨f.ls, f.q, f.k⟩ f.d f.a f.b rm (Ty.ofCode (f.x.extractLsb' 10 4)) (f.x.extractLsb' 9 1) (f.x.extractLsb' 7 2) (f.x.extractLsb' 0 2))
  | 1 => .ok (.vsca ⟨f.ls, f.q, f.k⟩ f.a f.b (f.x.extractLsb' 14 6) (Ty.ofCode (f.x.extractLsb' 10 4)) (f.x.extractLsb' 7 2) (f.x.extractLsb' 0 2))
  | _ => .error .reservedFn

/-- Primary opcode 0x68 (R51). -/
def rawOp68 (f : Full) (rm : Rm) : Except DecodeError Instr :=
  match f.fn.toNat with
  | 0 => .ok (.vgpool ⟨f.ls, f.q, f.k⟩ f.d f.a f.b rm (f.x.extractLsb' 14 6) (Ty.ofCode (f.x.extractLsb' 10 4)) (f.x.extractLsb' 9 1) (f.x.extractLsb' 7 2) (f.x.extractLsb' 0 2))
  | 1 => .ok (.vsadd ⟨f.ls, f.q, f.k⟩ f.a f.b (f.x.extractLsb' 14 6) (Ty.ofCode (f.x.extractLsb' 10 4)) (f.x.extractLsb' 9 1) (f.x.extractLsb' 7 2) (f.x.extractLsb' 0 2))
  | _ => .error .reservedFn

/-- Primary opcode 0x69 (R51). -/
def rawOp69 (f : Full) (_rm : Rm) : Except DecodeError Instr :=
  match f.fn.toNat with
  | 0 => if f.x.extractLsb' 0 2 == 0#2 then .ok (.tcopy f.d f.a f.b (f.x.extractLsb' 14 6))
      else if f.x.extractLsb' 0 2 == 1#2 then .ok (.tcopyMig f.d f.a f.b)
      else if f.x.extractLsb' 0 2 == 2#2 then .ok (.tcopyRes f.d f.a)
      else .error .illegalOperand
  | _ => .error .reservedFn

/-- Primary opcode 0x6A (R51). -/
def rawOp6A (f : Full) (_rm : Rm) : Except DecodeError Instr :=
  match f.fn.toNat with
  | 0 => .ok (.slabGrow f.d f.a f.b)
  | 1 => .ok (.smapSet f.d f.a f.b)
  | 2 => .ok (.smapInv f.d f.a f.b)
  | _ => .error .reservedFn

/-- Primary opcode 0x6B (R51). -/
def rawOp6B (f : Full) (_rm : Rm) : Except DecodeError Instr :=
  match f.fn.toNat with
  | 0 => .ok (.bankMode f.d f.a f.b)
  | _ => .error .reservedFn

/-- Primary opcode 0x6C (R51). -/
def rawOp6C (f : Full) (_rm : Rm) : Except DecodeError Instr :=
  match f.fn.toNat with
  | 0 => if f.x.extractLsb' 0 2 == 0#2 then .ok (.tlbinvPg f.a f.b)
      else if f.x.extractLsb' 0 2 == 1#2 then .ok (.tlbinvAs f.a)
      else if f.x.extractLsb' 0 2 == 2#2 then .ok (.tlbinvAll)
      else .error .illegalOperand
  | 1 => .ok (.pprobe f.d f.a)
  | _ => .error .reservedFn

/-- Primary opcode 0x6D (R51). -/
def rawOp6D (f : Full) (_rm : Rm) : Except DecodeError Instr :=
  match f.fn.toNat with
  | 0 => if f.x.extractLsb' 0 2 == 0#2 then .ok (.asidSwSet f.a)
      else if f.x.extractLsb' 0 2 == 1#2 then .ok (.asidSwBind f.d f.a f.b)
      else if f.x.extractLsb' 0 2 == 2#2 then .ok (.asidSwDrop f.d f.a)
      else .error .illegalOperand
  | _ => .error .reservedFn

/-- Primary opcode 0x70 (R51). -/
def rawOp70 (f : Full) (_rm : Rm) : Except DecodeError Instr :=
  match f.fn.toNat with
  | 0 => .ok (.amoSwap f.d f.a f.b (Ty.ofCode (f.x.extractLsb' 10 4)) (f.x.extractLsb' 0 2))
  | 1 => .ok (.amoCas f.d f.a f.b (f.x.extractLsb' 14 6) (Ty.ofCode (f.x.extractLsb' 10 4)) (f.x.extractLsb' 0 2))
  | 2 => .ok (.amoAdd f.d f.a f.b (Ty.ofCode (f.x.extractLsb' 10 4)) (f.x.extractLsb' 0 2))
  | 3 => .ok (.amoFadd f.d f.a f.b (Ty.ofCode (f.x.extractLsb' 10 4)) (f.x.extractLsb' 0 2))
  | 4 => .ok (.amoAnd f.d f.a f.b (Ty.ofCode (f.x.extractLsb' 10 4)) (f.x.extractLsb' 0 2))
  | 5 => .ok (.amoOr f.d f.a f.b (Ty.ofCode (f.x.extractLsb' 10 4)) (f.x.extractLsb' 0 2))
  | 6 => .ok (.amoXor f.d f.a f.b (Ty.ofCode (f.x.extractLsb' 10 4)) (f.x.extractLsb' 0 2))
  | 7 => .ok (.amoMin f.d f.a f.b (Ty.ofCode (f.x.extractLsb' 10 4)) (f.x.extractLsb' 0 2))
  | 8 => .ok (.amoMax f.d f.a f.b (Ty.ofCode (f.x.extractLsb' 10 4)) (f.x.extractLsb' 0 2))
  | 9 => .ok (.amoMinn f.d f.a f.b (Ty.ofCode (f.x.extractLsb' 10 4)) (f.x.extractLsb' 0 2))
  | 10 => .ok (.amoMaxn f.d f.a f.b (Ty.ofCode (f.x.extractLsb' 10 4)) (f.x.extractLsb' 0 2))
  | _ => .error .reservedFn

/-- Primary opcode 0x71 (R51). -/
def rawOp71 (f : Full) (_rm : Rm) : Except DecodeError Instr :=
  match f.fn.toNat with
  | 0 => .ok (.vamoSwap ⟨f.ls, f.q, f.k⟩ f.d f.a f.b (f.x.extractLsb' 14 6) (Ty.ofCode (f.x.extractLsb' 10 4)) (f.x.extractLsb' 7 2) (f.x.extractLsb' 6 1) (f.x.extractLsb' 4 2) (f.x.extractLsb' 0 2))
  | 1 => .ok (.vamoCas ⟨f.ls, f.q, f.k⟩ f.d f.a f.b (f.x.extractLsb' 14 6) (Ty.ofCode (f.x.extractLsb' 10 4)) (f.x.extractLsb' 7 2) (f.x.extractLsb' 6 1) (f.x.extractLsb' 4 2) (f.x.extractLsb' 0 2))
  | 2 => .ok (.vamoAdd ⟨f.ls, f.q, f.k⟩ f.d f.a f.b (f.x.extractLsb' 14 6) (Ty.ofCode (f.x.extractLsb' 10 4)) (f.x.extractLsb' 7 2) (f.x.extractLsb' 6 1) (f.x.extractLsb' 4 2) (f.x.extractLsb' 0 2))
  | 3 => .ok (.vamoFadd ⟨f.ls, f.q, f.k⟩ f.d f.a f.b (f.x.extractLsb' 14 6) (Ty.ofCode (f.x.extractLsb' 10 4)) (f.x.extractLsb' 7 2) (f.x.extractLsb' 6 1) (f.x.extractLsb' 4 2) (f.x.extractLsb' 0 2))
  | 4 => .ok (.vamoAnd ⟨f.ls, f.q, f.k⟩ f.d f.a f.b (f.x.extractLsb' 14 6) (Ty.ofCode (f.x.extractLsb' 10 4)) (f.x.extractLsb' 7 2) (f.x.extractLsb' 6 1) (f.x.extractLsb' 4 2) (f.x.extractLsb' 0 2))
  | 5 => .ok (.vamoOr ⟨f.ls, f.q, f.k⟩ f.d f.a f.b (f.x.extractLsb' 14 6) (Ty.ofCode (f.x.extractLsb' 10 4)) (f.x.extractLsb' 7 2) (f.x.extractLsb' 6 1) (f.x.extractLsb' 4 2) (f.x.extractLsb' 0 2))
  | 6 => .ok (.vamoXor ⟨f.ls, f.q, f.k⟩ f.d f.a f.b (f.x.extractLsb' 14 6) (Ty.ofCode (f.x.extractLsb' 10 4)) (f.x.extractLsb' 7 2) (f.x.extractLsb' 6 1) (f.x.extractLsb' 4 2) (f.x.extractLsb' 0 2))
  | 7 => .ok (.vamoMin ⟨f.ls, f.q, f.k⟩ f.d f.a f.b (f.x.extractLsb' 14 6) (Ty.ofCode (f.x.extractLsb' 10 4)) (f.x.extractLsb' 7 2) (f.x.extractLsb' 6 1) (f.x.extractLsb' 4 2) (f.x.extractLsb' 0 2))
  | 8 => .ok (.vamoMax ⟨f.ls, f.q, f.k⟩ f.d f.a f.b (f.x.extractLsb' 14 6) (Ty.ofCode (f.x.extractLsb' 10 4)) (f.x.extractLsb' 7 2) (f.x.extractLsb' 6 1) (f.x.extractLsb' 4 2) (f.x.extractLsb' 0 2))
  | 9 => .ok (.vamoMinn ⟨f.ls, f.q, f.k⟩ f.d f.a f.b (f.x.extractLsb' 14 6) (Ty.ofCode (f.x.extractLsb' 10 4)) (f.x.extractLsb' 7 2) (f.x.extractLsb' 6 1) (f.x.extractLsb' 4 2) (f.x.extractLsb' 0 2))
  | 10 => .ok (.vamoMaxn ⟨f.ls, f.q, f.k⟩ f.d f.a f.b (f.x.extractLsb' 14 6) (Ty.ofCode (f.x.extractLsb' 10 4)) (f.x.extractLsb' 7 2) (f.x.extractLsb' 6 1) (f.x.extractLsb' 4 2) (f.x.extractLsb' 0 2))
  | _ => .error .reservedFn

/-- Primary opcode 0x72 (R51). -/
def rawOp72 (f : Full) (rm : Rm) : Except DecodeError Instr :=
  match f.fn.toNat with
  | 0 => .ok (.vgl ⟨f.ls, f.q, f.k⟩ f.d f.a f.b rm (Ty.ofCode (f.x.extractLsb' 10 4)) (f.x.extractLsb' 9 1) (f.x.extractLsb' 7 2) (f.x.extractLsb' 0 2))
  | 1 => .ok (.vscc ⟨f.ls, f.q, f.k⟩ f.d f.a f.b (f.x.extractLsb' 14 6) (Ty.ofCode (f.x.extractLsb' 10 4)) (f.x.extractLsb' 7 2) (f.x.extractLsb' 0 2))
  | _ => .error .reservedFn

/-- Primary opcode 0x73 (R51). -/
def rawOp73 (f : Full) (_rm : Rm) : Except DecodeError Instr :=
  match f.fn.toNat with
  | 0 => .ok (.xredAdd ⟨f.ls, f.q, f.k⟩ f.d f.a (Ty.ofCode (f.x.extractLsb' 10 4)) (f.x.extractLsb' 0 3))
  | 1 => .ok (.xredMin ⟨f.ls, f.q, f.k⟩ f.d f.a (Ty.ofCode (f.x.extractLsb' 10 4)) (f.x.extractLsb' 0 3))
  | 2 => .ok (.xredMax ⟨f.ls, f.q, f.k⟩ f.d f.a (Ty.ofCode (f.x.extractLsb' 10 4)) (f.x.extractLsb' 0 3))
  | _ => .error .reservedFn

/-- Primary opcode 0x74 (R51). -/
def rawOp74 (f : Full) (_rm : Rm) : Except DecodeError Instr :=
  match f.fn.toNat with
  | 0 => .ok (.fence)
  | 1 => if f.x.extractLsb' 0 3 == 0#3 then .ok (.fenceFab)
      else if f.x.extractLsb' 0 3 == 1#3 then .ok (.fenceFabAcq)
      else if f.x.extractLsb' 0 3 == 2#3 then .ok (.fenceFabRel)
      else if f.x.extractLsb' 0 3 == 5#3 then .ok (.fenceFabAcqLoad f.d f.a)
      else if f.x.extractLsb' 0 3 == 6#3 then .ok (.fenceFabRelStore f.a f.b)
      else .error .illegalOperand
  | 2 => if f.x.extractLsb' 0 3 == 0#3 then .ok (.fencePool)
      else if f.x.extractLsb' 0 3 == 1#3 then .ok (.fencePoolAcq)
      else if f.x.extractLsb' 0 3 == 2#3 then .ok (.fencePoolRel)
      else if f.x.extractLsb' 0 3 == 5#3 then .ok (.fencePoolAcqLoad f.d f.a)
      else if f.x.extractLsb' 0 3 == 6#3 then .ok (.fencePoolRelStore f.a f.b)
      else .error .illegalOperand
  | _ => .error .reservedFn

/-- Primary opcode 0x75 (R51). -/
def rawOp75 (f : Full) (_rm : Rm) : Except DecodeError Instr :=
  match f.fn.toNat with
  | 0 => .ok (.waitTl f.a f.b)
  | 1 => .ok (.tlNext f.d f.a)
  | _ => .error .reservedFn

/-- Primary opcode 0x78 (R51). -/
def rawOp78 (f : Full) (_rm : Rm) : Except DecodeError Instr :=
  match f.fn.toNat with
  | 0 => if f.x.extractLsb' 4 1 == 0#1 then .ok (.twalk ⟨f.ls, f.q, f.k⟩ f.d f.a f.b (f.x.extractLsb' 14 6) (Ty.ofCode (f.x.extractLsb' 10 4)) (f.x.extractLsb' 0 4))
      else if f.x.extractLsb' 4 1 == 1#1 then .ok (.twalkX ⟨f.ls, f.q, f.k⟩ f.d f.a f.b (f.x.extractLsb' 14 6) (Ty.ofCode (f.x.extractLsb' 10 4)) (f.x.extractLsb' 0 4))
      else .error .illegalOperand
  | 1 => .ok (.twupd f.d f.a f.b (f.x.extractLsb' 14 6) (Ty.ofCode (f.x.extractLsb' 10 4)))
  | 2 => .ok (.twrd ⟨f.ls, f.q, f.k⟩ f.d f.a (f.x.extractLsb' 0 2))
  | _ => .error .reservedFn

/-- Primary opcode 0x79 (R51). -/
def rawOp79 (f : Full) (_rm : Rm) : Except DecodeError Instr :=
  match f.fn.toNat with
  | 0 => .ok (.twbuild f.d f.a f.b (f.x.extractLsb' 14 6) (Ty.ofCode (f.x.extractLsb' 10 4)))
  | _ => .error .reservedFn

/-- Primary opcode 0x7F (R51). -/
def rawOp7F (f : Full) (rm : Rm) : Except DecodeError Instr :=
  match f.fn.toNat with
  | 0 => .ok (.nop)
  | 1 => .ok (.yield_)
  | 2 => if f.x.extractLsb' 10 1 == 0#1 then .ok (.pf f.a (f.x.extractLsb' 0 9))
      else if f.x.extractLsb' 10 1 == 1#1 then .ok (.pfW f.a (f.x.extractLsb' 0 9))
      else .error .illegalOperand
  | _ => .ok (.hintNop f.fn f.d f.a f.b ⟨f.ls, f.q, f.k⟩ rm f.x)

/-- The instruction that the opcode and function code name, its operands read from their fields, before
the checks of R42 and R50. -/
def rawInstr (f : Full) (rm : Rm) : Except DecodeError Instr :=
  match f.op.toNat with
  | 0x01 => rawOp01 f rm
  | 0x02 => rawOp02 f rm
  | 0x03 => rawOp03 f rm
  | 0x04 => rawOp04 f rm
  | 0x05 => rawOp05 f rm
  | 0x06 => rawOp06 f rm
  | 0x07 => rawOp07 f rm
  | 0x08 => rawOp08 f rm
  | 0x09 => rawOp09 f rm
  | 0x0A => rawOp0A f rm
  | 0x0B => rawOp0B f rm
  | 0x0C => rawOp0C f rm
  | 0x0D => rawOp0D f rm
  | 0x10 => rawOp10 f rm
  | 0x11 => rawOp11 f rm
  | 0x12 => rawOp12 f rm
  | 0x13 => rawOp13 f rm
  | 0x14 => rawOp14 f rm
  | 0x15 => rawOp15 f rm
  | 0x16 => rawOp16 f rm
  | 0x17 => rawOp17 f rm
  | 0x20 => rawOp20 f rm
  | 0x21 => rawOp21 f rm
  | 0x22 => rawOp22 f rm
  | 0x23 => rawOp23 f rm
  | 0x28 => rawOp28 f rm
  | 0x29 => rawOp29 f rm
  | 0x2A => rawOp2A f rm
  | 0x2B => rawOp2B f rm
  | 0x2C => rawOp2C f rm
  | 0x2D => rawOp2D f rm
  | 0x2E => rawOp2E f rm
  | 0x2F => rawOp2F f rm
  | 0x30 => rawOp30 f rm
  | 0x31 => rawOp31 f rm
  | 0x32 => rawOp32 f rm
  | 0x33 => rawOp33 f rm
  | 0x40 => rawOp40 f rm
  | 0x41 => rawOp41 f rm
  | 0x42 => rawOp42 f rm
  | 0x43 => rawOp43 f rm
  | 0x44 => rawOp44 f rm
  | 0x45 => rawOp45 f rm
  | 0x46 => rawOp46 f rm
  | 0x50 => rawOp50 f rm
  | 0x51 => rawOp51 f rm
  | 0x58 => rawOp58 f rm
  | 0x59 => rawOp59 f rm
  | 0x5A => rawOp5A f rm
  | 0x60 => rawOp60 f rm
  | 0x61 => rawOp61 f rm
  | 0x62 => rawOp62 f rm
  | 0x64 => rawOp64 f rm
  | 0x65 => rawOp65 f rm
  | 0x66 => rawOp66 f rm
  | 0x67 => rawOp67 f rm
  | 0x68 => rawOp68 f rm
  | 0x69 => rawOp69 f rm
  | 0x6A => rawOp6A f rm
  | 0x6B => rawOp6B f rm
  | 0x6C => rawOp6C f rm
  | 0x6D => rawOp6D f rm
  | 0x70 => rawOp70 f rm
  | 0x71 => rawOp71 f rm
  | 0x72 => rawOp72 f rm
  | 0x73 => rawOp73 f rm
  | 0x74 => rawOp74 f rm
  | 0x75 => rawOp75 f rm
  | 0x78 => rawOp78 f rm
  | 0x79 => rawOp79 f rm
  | 0x7F => rawOp7F f rm
  | _ => .error .reservedOp

/-- The fields of a full-form instruction, by the encodings of its entry; none for a compact slot or an event. -/
def fieldsOf (i : Instr) : Option Full :=
  match i with
  | .b off => some ⟨1#7, 0#6, 0#6, 0#6, 0#6, 0#3, 0#3, 0#1, 0#3, off⟩
  | .beq a b off => some ⟨2#7, 0#6, 0#6, a, b, 0#3, 0#3, 0#1, 0#3, off⟩
  | .bne a b off => some ⟨2#7, 1#6, 0#6, a, b, 0#3, 0#3, 0#1, 0#3, off⟩
  | .blt a b off => some ⟨2#7, 2#6, 0#6, a, b, 0#3, 0#3, 0#1, 0#3, off⟩
  | .bge a b off => some ⟨2#7, 3#6, 0#6, a, b, 0#3, 0#3, 0#1, 0#3, off⟩
  | .bltn a b off => some ⟨2#7, 4#6, 0#6, a, b, 0#3, 0#3, 0#1, 0#3, off⟩
  | .bgen a b off => some ⟨2#7, 5#6, 0#6, a, b, 0#3, 0#3, 0#1, 0#3, off⟩
  | .bz a off => some ⟨3#7, 0#6, 0#6, a, 0#6, 0#3, 0#3, 0#1, 0#3, off⟩
  | .bnz a off => some ⟨3#7, 1#6, 0#6, a, 0#6, 0#3, 0#3, 0#1, 0#3, off⟩
  | .jmp a => some ⟨4#7, 0#6, 0#6, a, 0#6, 0#3, 0#3, 0#1, 0#3, 0#20⟩
  | .calli a => some ⟨4#7, 1#6, 0#6, a, 0#6, 0#3, 0#3, 0#1, 0#3, 0#20⟩
  | .ret => some ⟨4#7, 2#6, 0#6, 0#6, 0#6, 0#3, 0#3, 0#1, 0#3, 0#20⟩
  | .call off => some ⟨5#7, 0#6, 0#6, 0#6, 0#6, 0#3, 0#3, 0#1, 0#3, off⟩
  | .mwait d a b c => some ⟨6#7, 0#6, d, a, b, 0#3, 0#3, 0#1, 0#3, c ++ 0#14⟩
  | .halt => some ⟨6#7, 1#6, 0#6, 0#6, 0#6, 0#3, 0#3, 0#1, 0#3, 0#20⟩
  | .launch d a => some ⟨7#7, 0#6, d, a, 0#6, 0#3, 0#3, 0#1, 0#3, 0#20⟩
  | .glaunch d a => some ⟨7#7, 1#6, d, a, 0#6, 0#3, 0#3, 0#1, 0#3, 0#20⟩
  | .widGet d => some ⟨8#7, 0#6, d, 0#6, 0#6, 0#3, 0#3, 0#1, 0#3, 0#20⟩
  | .widGetField d f => some ⟨8#7, 0#6, d, 0#6, 0#6, 0#3, 0#3, 0#1, 0#3, 0#16 ++ 1#1 ++ f⟩
  | .barK k => some ⟨8#7, 1#6, 0#6, 0#6, 0#6, 0#3, 0#3, 0#1, 0#3, 0#17 ++ k⟩
  | .tmBind a b c n => some ⟨9#7, 0#6, 0#6, a, b, 0#3, 0#3, 0#1, 0#3, c ++ 0#10 ++ n⟩
  | .tmAdv a b n => some ⟨9#7, 1#6, 0#6, a, b, 0#3, 0#3, 0#1, 0#3, 0#16 ++ n⟩
  | .tmRd d n => some ⟨9#7, 2#6, d, 0#6, 0#6, 0#3, 0#3, 0#1, 0#3, 0#16 ++ n⟩
  | .ldco d a b => some ⟨10#7, 0#6, d, a, b, 0#3, 0#3, 0#1, 0#3, 0#20⟩
  | .ldcoDrop d a => some ⟨10#7, 0#6, d, a, 0#6, 0#3, 0#3, 0#1, 0#3, 0#19 ++ 1#1⟩
  | .trap imm => some ⟨11#7, 0#6, 0#6, 0#6, 0#6, 0#3, 0#3, 0#1, 0#3, imm⟩
  | .sret => some ⟨11#7, 1#6, 0#6, 0#6, 0#6, 0#3, 0#3, 0#1, 0#3, 0#20⟩
  | .ctxSave d a b => some ⟨12#7, 0#6, d, a, b, 0#3, 0#3, 0#1, 0#3, 0#20⟩
  | .ctxLoad d a b => some ⟨12#7, 1#6, d, a, b, 0#3, 0#3, 0#1, 0#3, 0#20⟩
  | .erecRd d a k => some ⟨13#7, 0#6, d, a, 0#6, 0#3, 0#3, 0#1, 0#3, 0#17 ++ k⟩
  | .add d a b => some ⟨16#7, 0#6, d, a, b, 0#3, 0#3, 0#1, 0#3, 0#20⟩
  | .sub d a b => some ⟨16#7, 1#6, d, a, b, 0#3, 0#3, 0#1, 0#3, 0#20⟩
  | .mul d a b => some ⟨16#7, 2#6, d, a, b, 0#3, 0#3, 0#1, 0#3, 0#20⟩
  | .mulh d a b => some ⟨16#7, 3#6, d, a, b, 0#3, 0#3, 0#1, 0#3, 0#20⟩
  | .mulhn d a b => some ⟨16#7, 4#6, d, a, b, 0#3, 0#3, 0#1, 0#3, 0#20⟩
  | .sAnd d a b => some ⟨16#7, 5#6, d, a, b, 0#3, 0#3, 0#1, 0#3, 0#20⟩
  | .sOr d a b => some ⟨16#7, 6#6, d, a, b, 0#3, 0#3, 0#1, 0#3, 0#20⟩
  | .sXor d a b => some ⟨16#7, 7#6, d, a, b, 0#3, 0#3, 0#1, 0#3, 0#20⟩
  | .andn d a b => some ⟨16#7, 8#6, d, a, b, 0#3, 0#3, 0#1, 0#3, 0#20⟩
  | .shl d a b => some ⟨16#7, 9#6, d, a, b, 0#3, 0#3, 0#1, 0#3, 0#20⟩
  | .shr d a b => some ⟨16#7, 10#6, d, a, b, 0#3, 0#3, 0#1, 0#3, 0#20⟩
  | .sra d a b => some ⟨16#7, 11#6, d, a, b, 0#3, 0#3, 0#1, 0#3, 0#20⟩
  | .rol d a b => some ⟨16#7, 12#6, d, a, b, 0#3, 0#3, 0#1, 0#3, 0#20⟩
  | .sMin d a b => some ⟨16#7, 13#6, d, a, b, 0#3, 0#3, 0#1, 0#3, 0#20⟩
  | .sMax d a b => some ⟨16#7, 14#6, d, a, b, 0#3, 0#3, 0#1, 0#3, 0#20⟩
  | .minn d a b => some ⟨16#7, 15#6, d, a, b, 0#3, 0#3, 0#1, 0#3, 0#20⟩
  | .maxn d a b => some ⟨16#7, 16#6, d, a, b, 0#3, 0#3, 0#1, 0#3, 0#20⟩
  | .slt d a b => some ⟨16#7, 17#6, d, a, b, 0#3, 0#3, 0#1, 0#3, 0#20⟩
  | .sltn d a b => some ⟨16#7, 18#6, d, a, b, 0#3, 0#3, 0#1, 0#3, 0#20⟩
  | .addi d a imm => some ⟨16#7, 32#6, d, a, 0#6, 0#3, 0#3, 0#1, 0#3, imm⟩
  | .subi d a imm => some ⟨16#7, 33#6, d, a, 0#6, 0#3, 0#3, 0#1, 0#3, imm⟩
  | .muli d a imm => some ⟨16#7, 34#6, d, a, 0#6, 0#3, 0#3, 0#1, 0#3, imm⟩
  | .mulhi d a imm => some ⟨16#7, 35#6, d, a, 0#6, 0#3, 0#3, 0#1, 0#3, imm⟩
  | .mulhni d a imm => some ⟨16#7, 36#6, d, a, 0#6, 0#3, 0#3, 0#1, 0#3, imm⟩
  | .andi d a imm => some ⟨16#7, 37#6, d, a, 0#6, 0#3, 0#3, 0#1, 0#3, imm⟩
  | .ori d a imm => some ⟨16#7, 38#6, d, a, 0#6, 0#3, 0#3, 0#1, 0#3, imm⟩
  | .xori d a imm => some ⟨16#7, 39#6, d, a, 0#6, 0#3, 0#3, 0#1, 0#3, imm⟩
  | .andni d a imm => some ⟨16#7, 40#6, d, a, 0#6, 0#3, 0#3, 0#1, 0#3, imm⟩
  | .shli d a imm => some ⟨16#7, 41#6, d, a, 0#6, 0#3, 0#3, 0#1, 0#3, imm⟩
  | .shri d a imm => some ⟨16#7, 42#6, d, a, 0#6, 0#3, 0#3, 0#1, 0#3, imm⟩
  | .srai d a imm => some ⟨16#7, 43#6, d, a, 0#6, 0#3, 0#3, 0#1, 0#3, imm⟩
  | .roli d a imm => some ⟨16#7, 44#6, d, a, 0#6, 0#3, 0#3, 0#1, 0#3, imm⟩
  | .mini d a imm => some ⟨16#7, 45#6, d, a, 0#6, 0#3, 0#3, 0#1, 0#3, imm⟩
  | .maxi d a imm => some ⟨16#7, 46#6, d, a, 0#6, 0#3, 0#3, 0#1, 0#3, imm⟩
  | .minni d a imm => some ⟨16#7, 47#6, d, a, 0#6, 0#3, 0#3, 0#1, 0#3, imm⟩
  | .maxni d a imm => some ⟨16#7, 48#6, d, a, 0#6, 0#3, 0#3, 0#1, 0#3, imm⟩
  | .slti d a imm => some ⟨16#7, 49#6, d, a, 0#6, 0#3, 0#3, 0#1, 0#3, imm⟩
  | .sltni d a imm => some ⟨16#7, 50#6, d, a, 0#6, 0#3, 0#3, 0#1, 0#3, imm⟩
  | .div d a b => some ⟨17#7, 0#6, d, a, b, 0#3, 0#3, 0#1, 0#3, 0#20⟩
  | .divn d a b => some ⟨17#7, 1#6, d, a, b, 0#3, 0#3, 0#1, 0#3, 0#20⟩
  | .rem d a b => some ⟨17#7, 2#6, d, a, b, 0#3, 0#3, 0#1, 0#3, 0#20⟩
  | .remn d a b => some ⟨17#7, 3#6, d, a, b, 0#3, 0#3, 0#1, 0#3, 0#20⟩
  | .clz d a => some ⟨18#7, 0#6, d, a, 0#6, 0#3, 0#3, 0#1, 0#3, 0#20⟩
  | .ctz d a => some ⟨18#7, 1#6, d, a, 0#6, 0#3, 0#3, 0#1, 0#3, 0#20⟩
  | .popc d a => some ⟨18#7, 2#6, d, a, 0#6, 0#3, 0#3, 0#1, 0#3, 0#20⟩
  | .sel d a b c => some ⟨19#7, 0#6, d, a, b, 0#3, 0#3, 0#1, 0#3, c ++ 0#14⟩
  | .li d imm => some ⟨20#7, 0#6, d, 0#6, 0#6, 0#3, 0#3, 0#1, 0#3, imm⟩
  | .lui d imm => some ⟨20#7, 1#6, d, 0#6, 0#6, 0#3, 0#3, 0#1, 0#3, imm⟩
  | .adr d imm => some ⟨21#7, 0#6, d, 0#6, 0#6, 0#3, 0#3, 0#1, 0#3, imm⟩
  | .lsa d a b k => some ⟨21#7, 1#6, d, a, b, 0#3, 0#3, 0#1, 0#3, 0#18 ++ k⟩
  | .ext d a pos len => some ⟨22#7, 0#6, d, a, 0#6, 0#3, 0#3, 0#1, 0#3, pos ++ 0#7 ++ 0#1 ++ len⟩
  | .extS d a pos len => some ⟨22#7, 0#6, d, a, 0#6, 0#3, 0#3, 0#1, 0#3, pos ++ 0#7 ++ 1#1 ++ len⟩
  | .ins d a pos len => some ⟨22#7, 1#6, d, a, 0#6, 0#3, 0#3, 0#1, 0#3, pos ++ 0#7 ++ 0#1 ++ len⟩
  | .frame n => some ⟨23#7, 0#6, 0#6, 0#6, 0#6, 0#3, 0#3, 0#1, 0#3, 0#14 ++ n⟩
  | .faddS d a b rm => some ⟨32#7, 0#6, d, a, b, 0#3, 0#3, 0#1, rm.code, 0#20⟩
  | .fsubS d a b rm => some ⟨32#7, 1#6, d, a, b, 0#3, 0#3, 0#1, rm.code, 0#20⟩
  | .fmulS d a b rm => some ⟨32#7, 2#6, d, a, b, 0#3, 0#3, 0#1, rm.code, 0#20⟩
  | .ffmaS d a b rm c => some ⟨32#7, 3#6, d, a, b, 0#3, 0#3, 0#1, rm.code, c ++ 0#14⟩
  | .fdivS d a b rm => some ⟨32#7, 4#6, d, a, b, 0#3, 0#3, 0#1, rm.code, 0#20⟩
  | .fsqrtS d a rm => some ⟨32#7, 5#6, d, a, 0#6, 0#3, 0#3, 0#1, rm.code, 0#20⟩
  | .fcmpSEq d a b => some ⟨33#7, 0#6, d, a, b, 0#3, 0#3, 0#1, 0#3, 0#20⟩
  | .fcmpSLt d a b => some ⟨33#7, 1#6, d, a, b, 0#3, 0#3, 0#1, 0#3, 0#20⟩
  | .fcmpSLe d a b => some ⟨33#7, 2#6, d, a, b, 0#3, 0#3, 0#1, 0#3, 0#20⟩
  | .fcmpSUn d a b => some ⟨33#7, 3#6, d, a, b, 0#3, 0#3, 0#1, 0#3, 0#20⟩
  | .fcvtSFi d a rm => some ⟨34#7, 0#6, d, a, 0#6, 0#3, 0#3, 0#1, rm.code, 0#20⟩
  | .fcvtSFn d a rm => some ⟨34#7, 1#6, d, a, 0#6, 0#3, 0#3, 0#1, rm.code, 0#20⟩
  | .fcvtSIf d a rm => some ⟨34#7, 2#6, d, a, 0#6, 0#3, 0#3, 0#1, rm.code, 0#20⟩
  | .fcvtSNf d a rm => some ⟨34#7, 3#6, d, a, 0#6, 0#3, 0#3, 0#1, rm.code, 0#20⟩
  | .mfs d num => some ⟨35#7, 0#6, d, 0#6, 0#6, 0#3, 0#3, 0#1, 0#3, 0#8 ++ num⟩
  | .mts a num => some ⟨35#7, 1#6, 0#6, a, 0#6, 0#3, 0#3, 0#1, 0#3, 0#8 ++ num⟩
  | .mvlWrite a num => some ⟨35#7, 1#6, 0#6, a, 0#6, 0#3, 0#3, 0#1, 0#3, 0#8 ++ num⟩
  | .tshapeWrite a num => some ⟨35#7, 1#6, 0#6, a, 0#6, 0#3, 0#3, 0#1, 0#3, 0#8 ++ num⟩
  | .dlymodeClr a num => some ⟨35#7, 1#6, 0#6, a, 0#6, 0#3, 0#3, 0#1, 0#3, 0#8 ++ num⟩
  | .efqWrite a num => some ⟨35#7, 1#6, 0#6, a, 0#6, 0#3, 0#3, 0#1, 0#3, 0#8 ++ num⟩
  | .vsetl d a ty => some ⟨40#7, 0#6, d, a, 0#6, 0#3, 0#3, 0#1, 0#3, 0#6 ++ ty.code ++ 0#10⟩
  | .vrel => some ⟨40#7, 1#6, 0#6, 0#6, 0#6, 0#3, 0#3, 0#1, 0#3, 0#20⟩
  | .vspill v a b ty disp => some ⟨41#7, 0#6, 0#6, a, b, v.ls, v.q, v.k, 0#3, 0#6 ++ ty.code ++ 0#1 ++ disp⟩
  | .vfill d a ty disp => some ⟨41#7, 1#6, d, a, 0#6, 0#3, 0#3, 0#1, 0#3, 0#6 ++ ty.code ++ 0#1 ++ disp⟩
  | .vadd v d a b ty sat => some ⟨42#7, 0#6, d, a, b, v.ls, v.q, v.k, 0#3, 0#6 ++ ty.code ++ sat ++ 0#9⟩
  | .vsub v d a b ty sat => some ⟨42#7, 1#6, d, a, b, v.ls, v.q, v.k, 0#3, 0#6 ++ ty.code ++ sat ++ 0#9⟩
  | .vmul v d a b ty sat => some ⟨42#7, 2#6, d, a, b, v.ls, v.q, v.k, 0#3, 0#6 ++ ty.code ++ sat ++ 0#9⟩
  | .vmulh v d a b ty => some ⟨42#7, 3#6, d, a, b, v.ls, v.q, v.k, 0#3, 0#6 ++ ty.code ++ 0#10⟩
  | .vmin v d a b ty => some ⟨42#7, 4#6, d, a, b, v.ls, v.q, v.k, 0#3, 0#6 ++ ty.code ++ 0#10⟩
  | .vmax v d a b ty => some ⟨42#7, 5#6, d, a, b, v.ls, v.q, v.k, 0#3, 0#6 ++ ty.code ++ 0#10⟩
  | .vand v d a b ty => some ⟨43#7, 0#6, d, a, b, v.ls, v.q, v.k, 0#3, 0#6 ++ ty.code ++ 0#10⟩
  | .vor v d a b ty => some ⟨43#7, 1#6, d, a, b, v.ls, v.q, v.k, 0#3, 0#6 ++ ty.code ++ 0#10⟩
  | .vxor v d a b ty => some ⟨43#7, 2#6, d, a, b, v.ls, v.q, v.k, 0#3, 0#6 ++ ty.code ++ 0#10⟩
  | .vshl v d a b ty => some ⟨43#7, 3#6, d, a, b, v.ls, v.q, v.k, 0#3, 0#6 ++ ty.code ++ 0#10⟩
  | .vshr v d a b ty => some ⟨43#7, 4#6, d, a, b, v.ls, v.q, v.k, 0#3, 0#6 ++ ty.code ++ 0#10⟩
  | .vsra v d a b ty => some ⟨43#7, 5#6, d, a, b, v.ls, v.q, v.k, 0#3, 0#6 ++ ty.code ++ 0#10⟩
  | .vcmpEq v d a b ty => some ⟨44#7, 0#6, d, a, b, v.ls, v.q, v.k, 0#3, 0#6 ++ ty.code ++ 0#10⟩
  | .vcmpNe v d a b ty => some ⟨44#7, 1#6, d, a, b, v.ls, v.q, v.k, 0#3, 0#6 ++ ty.code ++ 0#10⟩
  | .vcmpLt v d a b ty => some ⟨44#7, 2#6, d, a, b, v.ls, v.q, v.k, 0#3, 0#6 ++ ty.code ++ 0#10⟩
  | .vcmpLe v d a b ty => some ⟨44#7, 3#6, d, a, b, v.ls, v.q, v.k, 0#3, 0#6 ++ ty.code ++ 0#10⟩
  | .vwadd v d a b rm ty wf => some ⟨45#7, 0#6, d, a, b, v.ls, v.q, v.k, rm.code, 0#6 ++ ty.code ++ 0#8 ++ wf⟩
  | .vwmul v d a b rm ty wf => some ⟨45#7, 1#6, d, a, b, v.ls, v.q, v.k, rm.code, 0#6 ++ ty.code ++ 0#8 ++ wf⟩
  | .vwmac v d a b rm c ty sat wf => some ⟨45#7, 2#6, d, a, b, v.ls, v.q, v.k, rm.code, c ++ ty.code ++ sat ++ 0#7 ++ wf⟩
  | .vmov v d a ty => some ⟨46#7, 0#6, d, a, 0#6, v.ls, v.q, v.k, 0#3, 0#6 ++ ty.code ++ 0#10⟩
  | .vid v d ty => some ⟨46#7, 1#6, d, 0#6, 0#6, v.ls, v.q, v.k, 0#3, 0#6 ++ ty.code ++ 0#10⟩
  | .vsel v d a b ty => some ⟨46#7, 2#6, d, a, b, v.ls, v.q, v.k, 0#3, 0#6 ++ ty.code ++ 0#10⟩
  | .vdup v d a b ty => some ⟨47#7, 0#6, d, a, b, v.ls, v.q, v.k, 0#3, 0#6 ++ ty.code ++ 0#10⟩
  | .vperm v d a b ty => some ⟨48#7, 0#6, d, a, b, v.ls, v.q, v.k, 0#3, 0#6 ++ ty.code ++ 0#10⟩
  | .vslup v d a b ty => some ⟨48#7, 1#6, d, a, b, v.ls, v.q, v.k, 0#3, 0#6 ++ ty.code ++ 0#10⟩
  | .vsldn v d a b ty => some ⟨48#7, 2#6, d, a, b, v.ls, v.q, v.k, 0#3, 0#6 ++ ty.code ++ 0#10⟩
  | .vcmprs v d a ty => some ⟨48#7, 3#6, d, a, 0#6, v.ls, v.q, v.k, 0#3, 0#6 ++ ty.code ++ 0#10⟩
  | .vexpnd v d a ty => some ⟨48#7, 4#6, d, a, 0#6, v.ls, v.q, v.k, 0#3, 0#6 ++ ty.code ++ 0#10⟩
  | .qand v d a b => some ⟨49#7, 0#6, d, a, b, v.ls, v.q, v.k, 0#3, 0#20⟩
  | .qor v d a b => some ⟨49#7, 1#6, d, a, b, v.ls, v.q, v.k, 0#3, 0#20⟩
  | .qxor v d a b => some ⟨49#7, 2#6, d, a, b, v.ls, v.q, v.k, 0#3, 0#20⟩
  | .qnot v d a => some ⟨49#7, 3#6, d, a, 0#6, v.ls, v.q, v.k, 0#3, 0#20⟩
  | .qpopc v d a => some ⟨49#7, 4#6, d, a, 0#6, v.ls, v.q, v.k, 0#3, 0#20⟩
  | .qfirst v d a => some ⟨49#7, 5#6, d, a, 0#6, v.ls, v.q, v.k, 0#3, 0#20⟩
  | .vbmand v d a b ty => some ⟨50#7, 0#6, d, a, b, v.ls, v.q, v.k, 0#3, 0#6 ++ ty.code ++ 0#10⟩
  | .vbpfx v d a ty => some ⟨50#7, 1#6, d, a, 0#6, v.ls, v.q, v.k, 0#3, 0#6 ++ ty.code ++ 0#10⟩
  | .vxsect v d a b ty => some ⟨50#7, 2#6, d, a, b, v.ls, v.q, v.k, 0#3, 0#6 ++ ty.code ++ 0#10⟩
  | .vconf v d a ty qe => some ⟨51#7, 0#6, d, a, 0#6, v.ls, v.q, v.k, 0#3, 0#6 ++ ty.code ++ 0#7 ++ qe⟩
  | .vfadd v d a b rm ty => some ⟨64#7, 0#6, d, a, b, v.ls, v.q, v.k, rm.code, 0#6 ++ ty.code ++ 0#10⟩
  | .vfsub v d a b rm ty => some ⟨64#7, 1#6, d, a, b, v.ls, v.q, v.k, rm.code, 0#6 ++ ty.code ++ 0#10⟩
  | .vfmul v d a b rm ty => some ⟨64#7, 2#6, d, a, b, v.ls, v.q, v.k, rm.code, 0#6 ++ ty.code ++ 0#10⟩
  | .vfmin v d a b ty => some ⟨64#7, 3#6, d, a, b, v.ls, v.q, v.k, 0#3, 0#6 ++ ty.code ++ 0#10⟩
  | .vfmax v d a b ty => some ⟨64#7, 4#6, d, a, b, v.ls, v.q, v.k, 0#3, 0#6 ++ ty.code ++ 0#10⟩
  | .vfma v d a b rm c ty => some ⟨65#7, 0#6, d, a, b, v.ls, v.q, v.k, rm.code, c ++ ty.code ++ 0#10⟩
  | .vfms v d a b rm c ty => some ⟨65#7, 1#6, d, a, b, v.ls, v.q, v.k, rm.code, c ++ ty.code ++ 0#10⟩
  | .vfnma v d a b rm c ty => some ⟨65#7, 2#6, d, a, b, v.ls, v.q, v.k, rm.code, c ++ ty.code ++ 0#10⟩
  | .vfdiv v d a b rm ty => some ⟨66#7, 0#6, d, a, b, v.ls, v.q, v.k, rm.code, 0#6 ++ ty.code ++ 0#10⟩
  | .vfsqrt v d a rm ty => some ⟨66#7, 1#6, d, a, 0#6, v.ls, v.q, v.k, rm.code, 0#6 ++ ty.code ++ 0#10⟩
  | .vrcp v d a rm ty => some ⟨66#7, 2#6, d, a, 0#6, v.ls, v.q, v.k, rm.code, 0#6 ++ ty.code ++ 0#10⟩
  | .vrsqrt v d a rm ty => some ⟨66#7, 3#6, d, a, 0#6, v.ls, v.q, v.k, rm.code, 0#6 ++ ty.code ++ 0#10⟩
  | .vexp2 v d a rm ty => some ⟨66#7, 4#6, d, a, 0#6, v.ls, v.q, v.k, rm.code, 0#6 ++ ty.code ++ 0#10⟩
  | .vfcmpEq v d a b ty => some ⟨67#7, 0#6, d, a, b, v.ls, v.q, v.k, 0#3, 0#6 ++ ty.code ++ 0#10⟩
  | .vfcmpLt v d a b ty => some ⟨67#7, 1#6, d, a, b, v.ls, v.q, v.k, 0#3, 0#6 ++ ty.code ++ 0#10⟩
  | .vfcmpLe v d a b ty => some ⟨67#7, 2#6, d, a, b, v.ls, v.q, v.k, 0#3, 0#6 ++ ty.code ++ 0#10⟩
  | .vfcmpUn v d a b ty => some ⟨67#7, 3#6, d, a, b, v.ls, v.q, v.k, 0#3, 0#6 ++ ty.code ++ 0#10⟩
  | .vredoAdd v d a b rm ty sat => some ⟨68#7, 0#6, d, a, b, v.ls, v.q, v.k, rm.code, 0#6 ++ ty.code ++ sat ++ 0#9⟩
  | .vredoMin v d a b ty => some ⟨68#7, 1#6, d, a, b, v.ls, v.q, v.k, 0#3, 0#6 ++ ty.code ++ 0#10⟩
  | .vredoMax v d a b ty => some ⟨68#7, 2#6, d, a, b, v.ls, v.q, v.k, 0#3, 0#6 ++ ty.code ++ 0#10⟩
  | .vredoAnd v d a b ty => some ⟨68#7, 3#6, d, a, b, v.ls, v.q, v.k, 0#3, 0#6 ++ ty.code ++ 0#10⟩
  | .vredoOr v d a b ty => some ⟨68#7, 4#6, d, a, b, v.ls, v.q, v.k, 0#3, 0#6 ++ ty.code ++ 0#10⟩
  | .vredoXor v d a b ty => some ⟨68#7, 5#6, d, a, b, v.ls, v.q, v.k, 0#3, 0#6 ++ ty.code ++ 0#10⟩
  | .vredtAdd v d a b rm ty sat => some ⟨69#7, 0#6, d, a, b, v.ls, v.q, v.k, rm.code, 0#6 ++ ty.code ++ sat ++ 0#9⟩
  | .vredtMin v d a b ty => some ⟨69#7, 1#6, d, a, b, v.ls, v.q, v.k, 0#3, 0#6 ++ ty.code ++ 0#10⟩
  | .vredtMax v d a b ty => some ⟨69#7, 2#6, d, a, b, v.ls, v.q, v.k, 0#3, 0#6 ++ ty.code ++ 0#10⟩
  | .vredtAnd v d a b ty => some ⟨69#7, 3#6, d, a, b, v.ls, v.q, v.k, 0#3, 0#6 ++ ty.code ++ 0#10⟩
  | .vredtOr v d a b ty => some ⟨69#7, 4#6, d, a, b, v.ls, v.q, v.k, 0#3, 0#6 ++ ty.code ++ 0#10⟩
  | .vredtXor v d a b ty => some ⟨69#7, 5#6, d, a, b, v.ls, v.q, v.k, 0#3, 0#6 ++ ty.code ++ 0#10⟩
  | .vscanAdd v d a b rm ty sat => some ⟨70#7, 0#6, d, a, b, v.ls, v.q, v.k, rm.code, 0#6 ++ ty.code ++ sat ++ 0#9⟩
  | .vscanMin v d a b ty => some ⟨70#7, 1#6, d, a, b, v.ls, v.q, v.k, 0#3, 0#6 ++ ty.code ++ 0#10⟩
  | .vscanMax v d a b ty => some ⟨70#7, 2#6, d, a, b, v.ls, v.q, v.k, 0#3, 0#6 ++ ty.code ++ 0#10⟩
  | .vscanAnd v d a b ty => some ⟨70#7, 3#6, d, a, b, v.ls, v.q, v.k, 0#3, 0#6 ++ ty.code ++ 0#10⟩
  | .vscanOr v d a b ty => some ⟨70#7, 4#6, d, a, b, v.ls, v.q, v.k, 0#3, 0#6 ++ ty.code ++ 0#10⟩
  | .vscanXor v d a b ty => some ⟨70#7, 5#6, d, a, b, v.ls, v.q, v.k, 0#3, 0#6 ++ ty.code ++ 0#10⟩
  | .fmtSet d a => some ⟨80#7, 0#6, d, a, 0#6, 0#3, 0#3, 0#1, 0#3, 0#20⟩
  | .tidBind d a => some ⟨80#7, 1#6, d, a, 0#6, 0#3, 0#3, 0#1, 0#3, 0#20⟩
  | .tidRd d a k => some ⟨80#7, 2#6, d, a, 0#6, 0#3, 0#3, 0#1, 0#3, 0#17 ++ k⟩
  | .vcvtTo v d a rm ty sat fc => some ⟨81#7, 0#6, d, a, 0#6, v.ls, v.q, v.k, rm.code, 0#6 ++ ty.code ++ sat ++ fc ++ 0#1 ++ 0#2⟩
  | .vcvtFrom v d a rm ty sat fc => some ⟨81#7, 0#6, d, a, 0#6, v.ls, v.q, v.k, rm.code, 0#6 ++ ty.code ++ sat ++ fc ++ 1#1 ++ 0#2⟩
  | .vpack v d a ty fc => some ⟨81#7, 1#6, d, a, 0#6, v.ls, v.q, v.k, 0#3, 0#6 ++ ty.code ++ 0#1 ++ fc ++ 0#3⟩
  | .vunpk v d a ty fc => some ⟨81#7, 2#6, d, a, 0#6, v.ls, v.q, v.k, 0#3, 0#6 ++ ty.code ++ 0#1 ++ fc ++ 0#3⟩
  | .vscl v d a b rm ty sat fc => some ⟨81#7, 3#6, d, a, b, v.ls, v.q, v.k, rm.code, 0#6 ++ ty.code ++ sat ++ fc ++ 0#3⟩
  | .vquant v d a b rm ty fc => some ⟨81#7, 4#6, d, a, b, v.ls, v.q, v.k, rm.code, 0#6 ++ ty.code ++ 0#1 ++ fc ++ 0#3⟩
  | .tld d a b c => some ⟨88#7, 0#6, d, a, b, 0#3, 0#3, 0#1, 0#3, c ++ 0#14⟩
  | .tldt d a b c => some ⟨88#7, 1#6, d, a, b, 0#3, 0#3, 0#1, 0#3, c ++ 0#14⟩
  | .tst d a b c => some ⟨88#7, 2#6, d, a, b, 0#3, 0#3, 0#1, 0#3, c ++ 0#14⟩
  | .tzero d a => some ⟨88#7, 3#6, d, a, 0#6, 0#3, 0#3, 0#1, 0#3, 0#20⟩
  | .tlatch a b => some ⟨89#7, 0#6, 0#6, a, b, 0#3, 0#3, 0#1, 0#3, 0#20⟩
  | .mmr v d a b acc => some ⟨90#7, 0#6, d, a, b, v.ls, v.q, v.k, 0#3, 0#6 ++ 8#4 ++ 0#6 ++ acc ++ 0#3⟩
  | .mmrT v d a b c acc => some ⟨90#7, 1#6, d, a, b, v.ls, v.q, v.k, 0#3, c ++ 8#4 ++ 0#6 ++ acc ++ 0#3⟩
  | .mmrRep v d a b acc n => some ⟨90#7, 2#6, d, a, b, v.ls, v.q, v.k, 0#3, 0#6 ++ 8#4 ++ 0#6 ++ acc ++ n⟩
  | .mmrSk v d a b c acc => some ⟨90#7, 3#6, d, a, b, v.ls, v.q, v.k, 0#3, c ++ 8#4 ++ 0#6 ++ acc ++ 0#3⟩
  | .rnew d a b nw => some ⟨96#7, 0#6, d, a, b, 0#3, 0#3, 0#1, 0#3, 0#18 ++ nw ++ 0#1⟩
  | .rcut d a b nw axis => some ⟨96#7, 1#6, d, a, b, 0#3, 0#3, 0#1, 0#3, 0#18 ++ nw ++ axis⟩
  | .rsplc d a b => some ⟨96#7, 2#6, d, a, b, 0#3, 0#3, 0#1, 0#3, 0#20⟩
  | .rfree a => some ⟨96#7, 3#6, 0#6, a, 0#6, 0#3, 0#3, 0#1, 0#3, 0#20⟩
  | .hmov d a b => some ⟨97#7, 0#6, d, a, b, 0#3, 0#3, 0#1, 0#3, 0#20⟩
  | .hinfo d a k => some ⟨97#7, 1#6, d, a, 0#6, 0#3, 0#3, 0#1, 0#3, 0#18 ++ k⟩
  | .rld v d a b => some ⟨98#7, 0#6, d, a, b, v.ls, v.q, v.k, 0#3, 0#20⟩
  | .rst v a b c => some ⟨98#7, 1#6, 0#6, a, b, v.ls, v.q, v.k, 0#3, c ++ 0#14⟩
  | .ldI8 d a imm => some ⟨100#7, 0#6, d, a, 0#6, 0#3, 0#3, 0#1, 0#3, imm⟩
  | .ldI16 d a imm => some ⟨100#7, 1#6, d, a, 0#6, 0#3, 0#3, 0#1, 0#3, imm⟩
  | .ldI32 d a imm => some ⟨100#7, 2#6, d, a, 0#6, 0#3, 0#3, 0#1, 0#3, imm⟩
  | .ldI64 d a imm => some ⟨100#7, 3#6, d, a, 0#6, 0#3, 0#3, 0#1, 0#3, imm⟩
  | .ldN8 d a imm => some ⟨100#7, 4#6, d, a, 0#6, 0#3, 0#3, 0#1, 0#3, imm⟩
  | .ldN16 d a imm => some ⟨100#7, 5#6, d, a, 0#6, 0#3, 0#3, 0#1, 0#3, imm⟩
  | .ldN32 d a imm => some ⟨100#7, 6#6, d, a, 0#6, 0#3, 0#3, 0#1, 0#3, imm⟩
  | .st8 d a imm => some ⟨101#7, 0#6, d, a, 0#6, 0#3, 0#3, 0#1, 0#3, imm⟩
  | .st16 d a imm => some ⟨101#7, 1#6, d, a, 0#6, 0#3, 0#3, 0#1, 0#3, imm⟩
  | .st32 d a imm => some ⟨101#7, 2#6, d, a, 0#6, 0#3, 0#3, 0#1, 0#3, imm⟩
  | .st64 d a imm => some ⟨101#7, 3#6, d, a, 0#6, 0#3, 0#3, 0#1, 0#3, imm⟩
  | .vld v d a b rm ty sat t disp => some ⟨102#7, 0#6, d, a, b, v.ls, v.q, v.k, rm.code, 0#6 ++ ty.code ++ sat ++ t ++ disp⟩
  | .vst v a b c ty t disp => some ⟨102#7, 1#6, 0#6, a, b, v.ls, v.q, v.k, 0#3, c ++ ty.code ++ 0#1 ++ t ++ disp⟩
  | .vlds v d a b ty disp => some ⟨102#7, 2#6, d, a, b, v.ls, v.q, v.k, 0#3, 0#6 ++ ty.code ++ 0#2 ++ disp⟩
  | .vsts v a b c ty disp => some ⟨102#7, 3#6, 0#6, a, b, v.ls, v.q, v.k, 0#3, c ++ ty.code ++ 0#2 ++ disp⟩
  | .vgat v d a b rm ty sat mode k => some ⟨103#7, 0#6, d, a, b, v.ls, v.q, v.k, rm.code, 0#6 ++ ty.code ++ sat ++ mode ++ 0#5 ++ k⟩
  | .vsca v a b c ty mode k => some ⟨103#7, 1#6, 0#6, a, b, v.ls, v.q, v.k, 0#3, c ++ ty.code ++ 0#1 ++ mode ++ 0#5 ++ k⟩
  | .vgpool v d a b rm c ty sat mode k => some ⟨104#7, 0#6, d, a, b, v.ls, v.q, v.k, rm.code, c ++ ty.code ++ sat ++ mode ++ 0#5 ++ k⟩
  | .vsadd v a b c ty sat mode k => some ⟨104#7, 1#6, 0#6, a, b, v.ls, v.q, v.k, 0#3, c ++ ty.code ++ sat ++ mode ++ 0#5 ++ k⟩
  | .tcopy d a b c => some ⟨105#7, 0#6, d, a, b, 0#3, 0#3, 0#1, 0#3, c ++ 0#12 ++ 0#2⟩
  | .tcopyMig d a b => some ⟨105#7, 0#6, d, a, b, 0#3, 0#3, 0#1, 0#3, 0#6 ++ 0#12 ++ 1#2⟩
  | .tcopyRes d a => some ⟨105#7, 0#6, d, a, 0#6, 0#3, 0#3, 0#1, 0#3, 0#6 ++ 0#12 ++ 2#2⟩
  | .slabGrow d a b => some ⟨106#7, 0#6, d, a, b, 0#3, 0#3, 0#1, 0#3, 0#20⟩
  | .smapSet d a b => some ⟨106#7, 1#6, d, a, b, 0#3, 0#3, 0#1, 0#3, 0#20⟩
  | .smapInv d a b => some ⟨106#7, 2#6, d, a, b, 0#3, 0#3, 0#1, 0#3, 0#20⟩
  | .bankMode d a b => some ⟨107#7, 0#6, d, a, b, 0#3, 0#3, 0#1, 0#3, 0#20⟩
  | .tlbinvPg a b => some ⟨108#7, 0#6, 0#6, a, b, 0#3, 0#3, 0#1, 0#3, 0#20⟩
  | .tlbinvAs a => some ⟨108#7, 0#6, 0#6, a, 0#6, 0#3, 0#3, 0#1, 0#3, 0#18 ++ 1#2⟩
  | .tlbinvAll => some ⟨108#7, 0#6, 0#6, 0#6, 0#6, 0#3, 0#3, 0#1, 0#3, 0#18 ++ 2#2⟩
  | .pprobe d a => some ⟨108#7, 1#6, d, a, 0#6, 0#3, 0#3, 0#1, 0#3, 0#20⟩
  | .asidSwSet a => some ⟨109#7, 0#6, 0#6, a, 0#6, 0#3, 0#3, 0#1, 0#3, 0#20⟩
  | .asidSwBind d a b => some ⟨109#7, 0#6, d, a, b, 0#3, 0#3, 0#1, 0#3, 0#18 ++ 1#2⟩
  | .asidSwDrop d a => some ⟨109#7, 0#6, d, a, 0#6, 0#3, 0#3, 0#1, 0#3, 0#18 ++ 2#2⟩
  | .amoSwap d a b ty ord => some ⟨112#7, 0#6, d, a, b, 0#3, 0#3, 0#1, 0#3, 0#6 ++ ty.code ++ 0#8 ++ ord⟩
  | .amoCas d a b c ty ord => some ⟨112#7, 1#6, d, a, b, 0#3, 0#3, 0#1, 0#3, c ++ ty.code ++ 0#8 ++ ord⟩
  | .amoAdd d a b ty ord => some ⟨112#7, 2#6, d, a, b, 0#3, 0#3, 0#1, 0#3, 0#6 ++ ty.code ++ 0#8 ++ ord⟩
  | .amoFadd d a b ty ord => some ⟨112#7, 3#6, d, a, b, 0#3, 0#3, 0#1, 0#3, 0#6 ++ ty.code ++ 0#8 ++ ord⟩
  | .amoAnd d a b ty ord => some ⟨112#7, 4#6, d, a, b, 0#3, 0#3, 0#1, 0#3, 0#6 ++ ty.code ++ 0#8 ++ ord⟩
  | .amoOr d a b ty ord => some ⟨112#7, 5#6, d, a, b, 0#3, 0#3, 0#1, 0#3, 0#6 ++ ty.code ++ 0#8 ++ ord⟩
  | .amoXor d a b ty ord => some ⟨112#7, 6#6, d, a, b, 0#3, 0#3, 0#1, 0#3, 0#6 ++ ty.code ++ 0#8 ++ ord⟩
  | .amoMin d a b ty ord => some ⟨112#7, 7#6, d, a, b, 0#3, 0#3, 0#1, 0#3, 0#6 ++ ty.code ++ 0#8 ++ ord⟩
  | .amoMax d a b ty ord => some ⟨112#7, 8#6, d, a, b, 0#3, 0#3, 0#1, 0#3, 0#6 ++ ty.code ++ 0#8 ++ ord⟩
  | .amoMinn d a b ty ord => some ⟨112#7, 9#6, d, a, b, 0#3, 0#3, 0#1, 0#3, 0#6 ++ ty.code ++ 0#8 ++ ord⟩
  | .amoMaxn d a b ty ord => some ⟨112#7, 10#6, d, a, b, 0#3, 0#3, 0#1, 0#3, 0#6 ++ ty.code ++ 0#8 ++ ord⟩
  | .vamoSwap v d a b c ty mode ret ord k => some ⟨113#7, 0#6, d, a, b, v.ls, v.q, v.k, 0#3, c ++ ty.code ++ 0#1 ++ mode ++ ret ++ ord ++ 0#2 ++ k⟩
  | .vamoCas v d a b c ty mode ret ord k => some ⟨113#7, 1#6, d, a, b, v.ls, v.q, v.k, 0#3, c ++ ty.code ++ 0#1 ++ mode ++ ret ++ ord ++ 0#2 ++ k⟩
  | .vamoAdd v d a b c ty mode ret ord k => some ⟨113#7, 2#6, d, a, b, v.ls, v.q, v.k, 0#3, c ++ ty.code ++ 0#1 ++ mode ++ ret ++ ord ++ 0#2 ++ k⟩
  | .vamoFadd v d a b c ty mode ret ord k => some ⟨113#7, 3#6, d, a, b, v.ls, v.q, v.k, 0#3, c ++ ty.code ++ 0#1 ++ mode ++ ret ++ ord ++ 0#2 ++ k⟩
  | .vamoAnd v d a b c ty mode ret ord k => some ⟨113#7, 4#6, d, a, b, v.ls, v.q, v.k, 0#3, c ++ ty.code ++ 0#1 ++ mode ++ ret ++ ord ++ 0#2 ++ k⟩
  | .vamoOr v d a b c ty mode ret ord k => some ⟨113#7, 5#6, d, a, b, v.ls, v.q, v.k, 0#3, c ++ ty.code ++ 0#1 ++ mode ++ ret ++ ord ++ 0#2 ++ k⟩
  | .vamoXor v d a b c ty mode ret ord k => some ⟨113#7, 6#6, d, a, b, v.ls, v.q, v.k, 0#3, c ++ ty.code ++ 0#1 ++ mode ++ ret ++ ord ++ 0#2 ++ k⟩
  | .vamoMin v d a b c ty mode ret ord k => some ⟨113#7, 7#6, d, a, b, v.ls, v.q, v.k, 0#3, c ++ ty.code ++ 0#1 ++ mode ++ ret ++ ord ++ 0#2 ++ k⟩
  | .vamoMax v d a b c ty mode ret ord k => some ⟨113#7, 8#6, d, a, b, v.ls, v.q, v.k, 0#3, c ++ ty.code ++ 0#1 ++ mode ++ ret ++ ord ++ 0#2 ++ k⟩
  | .vamoMinn v d a b c ty mode ret ord k => some ⟨113#7, 9#6, d, a, b, v.ls, v.q, v.k, 0#3, c ++ ty.code ++ 0#1 ++ mode ++ ret ++ ord ++ 0#2 ++ k⟩
  | .vamoMaxn v d a b c ty mode ret ord k => some ⟨113#7, 10#6, d, a, b, v.ls, v.q, v.k, 0#3, c ++ ty.code ++ 0#1 ++ mode ++ ret ++ ord ++ 0#2 ++ k⟩
  | .vgl v d a b rm ty sat mode k => some ⟨114#7, 0#6, d, a, b, v.ls, v.q, v.k, rm.code, 0#6 ++ ty.code ++ sat ++ mode ++ 0#5 ++ k⟩
  | .vscc v d a b c ty mode k => some ⟨114#7, 1#6, d, a, b, v.ls, v.q, v.k, 0#3, c ++ ty.code ++ 0#1 ++ mode ++ 0#5 ++ k⟩
  | .xredAdd v d a ty g => some ⟨115#7, 0#6, d, a, 0#6, v.ls, v.q, v.k, 0#3, 0#6 ++ ty.code ++ 0#7 ++ g⟩
  | .xredMin v d a ty g => some ⟨115#7, 1#6, d, a, 0#6, v.ls, v.q, v.k, 0#3, 0#6 ++ ty.code ++ 0#7 ++ g⟩
  | .xredMax v d a ty g => some ⟨115#7, 2#6, d, a, 0#6, v.ls, v.q, v.k, 0#3, 0#6 ++ ty.code ++ 0#7 ++ g⟩
  | .fence => some ⟨116#7, 0#6, 0#6, 0#6, 0#6, 0#3, 0#3, 0#1, 0#3, 0#20⟩
  | .fenceFab => some ⟨116#7, 1#6, 0#6, 0#6, 0#6, 0#3, 0#3, 0#1, 0#3, 0#17 ++ 0#1 ++ 0#2⟩
  | .fenceFabAcq => some ⟨116#7, 1#6, 0#6, 0#6, 0#6, 0#3, 0#3, 0#1, 0#3, 0#17 ++ 0#1 ++ 1#2⟩
  | .fenceFabRel => some ⟨116#7, 1#6, 0#6, 0#6, 0#6, 0#3, 0#3, 0#1, 0#3, 0#17 ++ 0#1 ++ 2#2⟩
  | .fenceFabAcqLoad d a => some ⟨116#7, 1#6, d, a, 0#6, 0#3, 0#3, 0#1, 0#3, 0#17 ++ 1#1 ++ 1#2⟩
  | .fenceFabRelStore a b => some ⟨116#7, 1#6, 0#6, a, b, 0#3, 0#3, 0#1, 0#3, 0#17 ++ 1#1 ++ 2#2⟩
  | .fencePool => some ⟨116#7, 2#6, 0#6, 0#6, 0#6, 0#3, 0#3, 0#1, 0#3, 0#17 ++ 0#1 ++ 0#2⟩
  | .fencePoolAcq => some ⟨116#7, 2#6, 0#6, 0#6, 0#6, 0#3, 0#3, 0#1, 0#3, 0#17 ++ 0#1 ++ 1#2⟩
  | .fencePoolRel => some ⟨116#7, 2#6, 0#6, 0#6, 0#6, 0#3, 0#3, 0#1, 0#3, 0#17 ++ 0#1 ++ 2#2⟩
  | .fencePoolAcqLoad d a => some ⟨116#7, 2#6, d, a, 0#6, 0#3, 0#3, 0#1, 0#3, 0#17 ++ 1#1 ++ 1#2⟩
  | .fencePoolRelStore a b => some ⟨116#7, 2#6, 0#6, a, b, 0#3, 0#3, 0#1, 0#3, 0#17 ++ 1#1 ++ 2#2⟩
  | .waitTl a b => some ⟨117#7, 0#6, 0#6, a, b, 0#3, 0#3, 0#1, 0#3, 0#20⟩
  | .tlNext d a => some ⟨117#7, 1#6, d, a, 0#6, 0#3, 0#3, 0#1, 0#3, 0#20⟩
  | .twalk v d a b c ty gn => some ⟨120#7, 0#6, d, a, b, v.ls, v.q, v.k, 0#3, c ++ ty.code ++ 0#5 ++ 0#1 ++ gn⟩
  | .twalkX v d a b c ty gn => some ⟨120#7, 0#6, d, a, b, v.ls, v.q, v.k, 0#3, c ++ ty.code ++ 0#5 ++ 1#1 ++ gn⟩
  | .twupd d a b c ty => some ⟨120#7, 1#6, d, a, b, 0#3, 0#3, 0#1, 0#3, c ++ ty.code ++ 0#10⟩
  | .twrd v d a p => some ⟨120#7, 2#6, d, a, 0#6, v.ls, v.q, v.k, 0#3, 0#6 ++ 8#4 ++ 0#8 ++ p⟩
  | .twbuild d a b c ty => some ⟨121#7, 0#6, d, a, b, 0#3, 0#3, 0#1, 0#3, c ++ ty.code ++ 0#10⟩
  | .nop => some ⟨127#7, 0#6, 0#6, 0#6, 0#6, 0#3, 0#3, 0#1, 0#3, 0#20⟩
  | .yield_ => some ⟨127#7, 1#6, 0#6, 0#6, 0#6, 0#3, 0#3, 0#1, 0#3, 0#20⟩
  | .pf a disp => some ⟨127#7, 2#6, 0#6, a, 0#6, 0#3, 0#3, 0#1, 0#3, 0#9 ++ 0#1 ++ 0#1 ++ disp⟩
  | .pfW a disp => some ⟨127#7, 2#6, 0#6, a, 0#6, 0#3, 0#3, 0#1, 0#3, 0#9 ++ 1#1 ++ 0#1 ++ disp⟩
  | .hintNop fn d a b v rm x => some ⟨127#7, fn, d, a, b, v.ls, v.q, v.k, rm.code, x⟩
  | .nopC => none
  | .addC _ _ => none
  | .subC _ _ => none
  | .mulC _ _ => none
  | .andC _ _ => none
  | .orC _ _ => none
  | .xorC _ _ => none
  | .andnC _ _ => none
  | .shlC _ _ => none
  | .shrC _ _ => none
  | .sraC _ _ => none
  | .minC _ _ => none
  | .maxC _ _ => none
  | .minnC _ _ => none
  | .maxnC _ _ => none
  | .liC _ _ => none
  | .vaddC _ _ => none
  | .vsubC _ _ => none
  | .vmulC _ _ => none
  | .vandC _ _ => none
  | .vorC _ _ => none
  | .vxorC _ _ => none
  | .vshlC _ _ => none
  | .vshrC _ _ => none
  | .vsraC _ _ => none
  | .vminC _ _ => none
  | .vmaxC _ _ => none
  | .vfaddC _ _ => none
  | .vfsubC _ _ => none
  | .vfmulC _ _ => none
  | .vfminC _ _ => none
  | .vfmaxC _ _ => none
  | .backingStoreSpill _ _ => none
  | .backingStoreRefill _ _ => none
  | .laneGrant _ => none
  | .tileFillComplete _ _ => none
  | .tileDrainComplete _ _ => none
  | .latchCopy _ => none
  | .latchCopyComplete _ => none
  | .reelStorageRelease _ _ => none
  | .hmovDelivery _ _ => none
  | .bankModeSwitchComplete _ _ => none
  | .fifoPush _ _ => none
  | .fifoPop _ _ => none
  | .vmuLineReply _ _ => none
  | .peerAccessRequest _ => none
  | .peerTimeout _ _ _ => none
  | .memoryEventPerform _ _ => none
  | .tcopyChunk _ => none
  | .engineFaultQueueWrite _ => none
  | .migrationLineCopy _ => none
  | .slabLineCopy _ => none
  | .commandComplete _ => none
  | .xredContribution _ _ _ => none
  | .walkerService _ => none
  | .elementFire _ _ => none
  | .convoyRetire _ _ => none
  | .trapDelivery _ _ => none
  | .mwaitWake _ _ => none
  | .mwaitTimeout _ _ => none
  | .monitorLost _ _ => none
  | .tideMarkRise _ _ => none
  | .barrierRelease _ _ _ => none
  | .launchGroupStart => none
  | .ownerScrub _ _ => none
  | .bankOwnerZeroing _ _ _ => none
  | .lqageExpiry _ => none
  | .haltRetire _ _ => none
  | .powerLimitChange _ _ => none
  | .lanePowerUp _ => none
  | .laneRollback _ _ _ => none
  | .lmapFailMark _ _ => none
  | .dailiesRecheck _ _ => none
  | .dailiesVote _ _ _ => none
  | .eccCorrection _ => none
  | .hostWrite _ _ _ => none
  | .hostRead _ _ _ => none
  | .hmsiStore _ => none
  | .devregWrite _ _ _ => none
  | .japp _ => none
  | .jstat _ => none
  | .fwreqInstallKey _ => none
  | .fwreqRemoveKey _ => none
  | .fwreqAttestation _ => none
  | .pdecEnable _ _ => none
  | .pdecDisable _ _ => none
  | .cxlPoisonReport _ _ => none
  | .flitReplay _ _ => none
  | .laneRecalibration _ => none
  | .portRetrain _ => none
  | .deviceDownReport _ => none
  | .gangPrepareAck _ _ _ => none
  | .gangCommit _ => none
  | .gangCommitResend _ => none
  | .gangAbort _ => none
  | .gangPartRetired _ _ => none
  | .deviceReset => none
  | .powerUpStage => none
  | .bootImageVerify _ => none
  | .journalRecovery => none
  | .supervisorStart => none
  | .unitOutOfService _ _ => none
  | .instructionFetch _ _ => none
  | .illegalInstruction _ _ => none
  | .cacheEviction _ => none
  | .laneRecalibrationEnd _ _ => none
  | .portRetrainEnd _ => none
  | .gangAcknowledgement _ _ _ => none
  | .memberAbort _ => none

/-- The bits of a compact slot (R43, R44); none for anything else. -/
def slotOf (i : Instr) : Option (BitVec 30) :=
  match i with
  | .nopC => some 0#30
  | .addC d o => some (1#5 ++ d ++ o.bits)
  | .subC d o => some (2#5 ++ d ++ o.bits)
  | .mulC d o => some (3#5 ++ d ++ o.bits)
  | .andC d o => some (4#5 ++ d ++ o.bits)
  | .orC d o => some (5#5 ++ d ++ o.bits)
  | .xorC d o => some (6#5 ++ d ++ o.bits)
  | .andnC d o => some (7#5 ++ d ++ o.bits)
  | .shlC d o => some (8#5 ++ d ++ o.bits)
  | .shrC d o => some (9#5 ++ d ++ o.bits)
  | .sraC d o => some (10#5 ++ d ++ o.bits)
  | .minC d o => some (11#5 ++ d ++ o.bits)
  | .maxC d o => some (12#5 ++ d ++ o.bits)
  | .minnC d o => some (13#5 ++ d ++ o.bits)
  | .maxnC d o => some (14#5 ++ d ++ o.bits)
  | .liC d o => some (15#5 ++ d ++ o.bits)
  | .vaddC d o => some (16#5 ++ d ++ o.bits)
  | .vsubC d o => some (17#5 ++ d ++ o.bits)
  | .vmulC d o => some (18#5 ++ d ++ o.bits)
  | .vandC d o => some (19#5 ++ d ++ o.bits)
  | .vorC d o => some (20#5 ++ d ++ o.bits)
  | .vxorC d o => some (21#5 ++ d ++ o.bits)
  | .vshlC d o => some (22#5 ++ d ++ o.bits)
  | .vshrC d o => some (23#5 ++ d ++ o.bits)
  | .vsraC d o => some (24#5 ++ d ++ o.bits)
  | .vminC d o => some (25#5 ++ d ++ o.bits)
  | .vmaxC d o => some (26#5 ++ d ++ o.bits)
  | .vfaddC d o => some (27#5 ++ d ++ o.bits)
  | .vfsubC d o => some (28#5 ++ d ++ o.bits)
  | .vfmulC d o => some (29#5 ++ d ++ o.bits)
  | .vfminC d o => some (30#5 ++ d ++ o.bits)
  | .vfmaxC d o => some (31#5 ++ d ++ o.bits)
  | .b _ => none
  | .beq _ _ _ => none
  | .bne _ _ _ => none
  | .blt _ _ _ => none
  | .bge _ _ _ => none
  | .bltn _ _ _ => none
  | .bgen _ _ _ => none
  | .bz _ _ => none
  | .bnz _ _ => none
  | .jmp _ => none
  | .calli _ => none
  | .ret => none
  | .call _ => none
  | .mwait _ _ _ _ => none
  | .halt => none
  | .launch _ _ => none
  | .glaunch _ _ => none
  | .widGet _ => none
  | .widGetField _ _ => none
  | .barK _ => none
  | .tmBind _ _ _ _ => none
  | .tmAdv _ _ _ => none
  | .tmRd _ _ => none
  | .ldco _ _ _ => none
  | .ldcoDrop _ _ => none
  | .trap _ => none
  | .sret => none
  | .ctxSave _ _ _ => none
  | .ctxLoad _ _ _ => none
  | .erecRd _ _ _ => none
  | .add _ _ _ => none
  | .sub _ _ _ => none
  | .mul _ _ _ => none
  | .mulh _ _ _ => none
  | .mulhn _ _ _ => none
  | .sAnd _ _ _ => none
  | .sOr _ _ _ => none
  | .sXor _ _ _ => none
  | .andn _ _ _ => none
  | .shl _ _ _ => none
  | .shr _ _ _ => none
  | .sra _ _ _ => none
  | .rol _ _ _ => none
  | .sMin _ _ _ => none
  | .sMax _ _ _ => none
  | .minn _ _ _ => none
  | .maxn _ _ _ => none
  | .slt _ _ _ => none
  | .sltn _ _ _ => none
  | .addi _ _ _ => none
  | .subi _ _ _ => none
  | .muli _ _ _ => none
  | .mulhi _ _ _ => none
  | .mulhni _ _ _ => none
  | .andi _ _ _ => none
  | .ori _ _ _ => none
  | .xori _ _ _ => none
  | .andni _ _ _ => none
  | .shli _ _ _ => none
  | .shri _ _ _ => none
  | .srai _ _ _ => none
  | .roli _ _ _ => none
  | .mini _ _ _ => none
  | .maxi _ _ _ => none
  | .minni _ _ _ => none
  | .maxni _ _ _ => none
  | .slti _ _ _ => none
  | .sltni _ _ _ => none
  | .div _ _ _ => none
  | .divn _ _ _ => none
  | .rem _ _ _ => none
  | .remn _ _ _ => none
  | .clz _ _ => none
  | .ctz _ _ => none
  | .popc _ _ => none
  | .sel _ _ _ _ => none
  | .li _ _ => none
  | .lui _ _ => none
  | .adr _ _ => none
  | .lsa _ _ _ _ => none
  | .ext _ _ _ _ => none
  | .extS _ _ _ _ => none
  | .ins _ _ _ _ => none
  | .frame _ => none
  | .faddS _ _ _ _ => none
  | .fsubS _ _ _ _ => none
  | .fmulS _ _ _ _ => none
  | .ffmaS _ _ _ _ _ => none
  | .fdivS _ _ _ _ => none
  | .fsqrtS _ _ _ => none
  | .fcmpSEq _ _ _ => none
  | .fcmpSLt _ _ _ => none
  | .fcmpSLe _ _ _ => none
  | .fcmpSUn _ _ _ => none
  | .fcvtSFi _ _ _ => none
  | .fcvtSFn _ _ _ => none
  | .fcvtSIf _ _ _ => none
  | .fcvtSNf _ _ _ => none
  | .mfs _ _ => none
  | .mts _ _ => none
  | .mvlWrite _ _ => none
  | .tshapeWrite _ _ => none
  | .dlymodeClr _ _ => none
  | .efqWrite _ _ => none
  | .vsetl _ _ _ => none
  | .vrel => none
  | .vspill _ _ _ _ _ => none
  | .vfill _ _ _ _ => none
  | .vadd _ _ _ _ _ _ => none
  | .vsub _ _ _ _ _ _ => none
  | .vmul _ _ _ _ _ _ => none
  | .vmulh _ _ _ _ _ => none
  | .vmin _ _ _ _ _ => none
  | .vmax _ _ _ _ _ => none
  | .vand _ _ _ _ _ => none
  | .vor _ _ _ _ _ => none
  | .vxor _ _ _ _ _ => none
  | .vshl _ _ _ _ _ => none
  | .vshr _ _ _ _ _ => none
  | .vsra _ _ _ _ _ => none
  | .vcmpEq _ _ _ _ _ => none
  | .vcmpNe _ _ _ _ _ => none
  | .vcmpLt _ _ _ _ _ => none
  | .vcmpLe _ _ _ _ _ => none
  | .vwadd _ _ _ _ _ _ _ => none
  | .vwmul _ _ _ _ _ _ _ => none
  | .vwmac _ _ _ _ _ _ _ _ _ => none
  | .vmov _ _ _ _ => none
  | .vid _ _ _ => none
  | .vsel _ _ _ _ _ => none
  | .vdup _ _ _ _ _ => none
  | .vperm _ _ _ _ _ => none
  | .vslup _ _ _ _ _ => none
  | .vsldn _ _ _ _ _ => none
  | .vcmprs _ _ _ _ => none
  | .vexpnd _ _ _ _ => none
  | .qand _ _ _ _ => none
  | .qor _ _ _ _ => none
  | .qxor _ _ _ _ => none
  | .qnot _ _ _ => none
  | .qpopc _ _ _ => none
  | .qfirst _ _ _ => none
  | .vbmand _ _ _ _ _ => none
  | .vbpfx _ _ _ _ => none
  | .vxsect _ _ _ _ _ => none
  | .vconf _ _ _ _ _ => none
  | .vfadd _ _ _ _ _ _ => none
  | .vfsub _ _ _ _ _ _ => none
  | .vfmul _ _ _ _ _ _ => none
  | .vfmin _ _ _ _ _ => none
  | .vfmax _ _ _ _ _ => none
  | .vfma _ _ _ _ _ _ _ => none
  | .vfms _ _ _ _ _ _ _ => none
  | .vfnma _ _ _ _ _ _ _ => none
  | .vfdiv _ _ _ _ _ _ => none
  | .vfsqrt _ _ _ _ _ => none
  | .vrcp _ _ _ _ _ => none
  | .vrsqrt _ _ _ _ _ => none
  | .vexp2 _ _ _ _ _ => none
  | .vfcmpEq _ _ _ _ _ => none
  | .vfcmpLt _ _ _ _ _ => none
  | .vfcmpLe _ _ _ _ _ => none
  | .vfcmpUn _ _ _ _ _ => none
  | .vredoAdd _ _ _ _ _ _ _ => none
  | .vredoMin _ _ _ _ _ => none
  | .vredoMax _ _ _ _ _ => none
  | .vredoAnd _ _ _ _ _ => none
  | .vredoOr _ _ _ _ _ => none
  | .vredoXor _ _ _ _ _ => none
  | .vredtAdd _ _ _ _ _ _ _ => none
  | .vredtMin _ _ _ _ _ => none
  | .vredtMax _ _ _ _ _ => none
  | .vredtAnd _ _ _ _ _ => none
  | .vredtOr _ _ _ _ _ => none
  | .vredtXor _ _ _ _ _ => none
  | .vscanAdd _ _ _ _ _ _ _ => none
  | .vscanMin _ _ _ _ _ => none
  | .vscanMax _ _ _ _ _ => none
  | .vscanAnd _ _ _ _ _ => none
  | .vscanOr _ _ _ _ _ => none
  | .vscanXor _ _ _ _ _ => none
  | .fmtSet _ _ => none
  | .tidBind _ _ => none
  | .tidRd _ _ _ => none
  | .vcvtTo _ _ _ _ _ _ _ => none
  | .vcvtFrom _ _ _ _ _ _ _ => none
  | .vpack _ _ _ _ _ => none
  | .vunpk _ _ _ _ _ => none
  | .vscl _ _ _ _ _ _ _ _ => none
  | .vquant _ _ _ _ _ _ _ => none
  | .tld _ _ _ _ => none
  | .tldt _ _ _ _ => none
  | .tst _ _ _ _ => none
  | .tzero _ _ => none
  | .tlatch _ _ => none
  | .mmr _ _ _ _ _ => none
  | .mmrT _ _ _ _ _ _ => none
  | .mmrRep _ _ _ _ _ _ => none
  | .mmrSk _ _ _ _ _ _ => none
  | .rnew _ _ _ _ => none
  | .rcut _ _ _ _ _ => none
  | .rsplc _ _ _ => none
  | .rfree _ => none
  | .hmov _ _ _ => none
  | .hinfo _ _ _ => none
  | .rld _ _ _ _ => none
  | .rst _ _ _ _ => none
  | .ldI8 _ _ _ => none
  | .ldI16 _ _ _ => none
  | .ldI32 _ _ _ => none
  | .ldI64 _ _ _ => none
  | .ldN8 _ _ _ => none
  | .ldN16 _ _ _ => none
  | .ldN32 _ _ _ => none
  | .st8 _ _ _ => none
  | .st16 _ _ _ => none
  | .st32 _ _ _ => none
  | .st64 _ _ _ => none
  | .vld _ _ _ _ _ _ _ _ _ => none
  | .vst _ _ _ _ _ _ _ => none
  | .vlds _ _ _ _ _ _ => none
  | .vsts _ _ _ _ _ _ => none
  | .vgat _ _ _ _ _ _ _ _ _ => none
  | .vsca _ _ _ _ _ _ _ => none
  | .vgpool _ _ _ _ _ _ _ _ _ _ => none
  | .vsadd _ _ _ _ _ _ _ _ => none
  | .tcopy _ _ _ _ => none
  | .tcopyMig _ _ _ => none
  | .tcopyRes _ _ => none
  | .slabGrow _ _ _ => none
  | .smapSet _ _ _ => none
  | .smapInv _ _ _ => none
  | .bankMode _ _ _ => none
  | .tlbinvPg _ _ => none
  | .tlbinvAs _ => none
  | .tlbinvAll => none
  | .pprobe _ _ => none
  | .asidSwSet _ => none
  | .asidSwBind _ _ _ => none
  | .asidSwDrop _ _ => none
  | .amoSwap _ _ _ _ _ => none
  | .amoCas _ _ _ _ _ _ => none
  | .amoAdd _ _ _ _ _ => none
  | .amoFadd _ _ _ _ _ => none
  | .amoAnd _ _ _ _ _ => none
  | .amoOr _ _ _ _ _ => none
  | .amoXor _ _ _ _ _ => none
  | .amoMin _ _ _ _ _ => none
  | .amoMax _ _ _ _ _ => none
  | .amoMinn _ _ _ _ _ => none
  | .amoMaxn _ _ _ _ _ => none
  | .vamoSwap _ _ _ _ _ _ _ _ _ _ => none
  | .vamoCas _ _ _ _ _ _ _ _ _ _ => none
  | .vamoAdd _ _ _ _ _ _ _ _ _ _ => none
  | .vamoFadd _ _ _ _ _ _ _ _ _ _ => none
  | .vamoAnd _ _ _ _ _ _ _ _ _ _ => none
  | .vamoOr _ _ _ _ _ _ _ _ _ _ => none
  | .vamoXor _ _ _ _ _ _ _ _ _ _ => none
  | .vamoMin _ _ _ _ _ _ _ _ _ _ => none
  | .vamoMax _ _ _ _ _ _ _ _ _ _ => none
  | .vamoMinn _ _ _ _ _ _ _ _ _ _ => none
  | .vamoMaxn _ _ _ _ _ _ _ _ _ _ => none
  | .vgl _ _ _ _ _ _ _ _ _ => none
  | .vscc _ _ _ _ _ _ _ _ => none
  | .xredAdd _ _ _ _ _ => none
  | .xredMin _ _ _ _ _ => none
  | .xredMax _ _ _ _ _ => none
  | .fence => none
  | .fenceFab => none
  | .fenceFabAcq => none
  | .fenceFabRel => none
  | .fenceFabAcqLoad _ _ => none
  | .fenceFabRelStore _ _ => none
  | .fencePool => none
  | .fencePoolAcq => none
  | .fencePoolRel => none
  | .fencePoolAcqLoad _ _ => none
  | .fencePoolRelStore _ _ => none
  | .waitTl _ _ => none
  | .tlNext _ _ => none
  | .twalk _ _ _ _ _ _ _ => none
  | .twalkX _ _ _ _ _ _ _ => none
  | .twupd _ _ _ _ _ => none
  | .twrd _ _ _ _ => none
  | .twbuild _ _ _ _ _ => none
  | .nop => none
  | .yield_ => none
  | .pf _ _ => none
  | .pfW _ _ => none
  | .hintNop _ _ _ _ _ _ _ => none
  | .backingStoreSpill _ _ => none
  | .backingStoreRefill _ _ => none
  | .laneGrant _ => none
  | .tileFillComplete _ _ => none
  | .tileDrainComplete _ _ => none
  | .latchCopy _ => none
  | .latchCopyComplete _ => none
  | .reelStorageRelease _ _ => none
  | .hmovDelivery _ _ => none
  | .bankModeSwitchComplete _ _ => none
  | .fifoPush _ _ => none
  | .fifoPop _ _ => none
  | .vmuLineReply _ _ => none
  | .peerAccessRequest _ => none
  | .peerTimeout _ _ _ => none
  | .memoryEventPerform _ _ => none
  | .tcopyChunk _ => none
  | .engineFaultQueueWrite _ => none
  | .migrationLineCopy _ => none
  | .slabLineCopy _ => none
  | .commandComplete _ => none
  | .xredContribution _ _ _ => none
  | .walkerService _ => none
  | .elementFire _ _ => none
  | .convoyRetire _ _ => none
  | .trapDelivery _ _ => none
  | .mwaitWake _ _ => none
  | .mwaitTimeout _ _ => none
  | .monitorLost _ _ => none
  | .tideMarkRise _ _ => none
  | .barrierRelease _ _ _ => none
  | .launchGroupStart => none
  | .ownerScrub _ _ => none
  | .bankOwnerZeroing _ _ _ => none
  | .lqageExpiry _ => none
  | .haltRetire _ _ => none
  | .powerLimitChange _ _ => none
  | .lanePowerUp _ => none
  | .laneRollback _ _ _ => none
  | .lmapFailMark _ _ => none
  | .dailiesRecheck _ _ => none
  | .dailiesVote _ _ _ => none
  | .eccCorrection _ => none
  | .hostWrite _ _ _ => none
  | .hostRead _ _ _ => none
  | .hmsiStore _ => none
  | .devregWrite _ _ _ => none
  | .japp _ => none
  | .jstat _ => none
  | .fwreqInstallKey _ => none
  | .fwreqRemoveKey _ => none
  | .fwreqAttestation _ => none
  | .pdecEnable _ _ => none
  | .pdecDisable _ _ => none
  | .cxlPoisonReport _ _ => none
  | .flitReplay _ _ => none
  | .laneRecalibration _ => none
  | .portRetrain _ => none
  | .deviceDownReport _ => none
  | .gangPrepareAck _ _ _ => none
  | .gangCommit _ => none
  | .gangCommitResend _ => none
  | .gangAbort _ => none
  | .gangPartRetired _ _ => none
  | .deviceReset => none
  | .powerUpStage => none
  | .bootImageVerify _ => none
  | .journalRecovery => none
  | .supervisorStart => none
  | .unitOutOfService _ _ => none
  | .instructionFetch _ _ => none
  | .illegalInstruction _ _ => none
  | .cacheEviction _ => none
  | .laneRecalibrationEnd _ _ => none
  | .portRetrainEnd _ => none
  | .gangAcknowledgement _ _ _ => none
  | .memberAbort _ => none

/-- The compact op of a slot (R44), before its checks. -/
def rawSlot (s : BitVec 30) : Instr :=
  let d := s.extractLsb' 20 5
  let o := CArg.ofBits (s.extractLsb' 0 20)
  match (s.extractLsb' 25 5).toNat with
  | 1 => .addC d o
  | 2 => .subC d o
  | 3 => .mulC d o
  | 4 => .andC d o
  | 5 => .orC d o
  | 6 => .xorC d o
  | 7 => .andnC d o
  | 8 => .shlC d o
  | 9 => .shrC d o
  | 10 => .sraC d o
  | 11 => .minC d o
  | 12 => .maxC d o
  | 13 => .minnC d o
  | 14 => .maxnC d o
  | 15 => .liC d o
  | 16 => .vaddC d o
  | 17 => .vsubC d o
  | 18 => .vmulC d o
  | 19 => .vandC d o
  | 20 => .vorC d o
  | 21 => .vxorC d o
  | 22 => .vshlC d o
  | 23 => .vshrC d o
  | 24 => .vsraC d o
  | 25 => .vminC d o
  | 26 => .vmaxC d o
  | 27 => .vfaddC d o
  | 28 => .vfsubC d o
  | 29 => .vfmulC d o
  | 30 => .vfminC d o
  | 31 => .vfmaxC d o
  | _ => .nopC

/-- What a legal word holds (R37): one full-form instruction, or the two slots of a pair. -/
inductive Body where
  | one (i : Instr)
  | pair (slotA slotB : Instr)
deriving DecidableEq, Repr

/-- A legal word: its E and L bits and its body (R37). -/
structure WordCode where
  last    : Bool
  landing : Bool
  body    : Body
deriving DecidableEq, Repr

/-- The full form (R38, R42, R50). -/
def decodeFull (w : BitVec 61) : Except DecodeError Instr :=
  let f := Full.unpack w
  match Rm.ofCode f.rm with
  | none => .error .roundingMode
  | some rm =>
    match rawInstr f rm with
    | .error e => .error e
    | .ok i =>
      if fieldsOf i = some f then
        if wellFormed i then .ok i else .error .illegalOperand
      else .error .unusedField

/-- One compact slot (R43, R44). -/
def decodeSlot (s : BitVec 30) : Except DecodeError Instr :=
  let i := rawSlot s
  if slotOf i = some s then
    if wellFormed i then .ok i else .error .slotImmediate
  else .error .slotField

/-- A slot that holds a vector op: cop 0x10 to 0x1F (R44). -/
def slotIsVector (s : BitVec 30) : Bool := s.getLsbD 29

/-- R45: with two vector ops, slot A names an even destination and slot B an odd one. -/
def bankOk (a b : BitVec 30) : Bool :=
  !(slotIsVector a && slotIsVector b) || (!a.getLsbD 20 && b.getLsbD 20)

/-- The pair form (R43, R45). -/
def decodePair (w : BitVec 61) : Except DecodeError Body :=
  if w.getLsbD 0 then .error .pairBit0
  else
    let a := w.extractLsb' 31 30
    let b := w.extractLsb' 1 30
    match decodeSlot a with
    | .error e => .error e
    | .ok i =>
      match decodeSlot b with
      | .error e => .error e
      | .ok j => if bankOk a b then .ok (.pair i j) else .error .bankRule

/-- Any 64-bit word (R37, R50): a legal word, or the reason why it is none. -/
def decodeWord (w : Word) : Except DecodeError WordCode :=
  let body := w.extractLsb' 0 61
  match (if w.getLsbD 62 then decodePair body else (decodeFull body).map Body.one) with
  | .error e => .error e
  | .ok b => .ok ⟨w.getLsbD 63, w.getLsbD 61, b⟩

/-- A word from its bytes, lowest address first (R37: little-endian). -/
def wordOfBytes (b0 b1 b2 b3 b4 b5 b6 b7 : Byte) : Word :=
  b7 ++ b6 ++ b5 ++ b4 ++ b3 ++ b2 ++ b1 ++ b0

/-- The word at the front of a list of bytes, and the rest of the list. -/
def decodeBytes : List Byte → Except DecodeError (WordCode × List Byte)
  | b0 :: b1 :: b2 :: b3 :: b4 :: b5 :: b6 :: b7 :: rest =>
    match decodeWord (wordOfBytes b0 b1 b2 b3 b4 b5 b6 b7) with
    | .error e => .error e
    | .ok c => .ok (c, rest)
  | _ => .error .shortBytes

/-- E, P, L and the 61 bits of a body, as R37 places them. -/
def wordOf (last pairForm landing : Bool) (body : BitVec 61) : Word :=
  BitVec.ofBool last ++ BitVec.ofBool pairForm ++ BitVec.ofBool landing ++ body

/-- The word of a full-form instruction; none where the instruction is no full-form word. -/
def encode (last landing : Bool) (i : Instr) : Option Word :=
  (fieldsOf i).map fun f => wordOf last false landing f.pack

/-- The pair word of two compact slots (R43). -/
def encodePair (last landing : Bool) (i j : Instr) : Option Word :=
  match slotOf i, slotOf j with
  | some a, some b => some (wordOf last true landing (a ++ b ++ 0#1))
  | _, _ => none

/-- The eight bytes of a word, lowest address first. -/
def bytesOfWord (w : Word) : List Byte :=
  [w.extractLsb' 0 8, w.extractLsb' 8 8, w.extractLsb' 16 8, w.extractLsb' 24 8,
   w.extractLsb' 32 8, w.extractLsb' 40 8, w.extractLsb' 48 8, w.extractLsb' 56 8]

/-- The instruction that the decoder reads from a word whose bits are `w` (of a pair word, slot A); the
bits at and above `nbits`, and above 64, are taken as 0. -/
def decodeTableWord (nbits w : Nat) : Option Instr :=
  match decodeBytes (bytesOfWord (BitVec.ofNat 64 (w % 2 ^ min nbits 64))) with
  | .ok (⟨_, _, .one i⟩, _) => some i
  | .ok (⟨_, _, .pair i _⟩, _) => some i
  | .error _ => none

end

end Sys2Proof
end

