-- ==== Sys2Proof/Config.lean ====
section
/-!
DEFINITION. What an implementation fixes and the free values. Every `opaque` constant has no body: no
proof can see a value of it. Each is applied to plain data (the state's `choice` counter, which every
step advances, and the operands it depends on), so that a value is free each time it is used. The log
entries in notes/assumptions name every one.
-/

namespace Sys2Proof.Config

/-- How many cycles pass in one step, less one (log 10). -/
opaque stepCycles : Nat → Nat
/-- Whether the device takes a free choice now: a buffered eviction, a replacement, an early end of a
wait, an event of its own (log 11). -/
opaque takes : Nat → Nat → Bool
/-- Which of several allowed things happens, as a number below the given bound (log 11). -/
opaque pick : Nat → Nat → Nat
/-- Which of the versions that R227 allows a translation reads for the table entry at an address
(log 12). -/
opaque staleEntry : Nat → Nat → Nat
/-- Which of the values that R91 allows a fetch gets for a word of loaded code that has been changed (log 97). -/
opaque oldWord : Nat → Nat → Nat
/-- A byte of a line that was written under another key (log 13). -/
opaque wrongKeyByte : Nat → Nat → Byte
/-- What another device answers for an element of a peer access (log 14), as the remainder by 11: 0 where it performs, the
reason that the home reports, or 10 for data with an uncorrectable error. -/
opaque peerVerdict : Nat → Nat → Nat
/-- Whether a device gives no answer to a request within the time-out (log 14). -/
opaque peerSilent : Nat → Nat → Bool
/-- A byte of an image that holds nothing readable: the data of an element that is not FULL (R314, R333; log 132). -/
opaque undefinedByte : Nat → Nat → Byte
/-- The value another device returns for a peer read (log 14). -/
opaque peerValue : Nat → Nat → Nat
/-- The value of an undefined scalar: what the spec calls undefined or does not state (log 15). -/
opaque freeWord : Nat → Nat → Word
/-- Whether an Ed25519 signature over a digest is valid under a key: digest, key, signature (log 16). -/
opaque signatureValid : List Byte → List Byte → List Byte → Bool
/-- What the boot images hold in places that the spec does not give (log 30): the runtime entry convoy in the manifest,
where firmware loads the runtime image, the table of the runtime's address space, and the key of slot 0. -/
opaque manifestEntry : List Byte → Word
opaque runtimeAddr : List Byte → Nat
opaque runtimeRoot : List Byte → Nat
opaque bootKey : BitVec 512
/-- A signature of 64 bytes made with the device identity key (log 16). -/
opaque signature : List Byte → BitVec 512
/-- Whether a fused multiply-add of 0 and ∞ with a NaN addend raises the invalid exception (log 17). -/
opaque fmaNanInvalid : Bool
/-- The Ed25519 identity public key of the device, and the Olifen root public key, 32 bytes each (log 16). -/
opaque identityKey : BitVec 256
opaque rootKey : BitVec 256
/-- The device behind a Smiend port, if there is one (log 117). -/
opaque portPeer : Nat → Option Nat
/-- For how many cycles a device has answered no flit, as the ports count (log 117). -/
opaque silence : Nat → Nat → Nat

end Sys2Proof.Config
end

