-- ==== Sys2Proof/Machine/Tab.lean ====
section
/-!
DEFINITION. Sparse tables: lists of (key, value) pairs in one canonical form. Keys rise strictly, and
a table with a default value lists no entry that equals it, so that equal contents are equal lists.
Memory, register files and the device's tables are all held this way.
-/

namespace Sys2Proof.Machine

/-- A sparse table keyed by natural numbers. -/
abbrev Tab (α : Type) := List (Nat × α)

/-- What a key holds, or none where it is not listed. -/
def Tab.find {α : Type} : Tab α → Nat → Option α
  | [], _ => none
  | (k, v) :: t, n => if n = k then some v else Tab.find t n

/-- What a key holds, an unlisted key holding `d`. -/
def Tab.get {α : Type} (d : α) (t : Tab α) (n : Nat) : α := (Tab.find t n).getD d

/-- The table without the entry of a key. -/
def Tab.del {α : Type} : Tab α → Nat → Tab α
  | [], _ => []
  | (k, v) :: t, n => if n = k then t else (k, v) :: Tab.del t n

/-- The table with an entry put at its place among the rising keys. -/
def Tab.put {α : Type} : Tab α → Nat → α → Tab α
  | [], n, x => [(n, x)]
  | (k, v) :: t, n, x =>
    if n < k then (n, x) :: (k, v) :: t
    else if n = k then (n, x) :: t
    else (k, v) :: Tab.put t n x

/-- A write: the default value leaves the key unlisted. -/
def Tab.set {α : Type} [DecidableEq α] (d : α) (t : Tab α) (n : Nat) (x : α) : Tab α :=
  if x = d then Tab.del t n else Tab.put t n x

/-- Keys rise strictly, the first above `lo` where one is given. -/
def Tab.rising {α : Type} : Tab α → Option Nat → Bool
  | [], _ => true
  | (k, _) :: t, lo =>
    (match lo with
      | none => true
      | some l => decide (l < k)) && Tab.rising t (some k)

/-- The canonical form of a table with a default value. -/
def Tab.wf {α : Type} [DecidableEq α] (d : α) (t : Tab α) : Bool :=
  Tab.rising t none && t.all fun p => decide (p.2 ≠ d)

end Sys2Proof.Machine
end

