-- ==== Sys2Proof/Machine/VReg.lean ====
section
/-!
DEFINITION. Vector and mask registers with their presence tags (07, R12, R132, R135): 16,384 data bits
with a 2-bit tag for each 8-bit position, and 2,048 mask bits with a tag for each bit.
-/

namespace Sys2Proof.Machine

/-- A presence tag (R132). -/
inductive Tag where
  | empty | full | poison
deriving DecidableEq, Repr

/-- The 2-bit code of a tag (R132). -/
def Tag.code : Tag → Nat
  | .empty => 0
  | .full => 1
  | .poison => 2

/-- The tag of a 2-bit code; the code 0b11 never appears (R132) and is read as POISON. -/
def Tag.ofCode (n : Nat) : Tag :=
  match n % 4 with
  | 0 => .empty
  | 1 => .full
  | _ => .poison

/-- A field of `w` bits at bit `lo` replaced. -/
def putBits {m : Nat} (x : BitVec m) (lo w : Nat) (v : Nat) : BitVec m :=
  (x &&& ~~~(BitVec.ofNat m (2 ^ w - 1) <<< lo)) ||| (BitVec.ofNat m (v % 2 ^ w) <<< lo)

/-- A field of `w` bits at bit `lo`. -/
def getBits {m : Nat} (x : BitVec m) (lo w : Nat) : Nat := x.toNat / 2 ^ lo % 2 ^ w

/-- A physical vector register (R12, R132). -/
structure VReg where
  data : BitVec 16384
  tags : BitVec 4096
deriving DecidableEq, Repr

/-- A physical mask register (R132, R135). -/
structure QReg where
  bits : BitVec 2048
  tags : BitVec 4096
deriving DecidableEq, Repr

/-- What an element holds: nothing readable, a value, or POISON (R132). -/
inductive Elt where
  | empty
  | full (v : Nat)
  | poison
deriving DecidableEq, Repr

/-- Tags with every 2-bit code 0b01. -/
def fullTags : BitVec 4096 := BitVec.ofNat 4096 ((2 ^ 4096 - 1) / 3)

/-- The lane on which element group k of a register lies, under a grant of `w` lanes (R12, R127). -/
def groupLane (w k : Nat) : Nat := k % w

/-- The register row in which it lies there. -/
def groupRow (w k : Nat) : Nat := k / w

/-- The element group of element `i` at width `w`: 64 bits of the register (R12, R127). -/
def groupOf (w i : Nat) : Nat := w * i / 64

/-- Every element 0 and FULL (R126). -/
def VReg.zero : VReg := ⟨0, fullTags⟩
/-- Every element EMPTY (R137: a fresh physical register). -/
def VReg.fresh : VReg := ⟨0, 0⟩
/-- Every bit 0 and FULL (R126). -/
def QReg.zero : QReg := ⟨0, fullTags⟩
/-- Every bit EMPTY. -/
def QReg.fresh : QReg := ⟨0, 0⟩

/-- Element `i` of width `w`; its tag is the common tag of its positions (R132), EMPTY where they
differ (log 126). -/
def VReg.get (r : VReg) (w i : Nat) : Elt :=
  let ts := getBits r.tags (2 * (w / 8) * i) (2 * (w / 8))
  let unit := (4 ^ (w / 8) - 1) / 3
  if 8 * (w / 8) * i + w > 16384 then .empty
  else if ts = unit then .full (getBits r.data (w * i) w)
  else if ts = 2 * unit then .poison
  else .empty

/-- Element `i` of width `w` written, with its tag. An EMPTY element holds nothing, and its bits are left
as 0. -/
def VReg.put (r : VReg) (w i : Nat) (e : Elt) : VReg :=
  let unit := (4 ^ (w / 8) - 1) / 3
  let tag := fun c => putBits r.tags (2 * (w / 8) * i) (2 * (w / 8)) (c * unit)
  match e with
  | .empty => ⟨putBits r.data (w * i) w 0, tag 0⟩
  | .full v => ⟨putBits r.data (w * i) w v, tag 1⟩
  | .poison => ⟨putBits r.data (w * i) w 0, tag 2⟩

/-- Bit `i` of a mask register. -/
def QReg.get (r : QReg) (i : Nat) : Elt :=
  if 2048 ≤ i then .empty
  else
    match Tag.ofCode (getBits r.tags (2 * i) 2) with
    | .empty => .empty
    | .full => .full (getBits r.bits i 1)
    | .poison => .poison

/-- Bit `i` of a mask register written, with its tag. -/
def QReg.put (r : QReg) (i : Nat) (e : Elt) : QReg :=
  match e with
  | .empty => ⟨putBits r.bits i 1 0, putBits r.tags (2 * i) 2 0⟩
  | .full v => ⟨putBits r.bits i 1 v, putBits r.tags (2 * i) 2 1⟩
  | .poison => ⟨putBits r.bits i 1 0, putBits r.tags (2 * i) 2 2⟩

/-- No element of width `w` below the register's end is EMPTY. -/
def VReg.complete (r : VReg) : Bool :=
  (r.tags ||| (r.tags >>> 1)) &&& fullTags == fullTags

/-- No bit is EMPTY. -/
def QReg.complete (r : QReg) : Bool :=
  (r.tags ||| (r.tags >>> 1)) &&& fullTags == fullTags

end Sys2Proof.Machine
end

