-- ==== Sys2Proof/Machine/State.lean ====
section
/-!
DEFINITION. Everything the spec gives the machine, as plain data: the whole device, with sparse tables
for what is large. Each field's docstring names the rule it comes from; INVENTORY.md lists them with
their reset values. `State.reset` is the device right after a device reset.
-/

namespace Sys2Proof.Machine

/-- A privilege level (R7). -/
inductive Level where
  | u | s | m
deriving DecidableEq, Repr

/-- Levels in their order, U lowest (R7); the code of LVL in SLOTST (R83) and the image (R313). -/
def Level.num : Level → Nat
  | .u => 0
  | .s => 1
  | .m => 2

/-- Why the machine stops. Each is an outcome that the manual gives no state for. -/
inductive Fault where
  /-- Raised by every instruction meaning when the slot it acts for holds no strand: only a caller that
  runs `exec` outside `step` can meet it. Safe: nothing is claimed of such a state. -/
  | noStrand
  /-- Raised when a strand at M takes a trap: it goes to firmware, which the manual does not describe
  (R307). Safe: the machine stops where the hardware goes on. -/
  | machineLevel
deriving DecidableEq, Repr

/-- An instruction that has no meaning yet. -/
inductive Refusal where
  /-- Raised by `exec` for an instruction that is not modelled, by its mnemonic in the opcode table.
  Safe: nothing is claimed of what it does. -/
  | notModelled (mnemonic : String)
deriving DecidableEq, Repr

/-- A register name, as R47 and R81 use names. -/
inductive Name where
  | s (n : Nat) | v (n : Nat) | q (n : Nat) | t (n : Nat) | h (n : Nat) | td (n : Nat) | tl (n : Nat)
  | fmt (n : Nat)
  /-- Every special register together: an `mts` holds back all younger convoys (R110). -/
  | spr
  /-- The latch (R191): read by every form of `mmr`, set by `tlatch`. -/
  | latch
  /-- A physical scalar register: what `s` of a convoy in flight names through its window (R101, R105). -/
  | p (n : Nat)
  /-- A physical scalar register whose old value a pending spill has still to read (R105): only writers wait for it. -/
  | spill (n : Nat)
  /-- FRST and BSP, which a pending refill has still to settle (R105, R107). -/
  | frst
  /-- FSZ of a frame that is not resident: the header that a pending refill has still to read gives it (R107). -/
  | fsz
  /-- The flags of FCTL, which scalar floating point adds to in any order (R111): what reads them waits. -/
  | fctl
  /-- The flags of FCTL that a pending `mfs` has still to read (R110): what adds to them waits. -/
  | flags
deriving DecidableEq, Repr

/-- A trap with what its record holds (R305, R310). -/
structure Trap where
  cause : Nat
  info  : Nat := 0
  /-- XEL.ELEM, where the cause has an element. -/
  elem  : Option Nat := none
  /-- XADDR. -/
  addr  : Word := 0
  /-- XINFO. -/
  xinfo : Word := 0
  /-- XEL.POS: the place of the instruction in its convoy. -/
  pos   : Nat := 0
  /-- XCAUSE.WORD and SLOTB, for checks 3 and 4 of R48. -/
  word  : Nat := 0
  slotB : Bool := false
  /-- The convoy retires before the trap is taken (`trap`, R320). -/
  after : Bool := false
  /-- The error record that the trap writes: kind, severity, location (R330). -/
  log   : Option (Nat × Nat × Nat) := none
deriving DecidableEq, Repr

/-- The scalar state of a strand that a trap image carries (R101, R104, R111, R94). -/
structure Scalars where
  /-- g1–g15 (R100). -/
  g     : Tab Word
  /-- The physical file of 256 registers (R101). -/
  phys  : Tab Word
  /-- FRST.FB. -/
  fb    : Nat
  /-- FRST.NRES. -/
  nres  : Nat
  /-- FRST.FSZ. -/
  fsz   : Nat
  /-- Sizes of the resident frames, keyed by the lowest physical register of each (R102, R312). -/
  sizes : Tab Nat
  /-- BSP, BSLO, BSLIM (R104). -/
  bsp   : Word
  bslo  : Word
  bslim : Word
  /-- FCTL (R111). -/
  fctl  : Word
  /-- The pending link (R94). -/
  plink : Option Word
deriving DecidableEq, Repr

/-- A strand's scalar state at its start: the root frame of 32 registers (R66, R101). -/
def Scalars.start : Scalars :=
  ⟨[], [], 0, 32, 32, [(0, 32)], 0, 0, 0, 0, none⟩

/-- What the retirement of an instruction does beside committing its results: `halt` frees the slot (R99), `sret`
reloads an image (R321), a command begins that was saved before it could (R263), `tl` naming its counter, and a special
register whose new value counts from the retirement of its `mts` on takes it (R84, R327), and `tid.bind` changes its
identifier (R171). -/
inductive Ending where
  | none
  | halt
  | sret
  | command (tl : Nat)
  | mts (num : Nat)
  | bind (td : Nat)
deriving DecidableEq, Repr

/-- Which memory classes an access form may reach (R220, R246): the form of a scalar 64-bit access with its
direction, other data accesses, `mwait`, instruction fetch, reel storage, a linked gather (R298), the access form
of a fabric or pool fence (R286). -/
inductive Form where
  | scalar64 (store : Bool) | data | mwait | fetch | reel | link | fence (pool : Bool)
deriving DecidableEq, Repr

/-- A leaf entry resolved for one 64 KiB subpage (R219), and the form of the access that it was translated for. -/
structure Leaf where
  /-- The entry as it stands. -/
  raw   : Word
  form  : Form
  /-- 0 for 64 KiB, 1 for 2 MiB, 2 for 1 GiB. -/
  size  : Nat
  cls   : Nat
  skew  : Nat
  key   : Nat
  /-- The frame of the subpage that holds the address. -/
  frame : Nat
  mig   : Bool
deriving DecidableEq, Repr

/-- What the translation of one page gave: a reason of R222, or its leaf. -/
inductive PageRes where
  | bad (reason : Nat)
  | ok (l : Leaf)
deriving DecidableEq, Repr

/-- One instruction in flight (R314). -/
structure Entry where
  /-- The word as issued. -/
  word  : Word
  slotB : Bool
  pos   : Nat
  /-- The instruction has completed. -/
  done  : Bool
  /-- It has a done-mask (R314): a memory instruction, a tile fill excepted; and the mask (R247). -/
  hasDm : Bool
  mask  : BitVec 2048
  /-- The width of its destination elements, for START of R314. -/
  w     : Nat
  /-- Its scalar destination, by operand number. -/
  sd    : Option Nat
  ending : Ending
  /-- The fresh registers of its vector destinations (R137). -/
  vd    : Tab VReg
  /-- The fresh register of its mask destination. -/
  qd    : Tab QReg
  /-- The scalar result, command number, launch ID, next address or handle image (R314 dword 3). -/
  res   : Word
  /-- Its length at issue (R134). -/
  n     : Nat
  /-- The values of its scalar sources at issue, by operand number. -/
  args  : Tab Word
  /-- Other copies taken at issue: a tensor identifier's entry, the start of a wait. -/
  aux   : List Nat
  /-- Names it has still to write and to read: younger convoys that need them wait (R81). -/
  pend  : List Name
  /-- A condition outside the strand holds it: a tide mark, a FIFO, a switching bank, a command. -/
  held  : Bool
  /-- The fault of its lowest failed element, to deliver on retirement (R306). -/
  flt   : Option Trap
  /-- The memory-error trap of its lowest element that fired from POISON (R136). -/
  bad   : Option Trap
  /-- It takes one of the dailies queue's entries until its convoy retires, and its groups have been found to agree
  (R328). -/
  chk   : Bool
  sure  : Bool
  /-- Three runs of one of its groups differed (R329): it does not fire again before the trap of that is delivered. -/
  stuck : Bool
  /-- It has memory events (R275), and the first of them has performed (R276). -/
  mem   : Bool
  begun : Bool
  /-- Restored from an image and not yet checked again (R317). -/
  again : Bool
  /-- The pages that it has translated, each once, for the elements that are still held (R226, R234). -/
  pages : List (Nat × PageRes)
  /-- The bytes that its later parts will touch (R276, R280): first byte and number of each held element. -/
  later : List (Nat × Nat)
  /-- The cycle at which it issued (R364). -/
  stamp : Nat
deriving DecidableEq, Repr

/-- A convoy that has issued and not retired (R80, R316). -/
structure Convoy where
  base    : Word
  nwords  : Nat
  /-- The scalar state before it issued: what an image taken now holds (R312). -/
  before  : Scalars
  entries : List Entry
  /-- Where the strand continues after it, once that is known (R92). -/
  next    : Option Word
  /-- Every instruction of it has been issued. -/
  closed  : Bool
deriving DecidableEq, Repr

/-- A work item's place in its launch and what it was allotted (R62, R66). -/
structure WorkItem where
  launch : Nat
  linear : Nat
  wid    : Word
  /-- The first allotted bank and their number. -/
  bank   : Nat
  nbank  : Nat
deriving DecidableEq, Repr

/-- What the device keeps of a started work item until it retires, resident or saved (R67, R78, R205). -/
structure Item where
  cluster : Nat
  /-- Lineage entries still reserved for it and not drawn (R205). -/
  nlin    : Nat
  /-- For each level, twice the barriers it has passed, and one more while it has arrived at the next (R78). -/
  arr     : Tab Nat
  /-- The `xred` instructions it has completed (R302). -/
  nxred   : Nat
deriving DecidableEq, Repr

/-- A link that `vgl` made (R297): a line, its key slot and whether it has been broken. -/
structure Link where
  line   : Nat
  slot   : Nat
  broken : Bool
deriving DecidableEq, Repr

/-- A tile's state (R181). -/
inductive TileSt where
  | empty | filling | ready | draining
deriving DecidableEq, Repr

/-- What a fill or `tzero` records of its identifier (R180): format, its record, TSCALE, BND. -/
structure Snap where
  fcode  : Nat
  record : Word
  tscale : BitVec 32
  bnd    : Bool
deriving DecidableEq, Repr

/-- A fill that has not finished (R188, R315): its identifier's entry and origins. -/
structure Fill where
  td     : BitVec 512
  sa     : Word
  sb     : Word
  trans  : Bool
  done   : BitVec 131072
deriving DecidableEq, Repr

/-- A tile register (R180, R181). -/
structure Tile where
  st     : TileSt
  /-- TSHAPE: EW, columns less one, rows less one. -/
  ew     : Nat
  colsm1 : Nat
  rowsm1 : Nat
  codes  : BitVec 131072
  /-- One e8m0 code for column c and run j, at byte 512·j + c. -/
  side   : BitVec 32768
  /-- POISON bits of rows. -/
  poison : BitVec 256
  snap   : Snap
  fill   : Option Fill
deriving DecidableEq, Repr

/-- A tile on acquisition (R180, R181): EMPTY, 64×128 codes of 8 bits. -/
def Tile.start : Tile := ⟨.empty, 1, 127, 63, 0, 0, 0, ⟨0, 0, 0, false⟩, none⟩

/-- The latch (R191). -/
structure Latch where
  k      : Nat
  n      : Nat
  ew     : Nat
  fa     : Nat
  fb     : Nat
  recA   : Word
  recB   : Word
  sA     : BitVec 32
  sB     : BitVec 32
  scale  : BitVec 32
  bsen   : Bool
  codes  : BitVec 131072
  side   : BitVec 32768
  poison : BitVec 256
deriving DecidableEq, Repr

/-- The vector state that a saved strand held, kept until it has the lanes again (R322). -/
structure Vectors where
  width : Nat
  v     : Tab VReg
  q     : Tab QReg
  tiles : Tab Tile
  latch : Option Latch
deriving DecidableEq, Repr

/-- A strand (R9, R80). -/
structure Strand where
  lvl   : Level
  asid  : Nat
  /-- The first word of its next convoy. -/
  pc    : Word
  r     : Scalars
  /-- h0–h15 as images of R202; an arriving register holds its image with ARR = 1. -/
  h     : Tab Word
  /-- fmt0–fmt15 (R158). -/
  fmt   : Tab Word
  /-- The bound tensor identifiers: seven dwords of R167 and the record snapshot. -/
  td    : Tab (BitVec 512)
  /-- Allotted tensor identifiers (R166). -/
  ntd   : Nat
  /-- The physical counters behind tl0, tl1, … (R262). -/
  tl    : List Nat
  /-- Links (R297). -/
  links : List Link
  /-- The reason code of R81 while it waits, else 0. -/
  wait  : Nat
  /-- R86. -/
  startStamp : Nat
  lastReady  : Nat
  lastIssue  : Nat
  /-- The next convoy must carry L = 1, as the target of `jmp`, `calli` or `ret` (R48 check 2). -/
  landing : Bool
  /-- The convoy of the latest transfer (XINFO of a control-flow fault, R310). -/
  xfer    : Word
  /-- It has issued `halt` (R99). -/
  halting : Bool
  /-- Stopped: a double fault, SLOTST state 14 (R308). -/
  stopped : Bool
  /-- A trap recorded and not delivered (R313 PEND, R319). -/
  pend    : Option Trap
  /-- A trap of it is being delivered, and waits for an arriving handle (R318, R319). -/
  delivering : Bool
  /-- XCAUSE, XEL, XPC, XADDR, XINFO, XTF, XDEPTH (R310). -/
  xcause : Word
  xel    : Word
  xpc    : Word
  xaddr  : Word
  xinfo  : Word
  xtf    : Word
  xdepth : Nat
  /-- The work item it runs, if any. -/
  work   : Option WorkItem
  /-- Convoys in flight, oldest first. -/
  flight : List Convoy
  /-- The monitor of `mwait` (R98): the 64-byte block by its place, the cycle of the first read, and
  whether the wait has ended. -/
  monitor : Option (Nat × Nat × Bool)
  /-- It was placed or resumed from an image that held the lanes, and has still to acquire them (R321, R322). -/
  vec : Option Vectors
  /-- The scalar words that hold an uncorrectable error (R324): those of the physical file by their places, then g0 to g15
  (log 18). -/
  lost : List Nat
  /-- For the strand and each handler it has been in, innermost first: whether a pending link that stands now stood
  already when that handler began (R309), so that R94 asks no `frame` of it (log 8). -/
  kept : List Bool
deriving DecidableEq, Repr

/-- What an image has no place for (R312): of the strand, which of its pending links stood before a handler began
(log 8), the window base (R101) of each of its convoys in flight, oldest first, the address at which its next convoy must
carry L = 1 (R92), and the convoy of its latest transfer (R310; log 9). -/
structure Beside where
  kept : List Bool
  fbs  : List Nat
  land : Option Word
  xfer : Word
deriving DecidableEq, Repr

/-- Nothing kept. -/
def Beside.none : Beside := ⟨[], [], Option.none, 0⟩

/-- A timeline counter (R262); `pins` counts what still needs it (R70, R262). A counter that stays pinned for a saved
strand keeps whose it is: slot and name at the save, launch and linear index (R262, R322). -/
structure Ctr where
  iss  : Nat
  done : Nat
  used : Bool
  pins : Nat
  mine : Option (Nat × Nat × Nat × Nat)
deriving DecidableEq, Repr

/-- A counter that nobody holds. -/
def Ctr.free : Ctr := ⟨0, 0, false, 0, none⟩

/-- A counter when it is allotted (R262). -/
def Ctr.start : Ctr := ⟨0, 0, true, 0, none⟩

/-- A core (R9). -/
structure Core where
  /-- The strand slots (R80); an unlisted slot is free. -/
  slots  : Tab Strand
  /-- SCHED.POL and AGE (R84, R85). -/
  pol    : Bool
  age    : Nat
  /-- The round-robin pointer P (R87). -/
  rr     : Nat
  /-- The greedy and the yielding strand (R86). -/
  greedy   : Option Nat
  yielding : Option Nat
  /-- The holder of the lanes, its grant width, and who waits for them in order (R125–R127). -/
  holder : Option Nat
  width  : Nat
  laneQ  : List Nat
  /-- v0–v31 and q1–q7 as the youngest retired convoy left them (R132). -/
  v      : Tab VReg
  q      : Tab QReg
  tiles  : Tab Tile
  latch  : Option Latch
  /-- A latch copy runs from this tile, and whether its codes have been copied (R191). -/
  latching : Option (Nat × Bool)
  /-- GVL.PWR, MVL, the power controller's limit, LMAP.FAIL (R128–R130). -/
  pwr    : Nat
  mvl    : Nat
  limit  : Nat
  lmap   : BitVec 32
  /-- DLYMODE: MODE, UNCHK, VOTED (R327). -/
  dmode  : Nat
  unchk  : Nat
  voted  : Nat
  /-- EXPSPLIT, OTAU, OFLOOR, ODEPTH (R351, R363). -/
  expsplit : Word
  otau     : Word
  ofloor   : Word
  odepth   : Word
  /-- XVEC (R310). -/
  xvec   : Word
  /-- The 16 timeline counters (R262). -/
  ctrs   : Tab Ctr
  /-- The owner of the last U strand placed (R232). -/
  owner  : Option Nat
  /-- Allotted to a group whose scrub has not ended (R232). -/
  scrub  : Bool
deriving DecidableEq, Repr

/-- A core after device reset. -/
def Core.start : Core where
  slots := []
  pol := false
  age := 512
  rr := 0
  greedy := none
  yielding := none
  holder := none
  width := 0
  laneQ := []
  v := []
  q := []
  tiles := []
  latch := none
  latching := none
  pwr := 32
  mvl := 32
  limit := 32
  lmap := 0
  dmode := 0
  unchk := 0
  voted := 0
  expsplit := 16
  otau := 0
  ofloor := 0xFF800000#64
  odepth := 0
  xvec := 0
  ctrs := []
  owner := none
  scrub := false

/-- A cluster-SRAM bank (R242, R245). -/
structure Bank where
  mode   : Nat
  data   : Tab Byte
  owner  : Option Nat
  /-- The launch and linear index of the work item it is allotted to. -/
  item   : Option (Nat × Nat)
  /-- HEAD and the entries, oldest first (R245). -/
  head   : Nat
  fifo   : List Word
  /-- The mode a switch in progress leads to (R244). -/
  switch : Option Nat
  /-- Strands that wait to push, or to pop, in the order in which they reached the bank (R246): core, slot, whether it is
  a push. -/
  queue  : List (Nat × Nat × Bool)
deriving DecidableEq, Repr

/-- A bank after device reset (R242): cache ways, no owner. -/
def Bank.start : Bank := ⟨0, [], none, none, 0, [], none, []⟩

/-- The root of a reel tile (R199, R200): storage, format and extents. -/
structure Root where
  base   : Word
  rows   : Nat
  cols   : Nat
  fcode  : Nat
  record : Word
  /-- The 64 KiB units of the cluster's window behind its pages, in order. -/
  units  : List Nat
deriving DecidableEq, Repr

/-- A lineage entry (R204). -/
structure Lineage where
  /-- 0 free, 1 live, 2 cut. -/
  st     : Nat
  gen    : Nat
  root   : Root
  r0     : Nat
  c0     : Nat
  rows   : Nat
  cols   : Nat
  parent : Option Nat
  side   : Nat
  axis   : Nat
  cutAt  : Nat
  kids   : Nat
  /-- The work item whose reservation it was drawn from (R205). -/
  drawn  : Option (Nat × Nat)
  /-- A delivery in transit: the mover's core and slot, the receiver's launch, linear index and register
  (R211). -/
  move   : Option (Nat × Nat × Nat × Nat × Nat)
  /-- The `rld` and `rst` issued through it that have not performed (R210, R211). -/
  open_  : Nat
deriving DecidableEq, Repr

/-- A free lineage entry of generation 0. -/
def Lineage.start : Lineage := ⟨0, 0, ⟨0, 0, 0, 0, 0, []⟩, 0, 0, 0, 0, none, 0, 0, 0, 0, none, none, 0⟩

/-- A live ASID (R228). -/
structure Asid where
  root  : Nat
  owner : Nat
deriving DecidableEq, Repr

/-- An installed key slot (R230). While its removal waits for the accesses that reached it (R371), `going` is the address
of the request block that asked for it, and the slot counts as empty for all that comes later. -/
structure KeySlot where
  owner : Nat
  key   : BitVec 512
  going : Option Nat
deriving DecidableEq, Repr

/-- A table entry that software has changed and no `tlbinv` has covered (R227): its near address, an
older value, and the ASIDs for which it can no longer be read. -/
structure Stale where
  addr : Nat
  old  : Word
  dead : List Nat
deriving DecidableEq, Repr

/-- A page in migration (R233): new home, old leaf, lines copied, the command. -/
structure Migration where
  cls    : Nat
  frame  : Nat
  old    : Word
  copied : Nat
  cmd    : Nat
deriving DecidableEq, Repr

/-- A line of pooled memory cached in the device (R283): bytes held, which of them are dirty. -/
structure FarLine where
  slot  : Nat
  bytes : Tab Byte
  dirty : BitVec 64
deriving DecidableEq, Repr

/-- An asynchronous command (R263). Kinds 1 `tcopy`, 2 `tcopy.mig`, 3 `slab.grow`, 4 `smap.inv`,
5 a launch. -/
structure Cmd where
  kind  : Nat
  core  : Nat
  ctr   : Nat
  num   : Nat
  asid  : Nat
  lvl   : Level
  dst   : Word
  src   : Word
  len   : Nat
  entry : Nat
  /-- Every older access of its strand has performed, and it runs (R265). -/
  begun : Bool
  /-- Stopped at a fault (R266): the reason and the faulting address. -/
  stop  : Option (Nat × Word)
  /-- The progress record has been written (R332). -/
  sent  : Bool
  /-- An error record of kind 11 has been written for the stop (R332). -/
  logged : Bool
  fin   : Bool
deriving DecidableEq, Repr

/-- A sequence-map entry (R269). -/
structure Smap where
  pbase : Word
  qbase : Word
  plen  : Nat
  k     : Nat
  asid  : Nat
  rb    : Nat
  /-- FOLD and FPRG of a growing entry. -/
  grow  : Option (Word × Nat)
deriving DecidableEq, Repr

/-- A loaded-code entry (R58): where its code section lies, its size in bytes, and the word offsets at which a convoy
with L = 1 begins, as the words stood when `ldco` read them (R59, R76); and the lines of memory it lies in (R91). -/
structure Code where
  base : Word
  size : Nat
  entries : List Nat
  lines : List Nat
deriving DecidableEq, Repr

/-- A tide mark (R71): M, and base, usz, cnt once bound. -/
structure Mark where
  m     : Nat
  bound : Option (Word × Nat × Nat)
deriving DecidableEq, Repr

/-- A launch (R60, R69): its header as read, its place in the queue and its work items. -/
structure Launch where
  code   : Nat
  entry  : Nat
  prio   : Nat
  asid   : Nat
  /-- Width, placement and count of each field (R62). -/
  fields : List (Nat × Nat × Nat)
  ntd    : Nat
  ntl    : Nat
  nbank  : Nat
  nlin   : Nat
  ntm    : Nat
  bsbase : Word
  frd    : Nat
  arg    : Word
  /-- The completion counter: core, counter, number (R70). -/
  ctl    : Option (Nat × Nat × Nat)
  /-- Dependences: core, counter, value. -/
  deps   : List (Nat × Nat × Nat)
  /-- Links: alias, producer launch, its mark. -/
  links  : List (Nat × Nat × Nat)
  marks  : Tab Mark
  /-- Its tide marks have been allotted; they stand in the device's table still (R67). -/
  armed  : Bool
  marked : Bool
  /-- The member index in its gang, and the gang's sequence number if it is a gang's part or its issue (R75). -/
  member : Nat
  gseq   : Option Nat
  /-- The next level-K group to start (R65). -/
  group  : Nat
  /-- Its items that have started and not retired, by linear index. -/
  items  : Tab Item
  /-- Linear indices of its retired items. -/
  gone   : List Nat
  /-- The cycle from which its next group has not fitted (R69). -/
  since  : Option Nat
  /-- A gang part may begin (R378). -/
  begun  : Bool
  retired : Bool
deriving DecidableEq, Repr

/-- A gang that this device issued or joined (R378). -/
structure Gang where
  /-- This device issued it; else it is a member. -/
  issuer  : Bool
  /-- The accepted header and after it the members' device IDs, dword by dword (R60, R75). -/
  header  : List Word
  /-- The launches that `glaunch` accepted here and that have still to be published (R75). -/
  issued  : List Nat
  /-- The parts of this device: member index and launch. -/
  parts   : Tab Nat
  acks    : List Nat
  commits : List Nat
  retired : List Nat
  /-- The journal entry of the gang on this device. -/
  jseq    : Nat
  /-- COMMIT has gone out; the parts here have begun; the gang was aborted or is broken. -/
  committed : Bool
  begun     : Bool
  broken    : Bool
  /-- The cycle at which prepare, or the latest commit, went out. -/
  since     : Nat
deriving DecidableEq, Repr

/-- A group for which the placer has allotted everything and whose scrubs and bank zeroing have not ended (R232): its
launch, its strands with their cores and slots, the cores still to scrub, and the banks still to zero, lowest first. -/
structure Starting where
  launch  : Nat
  strands : List (Nat × Nat × Strand)
  cores   : List Nat
  banks   : List Nat
deriving DecidableEq, Repr

/-- A Smiend port beside its status register (R379): the data lane whose turn to recalibrate comes next, the lane that
recalibrates now, the replays of each data lane in this period, the lanes that have failed (2 is the stand-in), and the
cycle at which the period began. -/
structure Port where
  turn  : Nat
  cal   : Option Nat
  reps  : Tab Nat
  bad   : List Nat
  since : Nat
deriving DecidableEq, Repr

/-- A port after device reset. -/
def Port.start : Port := ⟨0, none, [], [], 0⟩

/-- What a member has contributed to a matched set of `xred` (R302): the launch and work item here, which of its `xred`
it belongs to, the member it comes from, value(sa), fn, ty, G and n in one list, and the elements that have come, by
register and element, with 2^64 for POISON. With no terms it says that the member's work item has retired (R303). -/
structure Contribution where
  launch : Nat
  linear : Nat
  inst   : Nat
  member : Nat
  terms  : List Nat
  vals   : List (Nat × Nat)
deriving DecidableEq, Repr

/-- What leaves the device: MSI-X messages (R371), peer requests and fabric messages (R253, R378). -/
inductive Msg where
  /-- The address and data of an entry of the MSI-X table. -/
  | msix (vector : Nat) (addr : Word) (data : Nat)
  /-- The elements of one event that perform at another device, its home. -/
  | peerRequest (r : PeerReq)
  /-- A contribution to `xred`, to every counterpart (R302). -/
  | xred (gseq linear inst : Nat) (terms : List Nat) (vals : List (Nat × Nat))
  /-- A work item of a gang has retired here, which its counterparts' `xred` learn (R303). -/
  | xredGone (gseq linear : Nat)
  /-- To a device: the member that it is, and the header with the members' device IDs after it. -/
  | gangPrepare (device gseq member : Nat) (header : List Word)
  /-- A member's acknowledgement of prepare, or of commit. -/
  | gangAck (gseq member : Nat) (commit : Bool)
  | gangCommit (gseq : Nat)
  | gangAbort (gseq : Nat)
  | gangRetired (gseq member : Nat)
  | hostData (bytes : List Nat)
  /-- What this device answers as a home: for each element the reason, or 0, and the value. -/
  | peerReply (answers : List (Nat × Nat))
  | report (bytes : List Byte)
deriving DecidableEq, Repr

/-- The instruction that `exec` acts for: whose it is, its convoy and its place in it. -/
structure Cur where
  core   : Nat
  slot   : Nat
  base   : Word
  nwords : Nat
  pos    : Nat
  /-- Which word of the convoy it stands in, and that word. -/
  idx    : Nat
  word   : Word
  slotB  : Bool
  last   : Bool
deriving DecidableEq, Repr

/-- What `exec` found at issue. -/
inductive Note where
  | ok
  | trap (t : Trap)
  | wait (code : Nat)
deriving DecidableEq, Repr

/-- The device. -/
structure State where
  /-- CYCLE (R112). -/
  cycle  : Nat
  /-- The model's own counter for free values. -/
  choice : Nat
  /-- The core whose issue slot acts next. -/
  turn   : Nat
  cur    : Cur
  note   : Note
  cores  : Tab Core
  /-- Cores and pseudo-channels out of service (R10). -/
  outCores : List Nat
  outChans : List Nat
  /-- Banks, keyed by 256·cluster + bank. -/
  banks  : Tab Bank
  /-- Lineage entries, keyed by 1,024·cluster + entry (R204). -/
  lineage : Tab Lineage
  /-- Storage released but still reached by older accesses (R210): cluster and root. -/
  releasing : List (Nat × Root)
  /-- `hmov`s that wait for a register of another strand (R211): the receiver's launch, linear index and register,
  and the mover's core and slot. -/
  movers : List (Nat × Nat × Nat × Nat × Nat)
  asids  : Tab Asid
  keys   : Tab KeySlot
  /-- HBM by physical place: pseudo-channel · 2^30 + row · 256 + byte (R14, R223–R225). -/
  hbm    : Tab Byte
  /-- Pooled memory by where it lies, 2^53 for each port (R382), and far lines cached here by line address and slot
  (R283). -/
  pool   : Tab Byte
  far    : Tab FarLine
  /-- What other devices write to pooled memory and has not arrived there, oldest first (R283). -/
  poolIn : List (Nat × Byte)
  /-- The key that a near or far line was last written under, as a number plus one (0 for an empty slot), and the tweak
  (R231); keyed by where the line lies, pool lines above 2^60. -/
  lineKey : Tab (Nat × Nat)
  /-- Lines with an uncorrectable error, keyed as `lineKey`, lines of banks above 2^61 (R295, R324). -/
  poison : Tab Bool
  stale  : List Stale
  /-- What the device keeps of each image beside it, by the place of its first line (log 115). -/
  beside : Tab Beside
  migs   : List Migration
  smaps  : Tab Smap
  codes  : Tab Code
  /-- Old values of dwords of loaded code that have been written since, by the number of the dword (R91). -/
  oldCode : List (Nat × Word)
  launches : Tab Launch
  nextLaunch : Nat
  starting : List Starting
  gangs  : Tab Gang
  xreds  : List Contribution
  cmds   : Tab Cmd
  nextCmd : Nat
  /-- XTFB, EFQB and EFQT's TAIL and HEAD (R311, R332). -/
  xtfb   : Word
  efqb   : Word
  efqTail : Nat
  efqHead : Nat
  /-- Error records by SEQ, each eight dwords (R330). -/
  erecs  : Tab (List Word)
  erecSeq : Nat
  /-- JHEAD (R374), HWIN (R371), FTMO and GTMO (R378), PST (R379), PDEC (R382), MEAS (R383). -/
  jhead  : Nat
  hwin   : Word
  ftmo   : Nat
  gtmo   : Nat
  pst    : Tab Word
  ports  : Tab Port
  /-- Devices reported down (R380). -/
  down   : List Nat
  pdec   : Tab Word
  meas   : Tab (BitVec 512)
  /-- The MSI-X table by dword and its pending-bit array (R371). -/
  msix   : Tab Word
  msixPend : Tab Bool
  /-- The device ID in page 0 (R370). -/
  devId  : Nat
  /-- The boot flash: images by number, each with its signature and key (R383). -/
  flash  : Tab (List Byte × List Byte × List Byte)
  /-- The boot stage reached (R383), and the runtime entry convoy that the manifest names (R373). -/
  stage  : Nat
  runtime : Word
  /-- The accepted journal entries that firmware has handed to the supervisors, in JSEQ order (R376). -/
  handed : List Nat
  /-- Events that are due, in no order: the device's own and what the outside world sends. -/
  agenda : List Instr
  /-- Messages sent, oldest first. -/
  out    : List Msg
deriving DecidableEq, Repr

/-- What an unlisted byte of memory holds (log 20). -/
def memDefault : Byte := 0

/-- The device right after a device reset (01 to 23): every table empty or at its stated reset value,
the boot sequence of R383 due. -/
def State.reset : State where
  cycle := 0
  choice := 0
  turn := 0
  cur := ⟨0, 0, 0, 0, 0, 0, 0, false, true⟩
  note := .ok
  cores := []
  outCores := []
  outChans := []
  banks := []
  lineage := []
  releasing := []
  movers := []
  asids := []
  keys := []
  hbm := []
  pool := []
  far := []
  poolIn := []
  lineKey := []
  poison := []
  stale := []
  beside := []
  migs := []
  smaps := []
  codes := []
  oldCode := []
  launches := []
  nextLaunch := 1
  starting := []
  gangs := []
  xreds := []
  cmds := []
  nextCmd := 0
  xtfb := 0
  efqb := 0
  efqTail := 0
  efqHead := 0
  erecs := []
  erecSeq := 0
  jhead := 0
  hwin := 0
  ftmo := 1300000
  gtmo := 1300000
  pst := []
  ports := []
  down := []
  pdec := []
  meas := []
  msix := []
  msixPend := []
  devId := 0
  flash := []
  stage := 0
  runtime := 0
  handed := []
  agenda := [.powerUpStage]
  out := []

end Sys2Proof.Machine
end

