-- ==== Sys2Proof/Machine/Mem.lean ====
section
/-!
DEFINITION. Memory by place: HBM behind its pseudo-channels (R223–R225), pooled memory with the far
lines cached here (R283), and the banks of cluster SRAM (R241). Lines carry the key they were written
under (R231) and may hold an uncorrectable error (R295). A write breaks links (R297), ends `mwait`
(R98) and, where it changes a page-table entry, leaves the old entry for translations that R227 still
allows to read it.
-/

namespace Sys2Proof.Machine

/-- Where a translated access goes (R220). -/
inductive Place where
  /-- A physical HBM address, the key slot of the page, and the near address, which the key's tweak needs (R231). -/
  | near (phys slot addr : Nat)
  /-- A pool address and the key slot of the page. -/
  | far (addr slot : Nat)
  /-- Another device: its ID, the ASID there and the virtual address. -/
  | peer (device asid : Nat) (va : Word)
  /-- A bank (256·cluster + bank) and the byte within it. -/
  | scratch (bank off : Nat)
  /-- A device-register page and the byte within it. -/
  | devreg (page off : Nat)
deriving DecidableEq, Repr

/-- The place `n` bytes on, within one page. -/
def Place.plus (p : Place) (n : Nat) : Place :=
  match p with
  | .near a k t => .near (a + n) k (t + n)
  | .far a k => .far (a + n) k
  | .peer d i va => .peer d i (va + BitVec.ofNat 64 n)
  | .scratch b o => .scratch b (o + n)
  | .devreg g o => .devreg g (o + n)

/-- The physical pseudo-channel of a channel residue (R225). -/
def channelOf (c : Nat) : Nat :=
  if c ≤ 62 then c else if c ≤ 189 then c + 1 else if c ≤ 316 then c + 2 else c + 3

/-- fold of R224. -/
def foldRow (g : Nat) : Nat :=
  ((BitVec.ofNat 9 g) ^^^ (BitVec.ofNat 9 (g / 2 ^ 9)) ^^^ (BitVec.ofNat 9 (g / 2 ^ 18 % 16))).toNat

/-- The physical place of a near address under a skew (R223–R225); none where R224 gives a failure. -/
def nearPhys (skew addr : Nat) : Option Nat :=
  let f := addr / 65536
  let w := f / 509
  let j := f % 509
  let t := addr % 65536 / 256
  let l := 256 * j + t
  let put := fun p row => some (p * 2 ^ 30 + row * 256 + addr % 256)
  match skew with
  | 0 => put (channelOf (l % 509)) (256 * w + l / 509)
  | 1 => put (channelOf ((l + foldRow (256 * w + l / 509)) % 509)) (256 * w + l / 509)
  | 2 =>
    if 488 ≤ j then none
    else
      let k := 256 * (j % 61) + t
      put (64 * (j / 61) + k % 61) (256 * w + k / 61)
  | _ => none

/-- The number of bytes of near memory that programs see (R223): 509 GiB. -/
def nearBytes : Nat := 509 * 2 ^ 30

/-- The number of the line a place lies in; far lines, by pool address, above 2^60. Only HBM and pool lines have one. -/
def Place.line : Place → Option Nat
  | .near a _ _ => some (a / 64)
  | .far a _ => some (2 ^ 60 + a / 64)
  | .peer _ _ _ => none
  | .scratch _ _ => none
  | .devreg _ _ => none

/-- The 64-byte block of a place, for monitors and links (R98, R297); scratch blocks above 2^61. -/
def Place.block : Place → Option Nat
  | .near a _ _ => some (a / 64)
  | .far a _ => some (2 ^ 60 + a / 64)
  | .scratch b o => some (2 ^ 61 + b * 8192 + o / 64)
  | .peer _ _ _ => none
  | .devreg _ _ => none

/-- The place's byte within its 64-byte line. -/
def Place.offset : Place → Nat
  | .near a _ _ => a % 64
  | .far a _ => a % 64
  | .peer _ _ va => va.toNat % 64
  | .scratch _ o => o % 64
  | .devreg _ o => o % 64

/-- Byte `o` of the line that a place of HBM or of the pool lies in. -/
def Place.at_ (p : Place) (o : Nat) : Place :=
  match p with
  | .near a k t => .near (a / 64 * 64 + o) k (t / 64 * 64 + o)
  | .far a k => .far (a / 64 * 64 + o) k
  | .peer d i va => .peer d i va
  | .scratch b x => .scratch b x
  | .devreg g x => .devreg g x

/-- The key slot of a place. -/
def Place.slot : Place → Nat
  | .near _ k _ => k
  | .far _ k => k
  | .peer _ _ _ => 0
  | .scratch _ _ => 0
  | .devreg _ _ => 0

/-- A slot's key as a number, plus one; 0 for an empty slot. Two slots with one key read each other's lines (R231). -/
def State.keyOf (s : State) (slot : Nat) : Nat :=
  match Tab.find s.keys slot with
  | none => 0
  | some k => k.key.toNat + 1

/-! ### Pooled memory (R382) -/

/-- A dword of a pool decoder. -/
def State.pdecDword (s : State) (k i : Nat) : Word := Tab.get 0 s.pdec (4 * k + i)

/-- A pool decoder's fields. -/
structure Decoder where
  base  : Nat
  limit : Nat
  en    : Bool
  ig    : Nat
  ports : Nat
  hbase : Nat

/-- Decoder k as it stands. -/
def State.decoder (s : State) (k : Nat) : Decoder :=
  let d := fun (i lo n : Nat) => (s.pdecDword k i).toNat / 2 ^ lo % 2 ^ n
  ⟨d 0 30 16, d 1 30 17, (s.pdecDword k 2).getLsbD 8, d 2 4 3, d 2 0 4, d 3 8 44⟩

/-- The ports of a decoder in ascending order. -/
def Decoder.portList (d : Decoder) : List Nat := (List.range 4).filter fun p => d.ports.testBit p

/-- An enabled decoder's region holds a pool address. -/
def Decoder.serves (d : Decoder) (p : Nat) : Bool := d.en && d.base * 2 ^ 30 ≤ p && p < d.limit * 2 ^ 30

/-- Where a far access leaves the device: the port and the host physical address. -/
def State.poolRoute (s : State) (p : Nat) : Option (Nat × Nat) :=
  ((List.range 16).find? fun k => (s.decoder k).serves p).map fun k =>
    let d := s.decoder k
    let o := p - d.base * 2 ^ 30
    let n := d.portList.length
    let g := 256 * 2 ^ d.ig
    (d.portList.getD (o / g % n) 0, d.hbase * 256 + o / (g * n) * g + o % g)

/-- The byte of pooled memory behind a pool address, as the state lists it: 2^53 for each port. Where no decoder serves
the address it is a byte of its own. -/
def State.poolAt (s : State) (p : Nat) : Nat :=
  match s.poolRoute p with
  | some (port, hpa) => port * 2 ^ 53 + hpa
  | none => 4 * 2 ^ 53 + p

/-- A byte of memory as one number, whatever page reaches it: HBM by its physical place, the pool by where it lies, banks,
register pages, and the memory of other devices by what names it there. -/
def State.byteKey (s : State) : Place → Nat
  | .near a _ _ => a
  | .far a _ => 2 ^ 60 + s.poolAt a
  | .scratch b o => 2 ^ 61 + b * 524288 + o
  | .devreg g o => 2 ^ 62 + g * 65536 + o
  | .peer d i va => 2 ^ 64 * (1 + 256 * d + i) + va.toNat

/-! ### Keys and errors of lines -/

/-- The number under which the device keeps a line's key and error: a line of HBM by its physical place, one of pooled
memory, above 2^60, by where it lies, a line of a bank above 2^61 (R231, R295, R324). -/
def State.lineId (s : State) (p : Place) : Option Nat :=
  match p with
  | .near a _ _ => some (a / 64)
  | .far a _ => some (2 ^ 60 + s.poolAt a / 64)
  | .scratch b o => some (2 ^ 61 + b * 8192 + o / 64)
  | .peer _ _ _ => none
  | .devreg _ _ => none

/-- Whether a line reads in plaintext under a slot and a tweak: it was written under that slot's key and that tweak, or
never (R231; log 13, log 20). -/
def State.keyFits (s : State) (line slot tweak : Nat) : Bool :=
  let k := Tab.get (0, 0) s.lineKey line
  k.1 == 0 || k == (s.keyOf slot, tweak)

/-- Whether a line holds an uncorrectable error, or lies in a pseudo-channel that is out of service (log 45). -/
def State.poisoned (s : State) (p : Place) : Bool :=
  (match s.lineId p with
    | none => false
    | some l => Tab.get false s.poison l) ||
  (match p with
    | .near a _ _ => s.outChans.contains (a / 2 ^ 30)
    | .far _ _ => false
    | .peer _ _ _ => false
    | .scratch _ _ => false
    | .devreg _ _ => false)

/-- One byte of a bank. -/
def State.bank (s : State) (b : Nat) : Bank := Tab.get Bank.start s.banks b

/-- A bank written back. -/
def State.setBank (s : State) (b : Nat) (k : Bank) : State :=
  { s with banks := Tab.set Bank.start s.banks b k }

/-- The key of a far line in the cache: its line and its slot (R231). -/
def farKey (addr slot : Nat) : Nat := addr / 64 * 512 + slot

/-- One byte at a place (R231, R283). A peer or device-register place has no byte here. -/
def State.readByte (s : State) (p : Place) : Byte :=
  match p with
  | .near a k t =>
    if s.keyFits (a / 64) k (t / 64) then Tab.get memDefault s.hbm a else Config.wrongKeyByte s.choice a
  | .far a k =>
    match Tab.find s.far (farKey a k) with
    | some l => Tab.get memDefault l.bytes (a % 64)
    | none =>
      let b := s.poolAt a
      if s.keyFits (2 ^ 60 + b / 64) k (a / 64) then Tab.get memDefault s.pool b
      else Config.wrongKeyByte s.choice (2 ^ 60 + b)
  | .scratch b o => Tab.get memDefault (s.bank b).data o
  | .peer _ _ _ => 0
  | .devreg _ _ => 0

/-- `n` bytes from a place on, lowest address first. -/
def State.readBytes (s : State) (p : Place) : Nat → List Byte
  | 0 => []
  | n + 1 => s.readByte p :: s.readBytes (p.plus 1) n

/-- The number that bytes spell, lowest address first (R3). -/
def ofBytes : List Byte → Nat
  | [] => 0
  | b :: t => b.toNat + 256 * ofBytes t

/-- The `n` bytes of a number, lowest address first (R3). -/
def toBytes (n : Nat) (v : Nat) : List Byte :=
  match n with
  | 0 => []
  | k + 1 => BitVec.ofNat 8 v :: toBytes k (v / 256)

/-- A number of `n` bytes at a place. -/
def State.readNat (s : State) (p : Place) (n : Nat) : Nat := ofBytes (s.readBytes p n)

/-- Bytes of a table at rising keys, in one pass: what lay there gives way. -/
def putBytes (t : Tab Byte) (base : Nat) (bs : List Byte) : Tab Byte :=
  (t.filter fun e => e.1 < base) ++
    ((bs.mapIdx fun i b => (base + i, b)).filter fun e => e.2 ≠ memDefault) ++
    (t.filter fun e => base + bs.length ≤ e.1)

/-- The cached copy of a far line: fetched from the pool when it is not held (R283). -/
def State.farLine (s : State) (addr slot : Nat) : FarLine :=
  match Tab.find s.far (farKey addr slot) with
  | some l => l
  | none => ⟨slot, putBytes [] 0 (s.readBytes (.far (addr / 64 * 64) slot) 64), 0⟩

/-- The line becomes readable under a slot and a tweak: where it was written under others, its bytes are what that
decrypts to (R231). `base` is where it lies, in HBM (`near`) or in the pool. -/
def State.rekey (s : State) (base line slot tweak : Nat) (near : Bool) : State :=
  if s.keyFits line slot tweak then { s with lineKey := Tab.set (0, 0) s.lineKey line (s.keyOf slot, tweak) }
  else
    let bytes := (List.range 64).map fun i =>
      Config.wrongKeyByte s.choice (if near then base + i else 2 ^ 60 + base + i)
    let s := if near then { s with hbm := putBytes s.hbm base bytes }
      else { s with pool := putBytes s.pool base bytes }
    { s with lineKey := Tab.set (0, 0) s.lineKey line (s.keyOf slot, tweak) }

/-- Monitors and links on a written block (R98, R297): a wait ends, a link is broken. -/
def Strand.seeWrite (t : Strand) (block slot : Nat) : Strand :=
  { t with
    monitor := t.monitor.map fun m => if m.1 = block then (m.1, m.2.1, true) else m
    links := t.links.map fun l => if l.line = block && l.slot = slot then { l with broken := true } else l }

/-- Every strand of the device sees a write to a block. -/
def State.seeWrite (s : State) (p : Place) : State :=
  match p.block with
  | none => s
  | some b =>
    { s with
      cores := s.cores.map fun c =>
        (c.1, { c.2 with slots := c.2.slots.map fun t => (t.1, t.2.seeWrite b p.slot) }) }

/-- The old values of the dwords of HBM under key slot 0 that a write changes are kept for translations
(R227). -/
def State.keepStale (s : State) (a n : Nat) (t : Tab Byte) : State :=
  let dword := fun (m : Tab Byte) d => ofBytes ((List.range 8).map fun i => Tab.get memDefault m (8 * d + i))
  let ds := (List.range ((a % 8 + n + 7) / 8)).map fun i => a / 8 + i
  let more := (ds.filter fun d => dword s.hbm d != dword t d).map fun d =>
    (⟨8 * d, BitVec.ofNat 64 (dword s.hbm d), []⟩ : Stale)
  { s with stale := more ++ s.stale }

/-- The old values of the dwords of loaded code that a write of `n` bytes changes, or may change, are kept for fetches
(R91). -/
def State.keepCode (s : State) (p : Place) (n : Nat) : State :=
  if s.codes.isEmpty then s
  else
    match p.line with
    | none => s
    | some l =>
      if s.codes.any fun c => c.2.lines.contains l then
        let o := p.offset / 8
        { s with oldCode := ((List.range ((p.offset + n + 7) / 8 - o)).map fun i =>
            (8 * l + o + i, BitVec.ofNat 64 (s.readNat (p.at_ (8 * (o + i))) 8))) ++ s.oldCode }
      else s

/-- The old value of a dword of loaded code in pooled memory, by where it lies, that another device's write changes, kept for
fetches (R91, R283). -/
def State.keepPoolCode (s : State) (at_ : Nat) : State :=
  let lines := (s.codes.flatMap fun c => c.2.lines).dedup.filter fun l =>
    decide (2 ^ 60 ≤ l) && s.poolAt ((l - 2 ^ 60) * 64) / 64 == at_ / 64
  let old := ofBytes ((List.range 8).map fun i => Tab.get memDefault s.pool (at_ / 8 * 8 + i))
  { s with oldCode := (lines.map fun l => (8 * l + at_ % 64 / 8, BitVec.ofNat 64 old)) ++ s.oldCode }

/-- A line of loaded code copied to another home: the words that it has held go with it (R91, R233). -/
def State.moveCode (s : State) (src dst : Place) : State :=
  match src.line, dst.line with
  | some a, some b =>
    if s.codes.any fun c => c.2.lines.contains a then
      { s with
        codes := s.codes.map fun c => (c.1, if c.2.lines.contains a then { c.2 with lines := c.2.lines ++ [b] } else c.2)
        oldCode := ((s.oldCode.filter fun w => w.1 / 8 == a).map fun w => (8 * b + w.1 % 8, w.2)) ++ s.oldCode }
    else s
  | _, _ => s

/-- A write of all 64 bytes of a line clears its uncorrectable error (R295). -/
def State.mendLine (s : State) (p : Place) (n : Nat) : State :=
  match s.lineId p with
  | none => s
  | some l => if n = 64 then { s with poison := Tab.del s.poison l } else s

/-- Bytes written at a place, all within one line. An access of 64 bytes clears an uncorrectable error
(R295). A write to another device leaves as a message (R253). A device-register place has no byte here. -/
def State.writeBytes (s : State) (p : Place) (bs : List Byte) : State :=
  let s := ((s.keepCode p bs.length).seeWrite p).mendLine p bs.length
  match p with
  | .near a k x =>
    let s := s.rekey (a / 64 * 64) (a / 64) k (x / 64) true
    let t := putBytes s.hbm a bs
    let s := if k = 0 then s.keepStale a bs.length t else s
    { s with hbm := t }
  | .far a k =>
    let l := s.farLine a k
    let d := (List.range bs.length).foldl (fun (m : BitVec 64) i => m ||| (1#64 <<< (a % 64 + i))) l.dirty
    { s with far := Tab.put s.far (farKey a k) { l with bytes := putBytes l.bytes (a % 64) bs, dirty := d } }
  | .scratch b o =>
    s.setBank b { s.bank b with data := putBytes (s.bank b).data o bs }
  | .peer d i va => { s with out := s.out ++ [.peerRequest ⟨d, 1, .i8, false, false, [⟨i, va.toNat, bs.length, none, ofBytes bs, 0⟩]⟩] }
  | .devreg _ _ => s

/-- A read leaves a far line cached (R283). -/
def State.noteRead (s : State) (p : Place) : State :=
  match p with
  | .far a k => { s with far := Tab.put s.far (farKey a k) (s.farLine a k) }
  | .near _ _ _ => s
  | .peer _ _ _ => s
  | .scratch _ _ => s
  | .devreg _ _ => s

/-- One far line written back with its byte enables (R283). -/
def State.writeBackFar (s : State) (key : Nat) : State :=
  match Tab.find s.far key with
  | none => s
  | some l =>
    if l.dirty = 0 then s
    else
      let base := s.poolAt (key / 512 * 64)
      let s := s.rekey base (2 ^ 60 + base / 64) l.slot (key / 512) false
      let pool := (List.range 64).foldl (fun (t : Tab Byte) i =>
        if l.dirty.getLsbD i then Tab.set memDefault t (base + i) (Tab.get memDefault l.bytes i) else t) s.pool
      { s with pool := pool, far := Tab.put s.far key { l with dirty := 0 } }

/-- Every dirty far line written back (R283: the release forms). -/
def State.writeBackAll (s : State) : State :=
  s.far.foldl (fun st e => st.writeBackFar e.1) s

/-- Every clean far line discarded (R283: the acquire forms). -/
def State.discardClean (s : State) : State :=
  { s with far := s.far.filter fun e => e.2.dirty ≠ 0 }

/-- One far line written back and discarded. -/
def State.evictFar (s : State) (key : Nat) : State :=
  let s := s.writeBackFar key
  { s with far := Tab.del s.far key }

/-- Some strand holds an unbroken link on a far line, by its key in the cache (R297). -/
def State.linkedFar (s : State) (key : Nat) : Bool :=
  s.cores.any fun c => c.2.slots.any fun t => t.2.links.any fun l =>
    !l.broken && l.line == 2 ^ 60 + key / 512 && l.slot == key % 512

/-- A far line written back, and discarded where no link keeps it in the cache (R283, R297). -/
def State.displaceFar (s : State) (key : Nat) : State := if s.linkedFar key then s.writeBackFar key else s.evictFar key

/-- The near address of ASID-0 structures and tables: skew 00, key slot 0 (R217). -/
def nearPlace (addr : Nat) : Place := .near ((nearPhys 0 addr).getD 0) 0 addr

end Sys2Proof.Machine
end

