-- ==== Sys2Proof/Machine/Xlat.lean ====
section
/-!
DEFINITION. Translation (11, R217–R222, R227, R233): the walk of the page tables, the checks of the
leaf in the order of R222, and the place that the access then reaches. Cached translations show only
as R227 lets them: the walk may read an older value of an entry that no `tlbinv` has covered.
-/

namespace Sys2Proof.Machine

/-- What an access does, for the permission check (R221) and the access kind of R305. -/
inductive Acc where
  | read | write | atomic | fetch
deriving DecidableEq, Repr

/-- The access kind of a page fault (R305): fetches report as reads. -/
def Acc.kind : Acc → Nat
  | .read => 0
  | .write => 1
  | .atomic => 2
  | .fetch => 0

/-- R217: bits [63:56] all equal bit 56. -/
def canonical (va : Word) : Bool :=
  let top := va.toNat / 2 ^ 56
  top == 0 || top == 255

/-- An enabled pool decoder's region holds a pool address (R382). -/
def State.poolEnabled (s : State) (addr : Nat) : Bool := (List.range 16).any fun k => (s.decoder k).serves addr

/-- The versions of a table entry that a translation under an ASID may read (R227): the current one
first. -/
def State.entryVersions (s : State) (asid addr : Nat) : List Word :=
  BitVec.ofNat 64 (s.readNat (nearPlace addr) 8) ::
    (s.stale.filter fun e => e.addr = (nearPhys 0 addr).getD 0 && !e.dead.contains asid).map Stale.old

/-- The table entry that the walker reads at a near address, or none on an uncorrectable error
(reason 8). -/
def State.tableEntry (s : State) (asid addr : Nat) : Option Word :=
  if s.poisoned (nearPlace addr) then none
  else
    match s.entryVersions asid addr with
    | [w] => some w
    | ws => some (ws.getD (Config.staleEntry s.choice ((nearPhys 0 addr).getD 0) % ws.length) 0)

/-- A field of an entry. -/
def field (w : Word) (lo n : Nat) : Nat := w.toNat / 2 ^ lo % 2 ^ n

/-- Whether a leaf at a level is malformed (R219, R220, reason 2). `frame` is the frame field as it
stands. -/
def State.leafBad (s : State) (w : Word) (level : Nat) : Bool :=
  let frame := field w 16 32
  let cls := field w 59 3
  let key := field w 48 9
  let skew := field w 57 2
  let mig := field w 62 2
  field w 6 10 != 0 || 3 ≤ level || (level == 1 && frame % 32 != 0) || (level == 2 && frame % 16384 != 0)
    || (field w 2 1 == 1 && field w 1 1 == 0) || 2 ≤ mig
    || (match cls with
        | 0 => decide (8339456 ≤ frame)
        | 1 => decide (2 ^ 30 ≤ frame) || !s.poolEnabled (frame * 65536) || skew != 0
        | 2 => frame / 2 ^ 27 != 0 || key != 0 || skew != 0 || level != 0
        | 3 => frame / 2 ^ 14 != 0 || key != 0 || skew != 0 || 2 ≤ level
        | 4 => decide (5 < frame) || key != 0 || skew != 0 || level != 0
        | _ => false)

/-- Whether a non-leaf entry at a level is malformed (R218, reason 2). -/
def nonLeafBad (w : Word) (level : Nat) : Bool :=
  let next := field w 8 40 * 256
  let size := if level = 1 then 256 else 4096
  level == 0 || field w 48 16 != 0 || field w 6 2 != 0 || field w 1 4 != 0
    || (level != 1 && field w 8 4 != 0) || decide (nearBytes < next + size)

/-- The walk from a table at `level` (R217): the leaf entry and its level, or a reason of R222. -/
def State.walk (s : State) (asid : Nat) (va : Word) : (level : Nat) → (table : Nat) → Except Nat (Word × Nat)
  | level, table =>
    let index := if level = 0 then field va 16 5 else field va (12 + 9 * level) 9
    match s.tableEntry asid (table + 8 * index) with
    | none => .error 8
    | some w =>
      if field w 0 1 = 0 then .error 1
      else if field w 5 1 = 1 then
        if s.leafBad w level then .error 2 else .ok (w, level)
      else if nonLeafBad w level then .error 2
      else
        match level with
        | 0 => .error 2
        | l + 1 => s.walk asid va l (field w 8 40 * 256)

/-- The leaf that a virtual address meets under an ASID (R217, R219). An ASID that is not live has no tables: reason 1
(log 143). -/
def State.leafOf (s : State) (asid : Nat) (va : Word) : Except Nat Leaf :=
  if !canonical va then .error 7
  else
    match Tab.find s.asids asid with
    | none => .error 1
    | some a =>
      match s.walk asid va 4 (a.root * 4096) with
      | .error r => .error r
      | .ok (w, level) =>
        .ok { raw := w, form := .data, size := level, cls := field w 59 3, skew := field w 57 2, key := field w 48 9
              frame := field w 16 32 + field va 16 (9 * level - 4)
              mig := field w 62 2 == 1 }

/-- R221, and R89 for fetches: reason 3. -/
def permitted (w : Word) (lvl : Level) (acc : Acc) : Bool :=
  let r := field w 1 1 == 1
  let wr := field w 2 1 == 1
  let x := field w 3 1 == 1
  (lvl != .u || field w 4 1 == 1) &&
    (match acc with
      | .read => r
      | .write => wr
      | .atomic => r && wr
      | .fetch => x)

/-- The bank behind a scratch frame and its byte offset at the frame's start (R241). -/
def scratchBank (frame : Nat) : Nat × Nat :=
  (256 * (frame / 2048 % 8) + frame % 2048 / 8, frame % 8 * 65536)

/-- Whether a leaf's form may reach its bank in the mode in which it serves (R241, R246): ordinary memory in mode 1, and in
mode 2 the ports of the FIFO. At a bank that is switching the access stalls instead, and is judged under the new mode
(R244). -/
def State.bankOk (s : State) (l : Leaf) (va : Word) : Bool :=
  if l.cls ≠ 3 then true
  else
    let (b, o) := scratchBank l.frame
    let off := o + field va 0 16
    (s.bank b).switch.isSome || (s.bank b).mode == 1 ||
      (match l.form with
        | .scalar64 store => (s.bank b).mode == 2 && (off == 0 || (off == 8 && !store))
        | .data => false
        | .mwait => false
        | .fetch => false
        | .reel => false
        | .link => false
        | .fence _ => false)

/-- Whether the form may reach the class (R220, R246, R89, R98): reason 5. -/
def State.classOk (s : State) (l : Leaf) (cluster : Nat) (lvl : Level) (f : Form) (va : Word) : Bool :=
  match l.cls with
  | 0 | 1 =>
    (match f with
      | .reel => false
      | .scalar64 _ => true
      | .data => true
      | .mwait => l.cls == 0
      | .fetch => true
      | .link => true
      | .fence pool => l.cls == 0 || pool)
  | 2 =>
    (match f with
      | .scalar64 _ => true
      | .data => true
      | .mwait => false
      | .fetch => false
      | .reel => false
      | .link => false
      | .fence pool => !pool)
  | 3 =>
    let (b, _) := scratchBank l.frame
    b / 256 == cluster && s.bankOk { l with form := f } va &&
      (match f with
        | .fetch => false
        | .reel => (s.bank b).switch.isNone
        | .mwait => true
        | .data => true
        | .link => true
        | .fence _ => true
        | .scalar64 _ => true)
  | 4 =>
    (match f with
      | .scalar64 _ => lvl != .u
      | .data => false
      | .mwait => false
      | .fetch => false
      | .reel => false
      | .link => false
      | .fence _ => false)
  | _ => false

/-- The key check of near and far pages (R222 reason 6): a slot whose removal has begun counts as empty (R371). -/
def State.keyOk (s : State) (l : Leaf) (asid : Nat) : Bool :=
  if 2 ≤ l.cls then true
  else
    match Tab.find s.keys l.key, Tab.find s.asids asid with
    | some k, some a => k.owner == a.owner && k.going.isNone
    | _, _ => false

/-- R224: reason 4. SKEW = 11 is a failure whatever the class, where a malformed entry has not failed before. -/
def skewOk (l : Leaf) : Bool := l.skew != 3 && !(l.cls == 0 && l.skew == 2 && 488 ≤ l.frame % 509)

/-- The home of a near or far subpage, an old one where its line has not been copied (R233). -/
def homeOf (cls skew key frame : Nat) (off : Nat) : Place :=
  if cls = 0 then .near ((nearPhys skew (frame * 65536 + off)).getD 0) key (frame * 65536 + off)
  else .far (frame * 65536 + off) key

/-- The place of an address whose leaf passed every check. -/
def State.placeOf (s : State) (l : Leaf) (va : Word) : Place :=
  let off := field va 0 16
  match l.cls with
  | 0 | 1 =>
    if l.mig then
      match s.migs.find? fun m => m.cls = l.cls && m.frame = l.frame with
      | some m =>
        if off / 64 < m.copied then homeOf l.cls l.skew l.key l.frame off
        else homeOf l.cls (field m.old 57 2) l.key (field m.old 16 32) off
      | none => homeOf l.cls l.skew l.key l.frame off
    else homeOf l.cls l.skew l.key l.frame off
  | 2 => .peer (l.frame % 2 ^ 19) (l.frame / 2 ^ 19 % 256) va
  | 3 => .scratch (scratchBank l.frame).1 ((scratchBank l.frame).2 + off)
  | _ => .devreg l.frame off

/-- The leaf that serves one address once every check of R222 has passed, or the lowest reason that
applies. -/
def State.leafFor (s : State) (cluster asid : Nat) (lvl : Level) (acc : Acc) (f : Form) (va : Word) :
    Except Nat Leaf :=
  match s.leafOf asid va with
  | .error r => .error r
  | .ok l =>
    if !permitted l.raw lvl acc then .error 3
    else if !skewOk l then .error 4
    else if !s.classOk l cluster lvl f va then .error 5
    else if !s.keyOk l asid then .error 6
    else .ok { l with form := f }

/-- The translation of one address (R217–R224): its place, or the lowest reason of R222 that applies. -/
def State.xlate (s : State) (cluster asid : Nat) (lvl : Level) (acc : Acc) (f : Form) (va : Word) :
    Except Nat Place :=
  match s.leafFor cluster asid lvl acc f va with
  | .error r => .error r
  | .ok l => .ok (s.placeOf l va)

/-- The pages of a range with their leaves, each translated once (R226); the first page that fails gives
its reason and address. -/
def State.pages (s : State) (cluster asid : Nat) (lvl : Level) (acc : Acc) (f : Form) (base : Word) :
    List Nat → Except (Nat × Word) (List (Nat × Leaf))
  | [] => .ok []
  | p :: rest =>
    let va := if p = base.toNat / 65536 then base else BitVec.ofNat 64 (p * 65536)
    match s.leafFor cluster asid lvl acc f va with
    | .error r => .error (r, va)
    | .ok l =>
      match s.pages cluster asid lvl acc f base rest with
      | .error e => .error e
      | .ok ls => .ok ((p, l) :: ls)

/-- The 64 KiB pages that `n` bytes from an address on touch, by number, each once. -/
def pagesOf (base : Word) (n : Nat) : List Nat :=
  if n = 0 then []
  else (List.range ((base.toNat % 65536 + n - 1) / 65536 + 1)).map fun i => base.toNat / 65536 + i

/-- The place of an address on one of the pages of a range. -/
def State.placeIn (s : State) (ls : List (Nat × Leaf)) (va : Word) : Option Place :=
  (Tab.find ls (va.toNat / 65536)).map fun l => s.placeOf l va

end Sys2Proof.Machine
end

