-- ==== Sys2Proof/Machine/Plan.lean ====
section
/-!
DEFINITION. Named operations over strands and registers, and the shape of an instruction's meaning: a
`Plan` says what it names, what it checks at issue (R48, R49) and what it does when it fires.
-/

namespace Sys2Proof.Machine

/-! ### Cores and strands -/

/-- A core of the device. -/
def State.core (s : State) (c : Nat) : Core := Tab.get Core.start s.cores c

/-- A core changed. -/
def State.setCore (s : State) (c : Nat) (k : Core) : State :=
  { s with cores := Tab.set Core.start s.cores c k }

/-- The strand in a slot, if one is there. -/
def State.strandAt (s : State) (c sl : Nat) : Option Strand := Tab.find (s.core c).slots sl

/-- A strand put into a slot of a core. -/
def Core.place (k : Core) (sl : Nat) (t : Strand) : Core := { k with slots := Tab.put k.slots sl t }

/-- A strand put into a slot. -/
def State.setStrand (s : State) (c sl : Nat) (t : Strand) : State :=
  s.setCore c ((s.core c).place sl t)

/-- A slot freed. -/
def State.freeSlot (s : State) (c sl : Nat) : State :=
  s.setCore c { s.core c with slots := Tab.del (s.core c).slots sl }

/-- A strand that is not a work item, at its start (R66, R373): S, ASID 0, nothing allotted but td0–td15. -/
def Strand.start (pc : Word) : Strand where
  lvl := .s
  asid := 0
  pc := pc
  r := Scalars.start
  h := []
  fmt := []
  td := []
  ntd := 16
  tl := []
  links := []
  wait := 0
  startStamp := 0
  lastReady := 0
  lastIssue := 0
  landing := false
  xfer := 0
  halting := false
  stopped := false
  pend := none
  delivering := false
  xcause := 0
  xel := BitVec.ofNat 64 (2 ^ 63)
  xpc := 0
  xaddr := 0
  xinfo := 0
  xtf := 0
  xdepth := 0
  work := none
  flight := []
  monitor := none
  vec := none
  lost := []
  kept := []

/-- The core that `exec` acts for. -/
def State.curCore (s : State) : Core := s.core s.cur.core

/-- The strand that `exec` acts for; a fresh one where the slot is free. -/
def State.me (s : State) : Strand := (s.strandAt s.cur.core s.cur.slot).getD (Strand.start 0)

/-- The machine at another instruction. -/
def State.setCur (s : State) (c : Cur) : State := { s with cur := c }

/-- What `exec` found, noted. -/
def State.setNote (s : State) (n : Note) : State := { s with note := n }

/-- That strand changed. -/
def State.setMe (s : State) (t : Strand) : State := s.setStrand s.cur.core s.cur.slot t

/-- The sequential successor of the convoy (R92). -/
def Cur.succ (c : Cur) : Word := c.base + BitVec.ofNat 64 (8 * c.nwords)

/-- The cluster of a core (R10). -/
def clusterOf (core : Nat) : Nat := core / 64

/-- A strand's scalar state changed. -/
def Strand.setR (t : Strand) (r : Scalars) : Strand := { t with r := r }

/-- The acting strand's scalar state changed. -/
def State.setR (s : State) (r : Scalars) : State := s.setMe (s.me.setR r)

/-! ### Scalar registers -/

/-- The physical register behind s_i (R101). -/
def Scalars.physNo (r : Scalars) (i : Nat) : Nat := (r.fb + i) % 256

/-- The value of scalar operand number 0–47 (R41, R100): g0 reads zero. -/
def Scalars.get (r : Scalars) (n : Nat) : Word :=
  if n < 32 then Tab.get 0 r.phys (r.physNo n)
  else if n = 32 then 0
  else Tab.get 0 r.g (n - 32)

/-- A scalar register written (R100): a write to g0 is discarded. -/
def Scalars.put (r : Scalars) (n : Nat) (v : Word) : Scalars :=
  if n < 32 then { r with phys := Tab.set 0 r.phys (r.physNo n) v }
  else if n = 32 then r
  else { r with g := Tab.set 0 r.g (n - 32) v }

/-- The value of a scalar operand of the strand. -/
def State.val (s : State) (x : BitVec 6) : Word := s.me.r.get x.toNat

/-- A scalar operand of the strand written. -/
def State.setVal (s : State) (x : BitVec 6) (v : Word) : State := s.setR (s.me.r.put x.toNat v)

/-- The name of a scalar operand; none for g0 as a destination (R47, R100). -/
def sname (x : BitVec 6) : List Name := if x.toNat = 32 then [] else [.s x.toNat]

/-- The length that a vector instruction reads: g(8 + ls) (R38). -/
def State.len (s : State) (ls : BitVec 3) : Nat := (s.me.r.get (40 + ls.toNat)).toNat

/-! ### Vector registers -/

/-- The grant width of the strand that acts (R127). -/
def State.width (s : State) : Nat := s.curCore.width

/-- VLMAX of R127. -/
def vlmax (w width : Nat) : Nat := 8 * width * (64 / w)

/-- The strand holds the lanes (R125). -/
def State.holdsLanes (s : State) : Bool := s.curCore.holder == some s.cur.slot

/-- A vector source register as R137 resolves its name: the youngest older writer in flight, else what the
name held before them. `older` is newest first. -/
def State.srcV (s : State) (older : List Entry) (n : Nat) : VReg :=
  match older.findSome? fun e => Tab.find e.vd n with
  | some r => r
  | none => Tab.get VReg.zero s.curCore.v n

/-- A mask register as R137 resolves its name. -/
def State.srcQ (s : State) (older : List Entry) (n : Nat) : QReg :=
  match older.findSome? fun e => Tab.find e.qd n with
  | some r => r
  | none => Tab.get QReg.zero s.curCore.q n

/-- The value a scalar operand had when the instruction issued. -/
def Entry.arg (e : Entry) (x : BitVec 6) : Word := Tab.get 0 e.args x.toNat

/-- Element `i` of a vector source operand (R41): a register, or a scalar broadcast, which supplies the low
bits of the value it had at issue. -/
def State.elt (s : State) (older : List Entry) (e : Entry) (x : BitVec 6) (w i : Nat) : Elt :=
  let n := x.toNat
  if n < 32 then (s.srcV older n).get w i
  else if n < 48 then .full ((Tab.get 0 e.args n).toNat % 2 ^ w)
  else .full ((Tab.get 0 e.args (n - 48)).toNat % 2 ^ w)

/-- The scalar name that a vector source operand reads, if it is a broadcast (R41). -/
def bname (x : BitVec 6) : List Name :=
  let n := x.toNat
  if n < 32 then [.v n] else if n < 48 then sname x else [.s (n - 48)]

/-- Mask bit `i` of a mask operand: q0 reads 1 everywhere (R35, R132). -/
def State.qbit (s : State) (older : List Entry) (q : Nat) (i : Nat) : Elt :=
  if q = 0 then .full 1 else (s.srcQ older q).get i

/-! ### Names in flight -/

/-- Names that wait on the scoreboard (R81 reason 2). Vector elements never hold issue, and tiles wait by
their table (R185). -/
def Name.boards : Name → Bool
  | .s _ => true
  | .q _ => true
  | .h _ => true
  | .td _ => true
  | .tl _ => true
  | .fmt _ => true
  | .t _ => false
  | .spr => true
  | .latch => false
  | .v _ => false
  | .p _ => true
  | .spill _ => false
  | .frst => true
  | .fsz => true
  | .fctl => true
  | .flags => false

/-- Names that an instruction in flight keeps pending: those of the scoreboard, tiles it still reads or
writes (R184), and what a spill has still to read (R105). -/
def Name.kept : Name → Bool
  | .t _ => true
  | .latch => true
  | .spill _ => true
  | .flags => true
  | .v _ => false
  | n => n.boards

/-- A name as it is known outside its window (R101): s_i is a physical register. -/
def Name.through (fb : Nat) : Name → Name
  | .s i => if i < 32 then .p ((fb + i) % 256) else .s i
  | n => n

/-- A name that an instruction writes waits for the same name, and for a spill that has still to read it (R105). Flags
are added in any order (R111), but after an older `mfs` has read them (R110). -/
def Name.writeWaits (pend : List Name) : Name → Bool
  | .fctl => pend.contains .flags
  | .p i => pend.contains (.p i) || pend.contains (.spill i)
  | n => n.boards && pend.contains n

/-- A word of `mts` (R110): op 0x23, fn 1. -/
def isMts (w : Word) : Bool := !w.getLsbD 62 && field w 54 7 == 0x23 && field w 48 6 == 1

/-- A word of `tid.bind` (R172): op 0x50, fn 1. -/
def isTidBind (w : Word) : Bool := !w.getLsbD 62 && field w 54 7 == 0x50 && field w 48 6 == 1

/-- What an instruction keeps pending until it has retired: everything for an `mts` (R110), its identifier for a
`tid.bind` (R171). -/
def Entry.lasting (e : Entry) : List Name :=
  if isMts e.word then [.spr] else if isTidBind e.word then [.td (field e.word 42 6)] else []

/-- What a convoy in flight keeps pending for younger ones: the names of its instructions, through its window, and what
lasts until they retire. -/
def Convoy.pending (c : Convoy) : List Name :=
  c.entries.flatMap fun e => e.pend.map (Name.through c.before.fb) ++ e.lasting

/-- Names that older convoys in flight have still to write, or to read. -/
def Strand.pending (t : Strand) : List Name :=
  t.flight.flatMap fun c => if c.closed then c.pending else []

/-- The entries of the convoy that is issuing, before the instruction. -/
def Strand.same (t : Strand) : List Entry :=
  match t.flight.getLast? with
  | none => []
  | some c => if c.closed then [] else c.entries

/-! ### The shape of a meaning -/

/-- The first failing check of a list, in order (R49). -/
def firstTrap : List (Option Trap) → Option Trap
  | [] => none
  | some t :: _ => some t
  | none :: r => firstTrap r

/-- A trap raised where a condition does not hold. -/
def require (ok : Bool) (t : Trap) : Option Trap := if ok then none else some t

/-- A structural class (R47). -/
inductive Cls where
  | none | c | m | x | z
deriving DecidableEq, Repr

/-- An instruction's meaning. -/
structure Plan where
  /-- The lowest level that may execute it (R51). -/
  lvl    : Level := .u
  cls    : Cls := .none
  /-- It names a vector register, a mask other than q0 or a tile, or reads a length register (R125). -/
  lanes  : Bool := false
  /-- It is `frame` (R94). -/
  frame  : Bool := false
  /-- Whether it may issue depends on the values of its operands: its convoy waits for those that an earlier
  instruction of the convoy has still to produce (log 41). -/
  strict : Bool := false
  /-- Rechecked by the dailies queue (R327). -/
  chk    : Bool := false
  /-- The widths at which an element of it reads its own element of a vector source; none where it may read others (R329): a
  fold, a scan, a permutation. -/
  widths : Option (List Nat) := none
  /-- It reads memory and writes none, so that its elements may be read once more (R329). -/
  rereads : Bool := false
  /-- It has memory events, which take their place among those of the strand (R275, R278). -/
  mem    : Bool := cls == .m
  /-- Names that it reads and writes (R47, R81). -/
  reads  : List Name := []
  writes : List Name := []
  /-- It is a tile fill, which keeps its done-mask in the tile (R314). -/
  fill   : Bool := false
  /-- The width of its destination elements. -/
  w      : Nat := 8
  /-- Its length register, if it reads one (R47). -/
  len    : Option (BitVec 3) := none
  /-- The reasons of R81, by code, for which its convoy waits now. -/
  waits  : State → List Nat := fun _ => []
  /-- What beginning to wait records: a place in the queue for the lanes, an arrival at a barrier. -/
  onWait : State → State := id
  /-- The checks 3 to 6 of R49 that its entry gives, the frame check of `frame` among them. -/
  check  : State → Option Trap := fun _ => none
  /-- The checks of R49 of an instruction restored from an image (R317): those of its entry but for what it had begun or
  taken itself (R171, R213), by the entry. -/
  recheck : State → Entry → Option Trap := fun s _ => check s
  /-- Restored from an image it goes on with what it had begun, and waits for nothing that issue waits for. -/
  resumed : State → Entry → Bool := fun _ _ => false
  /-- What it copies when its convoy issues, beside its scalar sources. -/
  copies : State → List Nat := fun _ => []
  /-- What it does. It is called when the instruction issues, and again while it has not completed: it
  then does what has become possible. `older` holds the older entries in flight, newest first. -/
  fire   : State → (older : List Entry) → Entry → State × Entry
  /-- What its retirement does beside committing its results. -/
  ending : Ending := .none

/-- The number of a scalar register's name. -/
def Name.sreg : Name → Option Nat
  | .s i => some i
  | _ => none

/-- The number of a vector register's name. -/
def Name.vreg : Name → Option Nat
  | .v i => some i
  | _ => none

/-- The number of a mask register's name. -/
def Name.qreg : Name → Option Nat
  | .q i => some i
  | _ => none

/-- The scalar register that an instruction writes. -/
def Plan.sdest (p : Plan) : Option Nat := p.writes.findSome? Name.sreg

/-- The fresh registers of its vector destinations, all EMPTY at issue (R137). -/
def Plan.freshVs (p : Plan) : Tab VReg := (p.writes.filterMap Name.vreg).foldl (fun t i => Tab.put t i VReg.fresh) []

/-- The fresh register of its mask destination. -/
def Plan.freshQs (p : Plan) : Tab QReg := (p.writes.filterMap Name.qreg).foldl (fun t i => Tab.put t i QReg.fresh) []

/-- An entry for an instruction that issues now. -/
def Entry.start (word : Word) (slotB : Bool) (pos n : Nat) (p : Plan) : Entry where
  word := word
  slotB := slotB
  pos := pos
  done := false
  hasDm := p.cls == .m && !p.fill
  mask := 0
  w := p.w
  sd := p.sdest
  ending := p.ending
  vd := p.freshVs
  qd := p.freshQs
  res := 0
  n := n
  args := []
  aux := []
  pend := []
  held := false
  flt := none
  bad := none
  chk := p.chk
  mem := p.mem
  begun := false
  sure := false
  stuck := false
  again := false
  pages := []
  later := []
  stamp := 0

/-- An instruction that completes as it issues and changes only the state. -/
def Plan.now (f : State → State) : State → List Entry → Entry → State × Entry :=
  fun s _ e => (f s, { e with done := true, pend := [] })

/-- An instruction that completes as it issues with a scalar result in `d` (R314 dword 3). -/
def Plan.scalar (d : BitVec 6) (f : State → Word) : State → List Entry → Entry → State × Entry :=
  fun s _ e => (s.setVal d (f s), { e with done := true, pend := [], res := f s })

end Sys2Proof.Machine
end

