-- ==== Sys2Proof/Machine/Access.lean ====
section
/-!
DEFINITION. One element access to memory (13, R247–R250, R253, R254; 04, R72; 10, R201; 12, R244): the
causes for which it fails, in the order of R247, what holds it, and what it reads or writes.
-/

namespace Sys2Proof.Machine

/-- A list of values as a table whose default is left out. -/
def tabOf {α : Type} [DecidableEq α] (d : α) (n : Nat) (f : Nat → α) : Tab α :=
  ((List.range n).map fun i => (i, f i)).filter fun e => e.2 ≠ d

/-- What the location of a record of a kind at a core is a number of (R330): an address of near memory, of the pool, a bank,
and a register or a lane of that core. -/
def spotOf (kind core : Nat) : Nat :=
  match kind with
  | 1 | 2 => 1
  | 10 => 10
  | 3 => 3
  | 4 => 4 + 16 * (core + 1)
  | 5 | 6 | 7 | 8 => 5 + 16 * (core + 1)
  | k => k + 16 * (core + 1)

/-- A record names the same location as one of a kind at a core. -/
def sameSpot (kind core loc : Nat) (r : List Word) : Bool :=
  r.getD 3 0 == BitVec.ofNat 64 loc && spotOf (field (r.getD 0 0) 0 8) (field (r.getD 0 0) 16 9) == spotOf kind core

/-- A record written to the error ring (R330): dwords 0 to 7. -/
def State.logErr (s : State) (kind sev core lane slot loc asid cause syn : Nat) : State :=
  let seq := s.erecSeq + 1
  let w := fun (n : Nat) => BitVec.ofNat 64 n
  let r : List Word := [w (kind + sev * 2 ^ 8 + core * 2 ^ 16 + lane * 2 ^ 25 + slot * 2 ^ 30), w seq,
    w s.cycle, w loc, w (asid + cause * 2 ^ 8), w syn, w (1 + (s.erecs.filter fun e => sameSpot kind core loc e.2).length), 0]
  { s with erecs := Tab.del (Tab.put s.erecs seq r) (seq - 2 ^ 20), erecSeq := seq }

/-- The trap of an access that fails (R305): a page fault with its reason and access kind. -/
def pageFault (reason : Nat) (acc : Acc) (va : Word) : Trap :=
  { cause := 6, info := reason + acc.kind * 2 ^ 9, addr := va }

/-- The page fault of an access that another device turned away (R253, R305): bit 8 set, the device in
XINFO. -/
def peerFault (reason : Nat) (acc : Acc) (va : Word) (device : Nat) : Trap :=
  { cause := 6, info := reason + 2 ^ 8 + acc.kind * 2 ^ 9, addr := va, xinfo := BitVec.ofNat 64 device }

/-- Where a line's uncorrectable error is recorded: kind 1 for HBM, 10 for the pool, 3 for a bank (R330). An error at
another device is recorded there. -/
def Place.errRecord (p : Place) : Option (Nat × Nat × Nat) :=
  match p with
  | .near _ _ a => some (1, 2, a)
  | .far a _ => some (10, 2, a)
  | .scratch b _ => some (3, 2, b)
  | .peer _ _ _ => none
  | .devreg _ _ => none

/-- A memory-error trap (R305 cause 9). -/
def memoryError (info : Nat) (va : Word) (p : Place) : Trap :=
  { cause := 9, info := info, addr := va, log := p.errRecord }

/-- The bytes a reel tile's root occupies (R199): rows · P. -/
def Root.size (r : Root) : Nat :=
  let w := if r.fcode < 32 then
      (match r.fcode with
        | 0 | 4 | 11 | 12 | 13 | 14 | 16 => 8
        | 15 => 4
        | 1 | 5 | 9 | 10 => 16
        | 2 | 6 | 8 => 32
        | _ => 64)
    else
      let bits := field r.record 0 1 + field r.record 1 3 + field r.record 4 3
      if bits ≤ 4 then 4 else 8
  r.rows * (r.cols * w / 8)

/-- Whether a byte of a bank lies in a root's storage (R200, R201). -/
def Root.covers (r : Root) (unit off : Nat) : Bool :=
  r.units.mapIdx (fun i u => (i, u)) |>.any fun p =>
    p.2 == unit && decide (r.base.toNat % 65536 ≤ p.1 * 65536 + off) &&
      decide (p.1 * 65536 + off < r.base.toNat % 65536 + r.size)

/-- Whether a place lies in live or releasing reel storage (R201, R210). -/
def State.reelLive (s : State) (p : Place) : Bool :=
  match p with
  | .scratch b o =>
    let cl := b / 256
    let unit := b % 256 * 8 + o / 65536
    (s.lineage.any fun e =>
      e.1 / 1024 == cl && e.2.st != 0 && e.2.parent.isNone && e.2.root.covers unit (o % 65536)) ||
      s.releasing.any fun e => e.1 == cl && e.2.covers unit (o % 65536)
  | .near _ _ _ => false
  | .far _ _ => false
  | .peer _ _ _ => false
  | .devreg _ _ => false

/-- Whether a read is held by a linked tide mark (R72): it touches a unit at or above M. The range is compared as virtual
addresses, whatever the ASIDs of the two launches (log 136). -/
def State.tideHeld (s : State) (t : Strand) (va : Word) (width : Nat) : Bool :=
  match t.work with
  | none => false
  | some w =>
    match Tab.find s.launches w.launch with
    | none => false
    | some l =>
      l.links.any fun k =>
        match Tab.find s.launches k.2.1 with
        | none => false
        | some p =>
          !p.retired &&
            (match (Tab.get ⟨0, none⟩ p.marks k.2.2) with
              | ⟨m, some (base, usz, cnt)⟩ =>
                (List.range width).any fun i =>
                  let a := (va + BitVec.ofNat 64 i).toNat
                  decide (base.toNat + m * usz ≤ a) && decide (a < base.toNat + usz * cnt)
              | ⟨_, none⟩ => false)

/-- Whether an access stalls at a bank that is switching its mode (R244). -/
def State.stalled (s : State) (p : Place) : Bool :=
  match p with
  | .scratch b _ => (s.bank b).switch.isSome
  | .near _ _ _ => false
  | .far _ _ => false
  | .peer _ _ _ => false
  | .devreg _ _ => false

/-- What one element access gives. -/
inductive Got where
  /-- It reads this number. -/
  | val (v : Nat)
  /-- It reads data with an uncorrectable error. -/
  | bad (p : Place)
  /-- It is held or stalled. -/
  | held
  /-- It fails. -/
  | fail (t : Trap)
deriving DecidableEq, Repr

/-- What the home of a peer access answers (R253; log 14): a value, a reason, data with an uncorrectable error, or nothing
within FTMO, which then holds of every element of the event that is bound for it. A device reported down fails it
(R380). -/
def State.peerAnswer (s : State) (acc : Acc) (device : Nat) (va : Word) (width : Nat) : Got :=
  if s.down.contains device || Config.peerSilent s.choice device then .fail (peerFault 0 acc va device)
  else
    match Config.peerVerdict s.choice va.toNat % 11 with
    | 0 => .val (Config.peerValue s.choice va.toNat % 2 ^ (8 * width))
    | 10 => .bad (.peer device 0 va)
    | v => .fail (peerFault v acc va device)

/-- One element written at a place that passed its checks. -/
def State.storeAt (s : State) (p : Place) (width v : Nat) : State := s.writeBytes p (toBytes width v)

/-- The verdict of the home on an element that is to be written there (R253). -/
def State.homeVerdict (s : State) (acc : Acc) (r : Except Trap Place) (width : Nat) : Except Trap Place :=
  match r with
  | .ok (.peer d i va) =>
    (match s.peerAnswer acc d va width with
      | .fail t => .error t
      | .val _ => .ok (.peer d i va)
      | .bad _ => .ok (.peer d i va)
      | .held => .ok (.peer d i va))
  | r => r

/-- Lines of which every byte has been written in one event hold no uncorrectable error any more (R295). -/
def State.clearWhole (s : State) (ws : List (Place × Nat)) : State :=
  if s.poison.isEmpty then s
  else
    let offs := ws.flatMap fun w =>
      match s.lineId w.1 with
      | some l => (List.range w.2).map fun i => (l, w.1.offset + i)
      | none => []
    ((offs.map Prod.fst).dedup).foldl (fun st l =>
      if (List.range 64).all fun i => offs.contains (l, i) then { st with poison := Tab.del st.poison l } else st) s

/-- The elements of an event that are bound for other devices as one message for each home (R253, R276). -/
def peerMsgs (kind : Nat) (ty : Ty) (sat ask : Bool) (xs : List (Nat × PeerElt)) : List Msg :=
  ((xs.map Prod.fst).reverse.dedup.reverse).map fun d =>
    .peerRequest ⟨d, kind, ty, sat, ask, (xs.filter fun x => x.1 == d).map Prod.snd⟩

/-- They leave, to perform there. -/
def State.sendPeers (s : State) (kind : Nat) (ty : Ty) (sat : Bool) (xs : List (Nat × PeerElt)) : State :=
  if xs.isEmpty then s else { s with out := s.out ++ peerMsgs kind ty sat false xs }

/-- The verdicts of the homes are asked for first (R253). -/
def State.askPeers (s : State) (kind : Nat) (ty : Ty) (sat : Bool) (xs : List (Nat × PeerElt)) : State :=
  if xs.isEmpty then s else { s with out := s.out ++ peerMsgs kind ty sat true xs }

/-- An element of another device, for a message. -/
def Place.peerElt (p : Place) (width : Nat) (half : Option Bool) (data compare : Nat) : Option (Nat × PeerElt) :=
  match p with
  | .peer d i va => some (d, ⟨i, va.toNat, width, half, data, compare⟩)
  | .near _ _ _ => none
  | .far _ _ => none
  | .scratch _ _ => none
  | .devreg _ _ => none

/-- What the reads of one event leave, by place and width: far lines cached here (R283), and a request to each home (R253). -/
def State.noteReads (s : State) (xs : List (Place × Nat)) : State :=
  (xs.foldl (fun st x => st.noteRead x.1) s).sendPeers 0 .i8 false (xs.filterMap fun x => x.1.peerElt x.2 none 0 0)

/-- The bytes of one event written at their places, the event's own order kept: here, with lines written whole made sound
(R295), and to each home in one message (R253, R276). -/
def State.writeAll (s : State) (ws : List (Place × List Byte)) : State :=
  ((ws.foldl (fun st w => if (w.1.peerElt 0 none 0 0).isSome then st else st.writeBytes w.1 w.2) s).clearWhole
    (ws.map fun w => (w.1, w.2.length))).sendPeers 1 .i8 false
      (ws.filterMap fun w => w.1.peerElt w.2.length none (ofBytes w.2) 0)

/-- The first of the lines that an event writes that its home turns away (R253). -/
def State.linesRefused (s : State) (ps : List (Place × List Byte)) : Option Trap :=
  ps.findSome? fun p =>
    match s.homeVerdict .write (.ok p.1) p.2.length with
    | .error t => some t
    | .ok _ => none

/-- What a read that an instruction makes on its own behalf gives (R385): the bytes, a hold, or a trap. -/
inductive Own where
  | ok (bytes : List Byte)
  | held
  | trap (t : Trap)
deriving DecidableEq, Repr

/-- The page of an address among translated ones; every page of the range has been translated. -/
def State.spot (s : State) (ls : List (Nat × Leaf)) (va : Word) : Place := (s.placeIn ls va).getD (.devreg 0 0)

/-- Dwords from an address on, each at its place: the first that fails decides. A tide mark holds them as it holds loads
(log 124). -/
def State.ownDwords (s : State) (t : Strand) (ls : List (Nat × Leaf)) (fault : Nat → Word → Trap) (va : Word) :
    Nat → Own
  | 0 => .ok []
  | n + 1 =>
    let p := s.spot ls va
    if s.reelLive p then .trap (fault 9 va)
    else if s.tideHeld t va 8 || s.stalled p then .held
    else if s.poisoned p then .trap { memoryError 6 va p with addr := va }
    else
      let here : Own := match p with
        | .peer d _ _ =>
          (match s.peerAnswer .read d va 8 with
            | .val v => .ok (toBytes 8 v)
            | .fail e => .trap e
            | .bad q => .trap (memoryError 6 va q)
            | .held => .held)
        | _ => .ok (s.readBytes p 8)
      match here with
      | .ok bs =>
        (match s.ownDwords t ls fault (va + 8#64) n with
          | .ok more => .ok (bs ++ more)
          | .held => .held
          | .trap e => .trap e)
      | .held => .held
      | .trap e => .trap e

/-- `8·n` bytes read from an aligned address on an instruction's own behalf (R385): every page is translated
first. `fault` makes the trap of a page that fails. -/
def State.ownRead (s : State) (t : Strand) (core : Nat) (fault : Nat → Word → Trap) (va : Word) (n : Nat) : Own :=
  match s.pages (clusterOf core) t.asid t.lvl .read .data va (pagesOf va (8 * n)) with
  | .error (r, a) => .trap (fault r a)
  | .ok ls => s.ownDwords t ls fault va n

/-- What such a read leaves (R253, R283). -/
def State.ownNote (s : State) (t : Strand) (core : Nat) (va : Word) (n : Nat) : State :=
  match s.pages (clusterOf core) t.asid t.lvl .read .data va (pagesOf va (8 * n)) with
  | .error _ => s
  | .ok ls => s.noteReads ((List.range n).map fun i => (s.spot ls (va + BitVec.ofNat 64 (8 * i)), 8))

/-- The lines of HBM and of the pool that `n` bytes from an address on lie in, for the strand (R91). -/
def State.linesAt (s : State) (t : Strand) (core : Nat) (va : Word) (n : Nat) : List Nat :=
  match s.pages (clusterOf core) t.asid t.lvl .read .data va (pagesOf va n) with
  | .error _ => []
  | .ok ls => (List.range ((va.toNat % 64 + n + 63) / 64)).filterMap fun i =>
      (s.spot ls (BitVec.ofNat 64 (va.toNat / 64 * 64 + 64 * i))).line

/-- The pages of many addresses, each translated once (R251): what each gives. -/
abbrev Pages := List (Nat × PageRes)

/-- What a translation gave, as an entry keeps it. -/
def PageRes.of : Except Nat Leaf → PageRes
  | .error r => .bad r
  | .ok l => .ok l

/-- The distinct pages of a list of addresses, translated (R226, R251); those of `m` have been. -/
def State.pageMap (s : State) (cluster asid : Nat) (lvl : Level) (acc : Acc) (f : Form) : List Word → Pages → Pages
  | [], m => m
  | va :: rest, m =>
    match Tab.find m (va.toNat / 65536) with
    | some _ => s.pageMap cluster asid lvl acc f rest m
    | none => s.pageMap cluster asid lvl acc f rest ((va.toNat / 65536, PageRes.of (s.leafFor cluster asid lvl acc f va)) :: m)

/-- The pages of an instruction's addresses: those that it has translated before stand (R226). -/
def State.pagesOn (s : State) (e : Entry) (acc : Acc) (f : Form) (vas : List Word) : Pages :=
  s.pageMap (clusterOf s.cur.core) s.me.asid s.me.lvl acc f vas e.pages

/-- A place that its pool decoder no longer serves (R382). -/
def State.unserved (s : State) (p : Place) : Bool :=
  match p with
  | .far a _ => !s.poolEnabled a
  | .near _ _ _ => false
  | .peer _ _ _ => false
  | .scratch _ _ => false
  | .devreg _ _ => false

/-- The checks of an element of `width` bytes in the order of R247, its page translated before: translation, alignment,
reel storage. Bounds, sequence map and sources are the caller's. -/
def State.checkIn (s : State) (m : Pages) (acc : Acc) (va : Word) (width : Nat) : Except Trap Place :=
  match (Tab.find m (va.toNat / 65536)).getD (.bad 1) with
  | .bad r => .error (pageFault r acc va)
  | .ok l =>
    let p := s.placeOf l va
    if s.unserved p then .error (pageFault 2 acc va)
    else if !s.bankOk l va then .error (pageFault 5 acc va)
    else if va.toNat % width ≠ 0 then .error { cause := 7, addr := va }
    else if s.reelLive p then .error (pageFault 9 acc va)
    else .ok p

/-- The same checks of one element, its page translated now. -/
def State.checkElt (s : State) (t : Strand) (core : Nat) (acc : Acc) (f : Form) (va : Word) (width : Nat) :
    Except Trap Place :=
  s.checkIn (s.pageMap (clusterOf core) t.asid t.lvl acc f [va] []) acc va width

/-- The checks of an element that is to be written, the home's verdict among them (R249, R253). -/
def State.checkOut (s : State) (m : Pages) (acc : Acc) (va : Word) (width : Nat) : Except Trap Place :=
  s.homeVerdict acc (s.checkIn m acc va width) width

/-- Bytes at a place that a later part of an older instruction will touch (R279, R280): a younger access to them takes its
place after it. -/
def State.behind (s : State) (older : List Entry) (p : Place) (width : Nat) : Bool :=
  older.any fun e => !e.done && e.later.any fun x =>
    decide (x.1 < s.byteKey p + width) && decide (s.byteKey p < x.1 + x.2)

/-- One element of a read with its page translated before (R248): its place, or none while it is held (R72, R244, R280). -/
def State.readAt (s : State) (t : Strand) (older : List Entry) (m : Pages) (acc : Acc) (va : Word) (width : Nat) :
    Except Trap (Option Place) :=
  match s.checkIn m acc va width with
  | .error e => .error e
  | .ok p => .ok (if s.tideHeld t va width || s.stalled p || s.behind older p width then none else some p)

/-- One element read with pages translated before (R248). -/
def State.loadIn (s : State) (t : Strand) (older : List Entry) (m : Pages) (acc : Acc) (va : Word) (width : Nat) : Got :=
  match s.readAt t older m acc va width with
  | .error e => .fail e
  | .ok none => .held
  | .ok (some p) =>
    match p with
    | .peer d _ _ => s.peerAnswer acc d va width
    | _ => if s.poisoned p then .bad p else .val (s.readNat p width)

/-- An access whose first event would reach bytes of an older later part waits whole (R276, R280). -/
def State.mustWait (s : State) (older : List Entry) (m : Pages) (acc : Acc) (spans : List (Word × Nat)) : Bool :=
  (older.any fun e => !e.done && !e.later.isEmpty) && spans.any fun x =>
    match s.checkIn m acc x.1 x.2 with
    | .ok p => s.behind older p x.2
    | .error _ => false

/-- What the reads of one event leave, by address and width (R253, R283): those that are not held have performed. -/
def State.noteIn (s : State) (t : Strand) (older : List Entry) (m : Pages) (acc : Acc) (spans : List (Word × Nat)) : State :=
  s.noteReads (spans.filterMap fun x =>
    match s.readAt t older m acc x.1 x.2 with
    | .ok (some p) => some (p, x.2)
    | .ok none => none
    | .error _ => none)

/-- The bytes that elements will touch later (R276), by address and width: any byte, while an address among them is not
`known` or fails. -/
def State.laterSpans (s : State) (m : Pages) (acc : Acc) (known : Bool) (spans : List (Word × Nat)) : List (Nat × Nat) :=
  if known then spans.map fun x =>
    match s.checkIn m acc x.1 x.2 with
    | .ok p => (s.byteKey p, x.2)
    | .error _ => (0, 2 ^ 128)
  else [(0, 2 ^ 128)]

/-- Before elements are written, every home among their places is asked for its verdicts (R253), if nothing fails here. -/
def State.askHomes (s : State) (m : Pages) (acc : Acc) (kind : Nat) (ty : Ty) (sat : Bool) (spans : List (Word × Nat)) : State :=
  let places := spans.map fun x => (s.checkIn m acc x.1 x.2, x.2)
  if places.any fun p => p.1.toOption.isNone then s
  else s.askPeers kind ty sat (places.filterMap fun p => p.1.toOption.bind fun q => q.peerElt p.2 none 0 0)

/-- Latent error records for lines that elements read as POISON without a trap (R248, R330, R381), one for each
line. -/
def State.logBad (s : State) (m : Pages) (acc : Acc) (vas : List Word) : State :=
  if s.poison.isEmpty then s
  else
    let bad := vas.filterMap fun va =>
      match s.checkIn m acc va 1 with
      | .ok p => if s.poisoned p then p.errRecord.map fun r => (r.1, if r.1 = 3 then r.2.2 else r.2.2 / 64 * 64) else none
      | .error _ => none
    bad.reverse.dedup.reverse.foldl (fun st r => st.logErr r.1 1 s.cur.core 0 s.cur.slot r.2 s.me.asid 0 0) s

/-- The dword at a place in a list of bytes. -/
def dwordOf (bs : List Byte) (i : Nat) : Word := BitVec.ofNat 64 (ofBytes ((bs.drop (8 * i)).take 8))

/-- The fault of an entry: that of its lowest element (R306). -/
def Entry.fault (e : Entry) : Option Trap :=
  match e.flt, e.bad with
  | some a, some b => if a.elem.getD 0 ≤ b.elem.getD 0 then some a else some b
  | some a, none => some a
  | none, b => b

/-- An access that has translated a page that `hit` tells, and has still to perform (R234, R371). -/
def Entry.reaches (e : Entry) (hit : Nat × PageRes → Bool) : Bool :=
  !e.done && (e.held || e.flt.isNone) && e.pages.any hit

/-- An instruction's groups have been found to agree, if it is checked (R328). -/
def Entry.agreed (e : Entry) : Bool := !e.chk || e.sure

/-- Every older instruction of the strand in flight has completed without a fault, and agreed: every older access has
performed, and none of them can still trap, so that a store may perform (R250, R316, R329). -/
def allDone (older : List Entry) : Bool := older.all fun e => e.done && e.fault.isNone && e.agreed

/-- Every older instruction of the strand in flight has performed its first memory event, and what its later parts will
touch is known, so that a read may take its place after them (R278, R279). -/
def allBegun (older : List Entry) : Bool := older.all fun e => e.done || (e.begun && !e.again) || !e.mem

end Sys2Proof.Machine
end

