-- ==== Sys2Proof/Machine/Image.lean ====
section
/-!
DEFINITION. The context image (16, R312–R315): what a strand's image holds, as runs of bytes at their
offsets, each a whole number of 64-byte lines. A section that the strand does not use is left out.
-/

namespace Sys2Proof.Machine

/-- A run of bytes at an offset of the image. -/
abbrev Chunk := Nat × List Byte

/-- Dwords as bytes. -/
def dwords (ws : List Nat) : List Byte := ws.flatMap (toBytes 8)

/-- FRST (R101). -/
def Scalars.frst (r : Scalars) : Word := BitVec.ofNat 64 (r.fb + r.fsz * 2 ^ 8 + r.nres * 2 ^ 16)

/-- CORELOC (R19). -/
def coreloc (core slot : Nat) : Word :=
  BitVec.ofNat 64 (core / 128 + core / 64 * 2 ^ 2 + core % 64 * 2 ^ 5 + core * 2 ^ 11 + slot * 2 ^ 20)

/-- The bytes of a vector register's data, lowest position first: a position that is not FULL holds nothing readable, and its
byte is undefined (R333; log 132). -/
def VReg.bytes (r : VReg) (free : Nat → Byte) : List Byte :=
  if r.tags = fullTags then toBytes 2048 r.data.toNat
  else (toBytes 2048 r.data.toNat).mapIdx fun p b => if getBits r.tags (2 * p) 2 = 1 then b else free p

/-- The bytes of a mask register's bits, each bit that is not FULL undefined. -/
def QReg.bytes (r : QReg) (free : Nat → Byte) : List Byte :=
  if r.tags = fullTags then toBytes 256 r.bits.toNat
  else (List.range 256).map fun j => (List.range 8).foldl (fun b i =>
    putBits b i 1 (if getBits r.tags (2 * (8 * j + i)) 2 = 1 then getBits r.bits (8 * j + i) 1 else getBits (free j) i 1)) 0#8

/-- A vector register's 4 KiB (R312). -/
def VReg.chunk (r : VReg) (free : Nat → Byte) (off : Nat) : List Chunk :=
  [(off, r.bytes fun p => free (off + p)), (off + 0x800, toBytes 512 r.tags.toNat)]

/-- A mask register's bits and tags (R312). -/
def QReg.chunk (r : QReg) (free : Nat → Byte) (off : Nat) : List Chunk :=
  [(off, r.bytes fun p => free (off + p)), (off + 0x100, toBytes 512 r.tags.toNat)]

/-! ### Tiles -/

/-- Rows and columns of a shape (R181). -/
def Tile.rows (t : Tile) : Nat := t.rowsm1 + 1
def Tile.cols (t : Tile) : Nat := t.colsm1 + 1

/-- Bits of one code in the tile (R180). -/
def Tile.ebits (t : Tile) : Nat := 4 * 2 ^ t.ew

/-- Every element of a fill has arrived. -/
def Tile.filled (t : Tile) : Bool :=
  match t.fill with
  | none => false
  | some f => (List.range (t.rows * t.cols)).all fun i => f.done.getLsbD i

/-- FILLING to READY, once every element and scale has arrived (R184). -/
def Tile.finishFill (t : Tile) : Tile := if t.st = .filling ∧ t.filled then { t with st := .ready, fill := none } else t

/-- DRAINING to READY, once every element has been written (R189). -/
def Tile.finishDrain (t : Tile) : Tile :=
  match t.fill with
  | none => t
  | some f => if t.st = .draining ∧ f.done = BitVec.allOnes 131072 then { t with st := .ready, fill := none } else t

/-- A tile as settling leaves it (R318): what has arrived or been written completes. -/
def Tile.settled (t : Tile) : Tile := t.finishFill.finishDrain

/-- The TSHAPE image with STATE (R181). -/
def Tile.shape (t : Tile) : Nat :=
  t.rowsm1 + t.colsm1 * 2 ^ 8 + t.ew * 2 ^ 18 +
    (match t.st with
      | .empty => 0
      | .filling => 1
      | .ready => 2
      | .draining => 3) * 2 ^ 20

/-- The four POISON dwords. -/
def poisonDwords (p : BitVec 256) : List Nat := (List.range 4).map fun i => p.toNat / 2 ^ (64 * i) % 2 ^ 64

/-- A tile slot (R315); an EMPTY tile writes only its control area. -/
def Tile.chunks (t : Tile) (off : Nat) : List Chunk :=
  let f := t.fill.getD ⟨0, 0, 0, false, 0⟩
  let control : Chunk := (off + 0x9000, dwords ([t.shape] ++ poisonDwords t.poison ++
    [t.snap.fcode + (if t.snap.bnd then 64 else 0) + t.snap.tscale.toNat * 2 ^ 32, f.sa.toNat, f.sb.toNat]))
  let rest : Chunk := (off + 0x9080, dwords [t.snap.record.toNat, 0, 0, 0, 0, 0, 0, 0])
  let copy : Chunk := (off + 0x9040, toBytes 64 f.td.toNat)
  let body : List Chunk := if t.st = .empty then [] else
    [(off, toBytes 16384 t.codes.toNat), (off + 0x4000, toBytes 4096 t.side.toNat)]
  let mask : List Chunk := if t.fill.isSome || t.st == .draining then [(off + 0x5000, toBytes 16384 f.done.toNat)] else []
  body ++ mask ++ [control, copy, rest]

/-- The latch slot (R315). -/
def Latch.chunks (l : Latch) (off : Nat) : List Chunk :=
  [(off, toBytes 16384 l.codes.toNat), (off + 0x4000, toBytes 4096 l.side.toNat),
   (off + 0x9000, dwords ([l.k - 1 + (l.n - 1) * 2 ^ 8 + l.ew * 2 ^ 18] ++ poisonDwords l.poison ++
     [l.fa + l.fb * 2 ^ 8 + (if l.bsen then 2 ^ 14 else 0) + l.k * 2 ^ 16 + l.n * 2 ^ 24,
      l.sA.toNat + l.sB.toNat * 2 ^ 32, l.scale.toNat])),
   (off + 0x9080, dwords [l.recA.toNat, l.recB.toNat, 0, 0, 0, 0, 0, 0])]

/-- A word that issues a command: `tcopy` in its forms, `slab.grow` and `smap.inv` (R263). -/
def isCommand (w : Word) : Bool :=
  !w.getLsbD 62 && ((field w 54 7 == 0x69 && field w 48 6 == 0) || (field w 54 7 == 0x6A && field w 48 6 != 1))

/-- DONE of R314: complete with no trap to deliver, or a command that has taken its number. A `tid.bind` completes only as
it retires (R171), and is executed again. -/
def Entry.done314 (e : Entry) : Bool :=
  (e.done && e.flt.isNone && !isTidBind e.word) || (isCommand e.word && e.res != 0)

/-- START of R314: the lowest element below n not yet fired. -/
def Entry.start314 (e : Entry) : Nat :=
  let absent := fun i =>
    if e.hasDm then !e.mask.getLsbD i
    else (e.vd.any fun r => r.2.get e.w i == .empty) || e.qd.any fun r => r.2.get i == .empty
  if e.done314 then 0 else ((List.range e.n).find? absent).getD 0

/-- The numbers that the entries before an entry take: destination slots and done-masks. -/
def Entry.dests (e : Entry) : Nat := e.vd.length + e.qd.length

/-- An `rld` or `rst` word (R213): op 0x62. -/
def isReelAccess (w : Word) : Bool := !w.getLsbD 62 && field w 54 7 == 0x62

/-- A `twalk` word (R355): op 0x78, fn 0. -/
def isTwalk (w : Word) : Bool := !w.getLsbD 62 && field w 54 7 == 0x78 && field w 48 6 == 0

/-- The scalar result has been given: by an instruction that is complete, or by a walk that has performed and of which only
elements of old registers are missing (R356). -/
def Entry.given (e : Entry) : Bool := e.done || (isTwalk e.word && e.mask.getLsbD 0)

/-- Dword 3 of R314: what a DONE instruction took, the handle image of an `rld` or `rst`, or the count of a walk that has
performed (log 146). -/
def Entry.result314 (e : Entry) : Nat :=
  if e.done314 || isReelAccess e.word || (isTwalk e.word && e.mask.getLsbD 0) then e.res.toNat else 0

/-- The in-flight table, its done-masks and its destination slots (R314). -/
def flightChunks (free : Nat → Byte) : List (Nat × Entry) → (idx dest dm : Nat) → List Chunk
  | [], _, _, _ => []
  | (conv, e) :: rest, idx, dest, dm =>
    let slotBytes := (List.range 8).map fun j => if j < e.dests then BitVec.ofNat 8 (dest + j) else 255#8
    let d0 := conv % 16 + e.pos * 2 ^ 4 + (if e.slotB then 2 ^ 7 else 0) + (if e.done314 then 2 ^ 8 else 0) +
      (if e.hasDm then 2 ^ 9 + dm * 2 ^ 10 else 0) + e.start314 * 2 ^ 16
    let entry : Chunk := (0x2000 + 64 * idx, dwords [d0, e.word.toNat, ofBytes slotBytes, e.result314, 0, 0, 0, 0])
    let mask : List Chunk := if e.hasDm then [(0x4000 + 256 * dm, toBytes 256 e.mask.toNat)] else []
    let vs := (e.vd.mapIdx fun j r => r.2.chunk free (0x30000 + 4096 * (dest + j))).flatten
    let qs := (e.qd.mapIdx fun j r => r.2.chunk free (0x30000 + 4096 * (dest + e.vd.length + j))).flatten
    entry :: mask ++ vs ++ qs ++
      flightChunks free rest (idx + 1) (dest + e.dests) (dm + (if e.hasDm then 1 else 0))

/-- The elements that an instruction made POISON from POISON, absent again: their fault is not the one reported, and they
fault again on resumption (R306). What a memory instruction has performed stays (R316); a walk is run again whole
(R357). -/
def Entry.unfire (e : Entry) : Entry :=
  let e := if isTwalk e.word then { e with mask := 0, begun := false } else e
  let kept := fun i => e.hasDm && e.mask.getLsbD i
  let vd := e.vd.map fun r => (r.1, (List.range (16384 / e.w)).foldl (fun x i =>
    if x.get e.w i = .poison ∧ !kept i then x.put e.w i .empty else x) r.2)
  let qd := e.qd.map fun r => (r.1, (List.range 2048).foldl (fun x i =>
    if x.get i = .poison ∧ !kept i then x.put i .empty else x) r.2)
  { e with done := e.done && vd == e.vd && qd == e.qd, vd := vd, qd := qd }

/-- The reported instruction is reported for having consumed POISON: then all that it made POISON stays so, for which one
trap is raised (R136, R316). Where another fault of it is reported, that is absent (R306). -/
def Entry.reported (e : Entry) : Bool := e.fault == e.bad

/-- Entries as an image holds them: of those that consumed POISON only the reported one, the first faulting instruction
of the oldest convoy, keeps what it made POISON (R306, R316). `first` says that no fault has been met yet in the oldest
convoy. -/
def unreported : (first : Bool) → List (Nat × Entry) → List (Nat × Entry)
  | _, [] => []
  | first, (i, e) :: es =>
    let mine := first && i == 0 && e.fault.isSome
    (i, if e.bad.isSome && !(mine && e.reported) then e.unfire else e) :: unreported (first && !mine) es

/-- A word of class C (R47): op 0x01 to 0x05, `halt`, `trap` and `sret`. -/
def isClassC (w : Word) : Bool :=
  let op := field w 54 7
  !w.getLsbD 62 && ((1 ≤ op && op ≤ 5) || (op == 6 && field w 48 6 == 1) || op == 0x0B)

/-- A `frame` word (R94): op 0x17, fn 0. -/
def isFrame (w : Word) : Bool := !w.getLsbD 62 && field w 54 7 == 0x17 && field w 48 6 == 0

/-- A `ret` word (R96): op 0x04, fn 2. -/
def isRet (w : Word) : Bool := !w.getLsbD 62 && field w 54 7 == 4 && field w 48 6 == 2

/-- A `call` (op 0x05) or `calli` (op 0x04, fn 1) word (R96). -/
def isCall (w : Word) : Bool :=
  !w.getLsbD 62 && (field w 54 7 == 5 || (field w 54 7 == 4 && field w 48 6 == 1))

/-- Entries as an image holds them: a `frame` or `ret` younger than one that has not completed is not DONE, since the window
is saved as it stood before that one, and it is reissued whole (R314). -/
def slidBack : (open_ : Bool) → List (Nat × Entry) → List (Nat × Entry)
  | _, [] => []
  | open_, (i, e) :: es =>
    let slides := isFrame e.word || isRet e.word
    (i, if slides && open_ then { e with done := false, res := 0, aux := [] } else e) :: slidBack (open_ || (slides && !e.done)) es

/-- Every entry in flight with the number of its convoy, oldest first, as an image holds it. -/
def Strand.entries (t : Strand) : List (Nat × Entry) :=
  slidBack false (unreported true (t.flight.mapIdx fun i c => c.entries.map fun e => (i, e)).flatten)

/-- The convoy holds a `frame` or a `ret` that has not completed. -/
def Convoy.sliding (c : Convoy) : Bool := c.entries.any fun e => !e.done && (isFrame e.word || isRet e.word)

/-- The scalar results of the completed instructions that stand before the first incomplete or faulting one. -/
def completedResults : List Entry → Scalars → Scalars
  | [], r => r
  | e :: es, r =>
    if e.done && e.fault.isNone then
      completedResults es (match e.sd with
        | some n => r.put n e.res
        | none => r)
    else r

/-- Physical registers written by number, from a list of numbers and values in turn. -/
def writePhys : List Nat → Tab Word → Tab Word
  | p :: v :: rest, t => writePhys rest (Tab.set 0 t p (BitVec.ofNat 64 v))
  | _, t => t

/-- The registers that the completed `frame`s and `ret`s of some convoys wrote beside a scalar result: the links of the new
frames, and what was refilled (R106, R107). -/
def slidRegs (cs : List Convoy) (t : Tab Word) : Tab Word :=
  (cs.flatMap Convoy.entries).foldl (fun t e => if e.done && (isFrame e.word || isRet e.word) then writePhys e.aux t else t) t

/-- The scalar state that an image holds and a handler finds (R309, R312, R314, R316). The registers are those before the
oldest unretired convoy with the results of its completed instructions older than the first that is not (log 46). The
window, the backing store and the pending link stand as issued instructions left them, but for a `frame` or a `ret` that
has not completed: it and every younger one are reissued whole, and they are those from before it, with the link that the
first `frame` among them takes; the flags of FCTL stand as they are. -/
def Strand.saved (t : Strand) : Scalars :=
  match t.flight with
  | [] => t.r
  | c :: _ =>
    let slid := t.flight.takeWhile fun c => !c.sliding
    let rest := t.flight.dropWhile fun c => !c.sliding
    let w := (rest.head?.map Convoy.before).getD t.r
    let r := completedResults c.entries c.before
    let frame := rest.find? fun c => c.entries.any fun e => isFrame e.word
    { r with
      phys := slidRegs slid r.phys, fb := w.fb, nres := w.nres, fsz := w.fsz, sizes := w.sizes, bsp := w.bsp
      fctl := t.r.fctl, plink := (frame.map fun c => c.before.plink).getD t.r.plink }

/-- The address that the header's PC holds: the first word of the oldest convoy not retired (R313). -/
def Strand.savedPc (t : Strand) : Word :=
  match t.flight with
  | [] => t.pc
  | c :: _ => c.base

/-- A handle register as an image holds it (R202, R211): ARR is 1 only while the delivery has not been recorded in its
entry. -/
def State.handleWord (s : State) (cl : Nat) (w : Word) : Word :=
  if w.getLsbD 62 && (Tab.get Lineage.start s.lineage (1024 * cl + field w 0 10)).move.isNone then w &&& ~~~(1#64 <<< 62) else w

/-- The image of a strand in a slot (R312–R315). `lanes` says that it holds them. -/
def State.image (s : State) (core slot : Nat) (t : Strand) : List Chunk :=
  let k := s.core core
  let vec : Option Vectors := if k.holder == some slot then some ⟨k.width, k.v, k.q, k.tiles, k.latch⟩ else t.vec
  let lanes := vec.isSome
  let x := vec.getD ⟨0, [], [], [], none⟩
  let r := t.saved
  let free := Config.undefinedByte s.choice
  let bit := fun (b : Bool) (n : Nat) => if b then 2 ^ n else 0
  let work := t.work.getD ⟨0, 2 ^ 64 - 1, 0, 0, 0⟩
  let es := t.entries
  let ndest := es.foldl (fun n e => n + e.2.dests) 0
  let head := 0x5843 + 2 ^ 16 + t.lvl.num * 2 ^ 24 + bit lanes 26 + bit x.latch.isSome 27 +
    x.width * 2 ^ 28 + t.asid * 2 ^ 34 + bit r.plink.isSome 42 + bit t.pend.isSome 43 +
    t.wait * 2 ^ 44 + bit t.work.isSome 48
  let header := dwords [head, t.savedPc.toNat, (r.plink.getD 0).toNat, r.frst.toNat, r.bsp.toNat, r.bslo.toNat,
    r.bslim.toNat, r.fctl.toNat, t.xcause.toNat, t.xel.toNat, t.xpc.toNat, t.xaddr.toNat, t.xinfo.toNat,
    t.xtf.toNat, work.launch, work.linear, (coreloc core slot).toNat,
    es.length + ndest * 2 ^ 8 + t.ntd * 2 ^ 16 + t.tl.length * 2 ^ 23,
    work.nbank + work.bank * 2 ^ 16 + clusterOf core * 2 ^ 24] ++ toBytes 104 0
  let regs := fun (f : Nat → Nat) (n : Nat) => dwords ((List.range n).map f)
  let ctr := fun i => Tab.get Ctr.free k.ctrs (t.tl.getD i 0)
  let scalars : List Chunk :=
    [(0, header), (0x100, regs (fun i => (Tab.get 0 r.g i).toNat) 16),
     (0x180, regs (fun i => (s.handleWord (clusterOf core) (Tab.get 0 t.h i)).toNat) 16), (0x200, regs (fun i => (Tab.get 0 t.fmt i).toNat) 16),
     (0x400, (List.range 256).map fun p => BitVec.ofNat 8 (Tab.get 0 r.sizes p)),
     (0x800, regs (fun i => (Tab.get 0 r.phys i).toNat) 256)]
  let timelines : List Chunk := if t.tl.isEmpty then [] else
    [(0x280, ((List.range 16).map fun i =>
      if i < t.tl.length then dwords [(ctr i).iss, (ctr i).done] else dwords [0, 0]).flatten)]
  let tds : List Chunk := (List.range 64).map fun i =>
    (0x1000 + 64 * i, toBytes 64 (if i < t.ntd then (Tab.get 0 t.td i).toNat else 0))
  let vecs : List Chunk := if !lanes then [] else
    ((List.range 7).map fun j => (Tab.get QReg.zero x.q (j + 1)).chunk free (0x6000 + 0x400 * j)).flatten ++
      ((List.range 32).map fun j => (Tab.get VReg.zero x.v j).chunk free (0x10000 + 0x1000 * j)).flatten ++
      ((List.range 8).map fun j => (Tab.get Tile.start x.tiles j).settled.chunks (0x90000 + 0xC000 * j)).flatten ++
      (match x.latch with
        | none => []
        | some l => l.chunks 0xF0000)
  let zeros : List Chunk := (List.range 256).map fun i => (0xFC000 + 64 * i, toBytes 64 0)
  scalars ++ timelines ++ tds ++ flightChunks free es 0 0 0 ++ vecs ++ zeros

/-- A run of bytes cut into its 64-byte lines. -/
def linesOf (off : Nat) (bs : List Byte) : List Chunk :=
  (List.range (bs.length / 64)).map fun i => (off + 64 * i, (bs.drop (64 * i)).take 64)

/-- The lines of an image at their places, under an ASID at level S, or the first access of it that fails: every page it
touches is translated before anything is written (R307, R322). -/
def State.imageLines (s : State) (cluster asid : Nat) (addr : Word) (cs : List Chunk) :
    Except (Nat × Word) (List (Place × List Byte)) :=
  let lines := cs.flatMap fun c => linesOf c.1 c.2
  let at_ := fun (off : Nat) => addr + BitVec.ofNat 64 off
  match s.pages cluster asid .s .write .data addr ((lines.map fun l => (at_ l.1).toNat / 65536).dedup) with
  | .error e => .error e
  | .ok ls =>
    match lines.find? fun l => s.reelLive ((s.placeIn ls (at_ l.1)).getD (.devreg 0 0)) with
    | some l => .error (9, at_ l.1)
    | none => .ok (lines.map fun l => ((s.placeIn ls (at_ l.1)).getD (.devreg 0 0), l.2))

/-- What an image has no place for, kept beside it by the place of its first line (log 115). -/
def State.keepBeside (s : State) (p : Place) (t : Strand) : State :=
  { s with beside := Tab.set Beside.none s.beside (p.block.getD 0) ⟨t.kept, t.flight.map (fun c => c.before.fb), if t.landing then some t.pc else none, t.xfer⟩ }

/-- The image of a strand written to the places of its lines. -/
def State.putImage (s : State) (t : Strand) (ls : List (Place × List Byte)) : State :=
  (s.writeAll ls).keepBeside ((ls.head?.map Prod.fst).getD (.devreg 0 0)) t

end Sys2Proof.Machine
end

