-- ==== Sys2Proof/Machine/Ops.lean ====
section
/-!
DEFINITION. The named operations that families share: releasing the lanes (R125, R131), taking an
exception (R307, R308) as one operation, and the return from one beside it: reading an image back
(R312–R317, R321, R322).
-/

namespace Sys2Proof.Machine

/-- An outcome of one step. -/
abbrev Out := Host.Outcome State Fault Refusal

/-- An event of the agenda that goes on with a tile or the latch of a core. -/
def tileEvent (core : Nat) : Instr → Bool
  | .latchCopy c => c == core
  | .latchCopyComplete c => c == core
  | .tileFillComplete c _ => c == core
  | .tileDrainComplete c _ => c == core
  | _ => false

/-- The vector state of a core made dead and its lanes released (R131); what was due of its tiles is not due any more.
Lanes above MVL that the grant kept powered are gated (R129). -/
def State.dropLanes (s : State) (core : Nat) : State :=
  let k := s.core core
  let s := if s.agenda.any (tileEvent core) then { s with agenda := s.agenda.filter fun i => !tileEvent core i } else s
  s.setCore core { k with
    holder := none, width := 0, pwr := min k.pwr k.mvl, v := [], q := [], tiles := [], latch := none, latching := none }

/-- The lanes released if the strand in this slot holds them, and its place in their queue given up. -/
def State.releaseLanes (s : State) (core slot : Nat) : State :=
  let s := if (s.core core).laneQ.contains slot then
      s.setCore core { s.core core with laneQ := (s.core core).laneQ.filter fun x => x != slot } else s
  if (s.core core).holder == some slot then s.dropLanes core else s

/-- A strand's waiting pushes and pops taken out of the banks' queues (R246), and its waiting `hmov` out of theirs
(R211). -/
def State.leaveBanks (s : State) (core slot : Nat) : State :=
  let s := if s.movers.isEmpty then s else
    { s with movers := s.movers.filter fun m => !(m.2.2.2.1 == core && m.2.2.2.2 == slot) }
  if s.banks.any fun b => b.2.queue.any fun x => x.1 == core && x.2.1 == slot then
    { s with banks := s.banks.map fun b => (b.1, { b.2 with queue := b.2.queue.filter fun x => !(x.1 == core && x.2.1 == slot) }) }
  else s

/-- XCAUSE as a trap at a level sets it (R310). -/
def Trap.xcause (t : Trap) (lvl : Level) : Word :=
  BitVec.ofNat 64 (t.cause + lvl.num * 2 ^ 8 + t.word % 4 * 2 ^ 10 + (if t.slotB then 2 ^ 12 else 0) +
    t.info % 2 ^ 32 * 2 ^ 16)

/-- XEL as a trap sets it (R310): NONE is 1 for a cause that has no element. -/
def Trap.xel (t : Trap) : Word :=
  match t.elem with
  | none => BitVec.ofNat 64 (2 ^ 63 + t.pos % 8 * 2 ^ 20)
  | some e => BitVec.ofNat 64 (e % 2 ^ 17 + t.pos % 8 * 2 ^ 20)

/-- The trap registers after a trap of the convoy at `base` (R310). -/
def Strand.record (st : Strand) (t : Trap) (base : Word) : Strand :=
  { st with
    xcause := t.xcause st.lvl, xel := t.xel, xpc := base, xaddr := t.addr, xinfo := t.xinfo
    wait := 0, monitor := none, delivering := false }

/-- The first word fetched at XVEC carries L = 0 (R308); no word is fetched from a page that fails R89 or
with an uncorrectable error. -/
def State.vectorBad (s : State) (core : Nat) (xvec : Word) : Bool :=
  match s.xlate (clusterOf core) 0 .s .fetch .fetch xvec with
  | .error _ => false
  | .ok p => !s.poisoned p && !(s.readNat p 8).testBit 61

/-- A failed delivery (R308): the strand is stopped with the trap pending, and an error record of kind 9
is written. -/
def State.doubleFault (s : State) (core slot : Nat) (st : Strand) (t : Trap) : State :=
  ((s.setStrand core slot { st with stopped := true, pend := some (st.pend.getD t) }).leaveBanks core slot).logErr 9 3 core 0 slot
    st.pc.toNat st.asid t.cause 0

/-- The strand in its handler (R307 steps 4 and 6, R309): level S, ASID 0, at XVEC, nothing in flight. -/
def Strand.inHandler (st : Strand) (xvec : Word) : Strand :=
  { st with
    lvl := .s, asid := 0, pc := xvec, r := st.saved, flight := [], landing := false, vec := none
    kept := st.saved.plink.isSome :: st.kept
    xtf := st.xtf + 0x100000#64, xdepth := st.xdepth + 1, links := st.links.map fun l => { l with broken := true }, wait := 0, halting := false
    pend := none }

/-- Taking an exception (R307, R308): the strand in `slot` of `core` traps on its convoy at `base`. Its
work in flight has settled. The trap registers are set, the image is written at XTF under ASID 0 at S, the
lanes are released, and the strand continues at S at XVEC. -/
def State.takeTrap (s : State) (core slot : Nat) (t : Trap) (base : Word) : Out :=
  match s.strandAt core slot with
  | none => .fault .noStrand
  | some st0 =>
    if st0.lvl = .m then .fault .machineLevel
    else
      let st := st0.record t base
      let k := s.core core
      let s := match t.log with
        | none => s
        | some (kind, sev, loc) => s.logErr kind sev core 0 slot loc st.asid t.cause 0
      if 15 ≤ st.xdepth || k.xvec == 0 || k.xvec.toNat % 8 ≠ 0 || s.vectorBad core k.xvec then
        .next (s.doubleFault core slot st t)
      else
        match s.imageLines (clusterOf core) 0 st.xtf (s.image core slot st) with
        | .error _ => .next (s.doubleFault core slot st t)
        | .ok ls =>
          if ls.any fun l => s.poisoned l.1 then .next (s.doubleFault core slot st t)
          else
            .next ((((s.putImage st ls).leaveBanks core slot).releaseLanes core slot).setStrand core slot (st.inHandler k.xvec))

/-! ### What becomes of the oldest convoy -/

/-- The first fault of a convoy, with its instruction's place (R306). -/
def Convoy.fault (c : Convoy) : Option Trap :=
  c.entries.findSome? fun e => e.fault.map fun t => { t with pos := e.pos }

/-- What the strand does with its oldest convoy. -/
inductive Verdict where
  | stay
  | retire (c : Convoy)
  | deliver (c : Convoy) (t : Trap)
deriving DecidableEq, Repr

/-- A recheck of work of the strand has still to run (R318, R328). -/
def Strand.checking (t : Strand) : Bool := t.flight.any fun c => c.entries.any fun e => e.done && !e.agreed

/-- The fault of an instruction waits for older ones of its convoy (R96, R320): that of a control transfer, and `trap`. One
that a convoy meets as it is reissued does not (R48, R49, R317). -/
def Convoy.faultWaits (c : Convoy) (f : Trap) : Bool :=
  (f.after || c.entries.any fun e => e.pos == f.pos && isClassC e.word && !e.again) &&
    !(c.entries.all fun e => e.done || f.pos ≤ e.pos && !f.after)

/-- R136, R306, R318, R328: the oldest convoy retires when every instruction of it is complete, rechecked where the
dailies queue checks it, and none has a fault; with a fault it traps, once nothing of it is held from outside and no
check of the strand is pending. -/
def Strand.verdict (t : Strand) : Verdict :=
  match t.flight with
  | [] => .stay
  | c :: _ =>
    if !c.closed then .stay
    else
      match c.fault with
      | some f =>
        if c.entries.any fun e => !e.done && e.held then .stay
        else if c.faultWaits f || t.checking then .stay
        else .deliver c f
      | none => if c.entries.all fun e => e.done && e.agreed then .retire c else .stay

/-! ### Reading an image back -/

/-- A reader of an image: its pages and its address. -/
structure Reader where
  leaves : List (Nat × Leaf)
  base   : Word

/-- `n` bytes of an image as a number. An image is read line by line, so a run may cross channel lines. -/
def State.imgNat (s : State) (rd : Reader) (off n : Nat) : Nat :=
  ofBytes ((List.range ((n + 7) / 8)).flatMap fun i =>
    match s.placeIn rd.leaves (rd.base + BitVec.ofNat 64 (off + 8 * i)) with
    | some p => (s.readBytes p 8).take (n - 8 * i)
    | none => [])

/-- A dword of an image. -/
def State.img (s : State) (rd : Reader) (off : Nat) : Word := BitVec.ofNat 64 (s.imgNat rd off 8)

/-- The vector destinations of a word in ascending name, and its mask destinations (R314): by the entries
of each opcode. -/
def destNames (w : Word) (slotB : Bool) : List Nat × List Nat :=
  if w.getLsbD 62 then
    let slot := if slotB then w.extractLsb' 1 30 else w.extractLsb' 31 30
    if slot.getLsbD 29 then ([(slot.extractLsb' 20 5).toNat], []) else ([], [])
  else
    let f := Full.unpack (w.extractLsb' 0 61)
    let d := f.d.toNat
    let x := f.x.toNat
    let span := fun n => (List.range (n + 1)).map fun i => d + i
    match f.op.toNat, f.fn.toNat with
    | 0x29, 1 => ([d], [])
    | 0x2C, _ => ([], [d])
    | 0x31, fn => if fn ≤ 3 then ([], [d]) else ([], [])
    | 0x33, _ => ([d], if x % 8 = 0 then [] else [x % 8])
    | 0x43, _ => ([], [d])
    | 0x51, 4 => ((if d ≤ f.b.toNat then [d, f.b.toNat] else [f.b.toNat, d]), [])
    | 0x5A, 2 => (span (x % 8), [])
    | 0x62, 0 => ([d], [])
    | 0x66, 0 => ([d], [])
    | 0x66, 2 => ([d], [])
    | 0x67, 0 => ([d], [])
    | 0x68, 0 => ([d], [])
    | 0x71, _ => if x.testBit 6 then ([d], []) else ([], [])
    | 0x72, 0 => ([d], [])
    | 0x72, 1 => ([], [d])
    | 0x73, _ => (span (x % 8), [])
    | 0x78, 0 => ((if d ≤ x / 2 ^ 14 then [d, x / 2 ^ 14] else [x / 2 ^ 14, d]), [])
    | 0x78, 2 => ([d], [])
    | op, _ =>
      if (0x2A ≤ op ∧ op ≤ 0x33) ∨ (0x40 ≤ op ∧ op ≤ 0x46) ∨ op = 0x51 ∨ op = 0x5A then ([d], [])
      else ([], [])

/-- A vector register of an image (R312). -/
def State.imgVReg (s : State) (rd : Reader) (off : Nat) : VReg :=
  ⟨BitVec.ofNat 16384 (s.imgNat rd off 2048), BitVec.ofNat 4096 (s.imgNat rd (off + 0x800) 512)⟩

/-- A mask register of an image (R312). -/
def State.imgQReg (s : State) (rd : Reader) (off : Nat) : QReg :=
  ⟨BitVec.ofNat 2048 (s.imgNat rd off 256), BitVec.ofNat 4096 (s.imgNat rd (off + 0x100) 512)⟩

/-- An in-flight entry of an image (R314), with the number of its convoy. -/
def State.imgEntry (s : State) (rd : Reader) (i : Nat) : Nat × Entry :=
  let o := 0x2000 + 64 * i
  let d0 := s.imgNat rd o 8
  let word := s.img rd (o + 8)
  let slotB := d0.testBit 7
  let (vs, qs) := destNames word slotB
  let off := fun j => 0x30000 + 4096 * (s.imgNat rd (o + 16) 8 / 2 ^ (8 * j) % 256)
  let dm := if d0.testBit 9 then s.imgNat rd (0x4000 + 256 * (d0 / 2 ^ 10 % 32)) 256 else 0
  let result := d0.testBit 8 || isReelAccess word || (isTwalk word && dm.testBit 0)
  (d0 % 16,
    { word := word, slotB := slotB, pos := d0 / 2 ^ 4 % 8, done := d0.testBit 8, hasDm := d0.testBit 9
      mask := BitVec.ofNat 2048 dm
      w := 8, sd := none, ending := .none
      vd := vs.mapIdx fun j n => (n, s.imgVReg rd (off j))
      qd := qs.mapIdx fun j n => (n, s.imgQReg rd (off (vs.length + j)))
      res := if result then s.img rd (o + 24) else 0, n := 0, args := [], aux := [], pend := [], held := false, flt := none, bad := none
      chk := false, sure := false, stuck := false, mem := true
      begun := dm != 0
      again := true, pages := [], later := [], stamp := 0 })

/-- The scalar state of an image (R312, R313). FCTL.RM is taken as it stands there, 6 and 7 too (log 135). -/
def State.imgScalars (s : State) (rd : Reader) : Scalars :=
  let frst := s.img rd 0x18
  let h0 := s.img rd 0
  { g := (tabOf 0 16 fun i => s.img rd (0x100 + 8 * i)).filter fun e => e.1 ≠ 0
    phys := tabOf 0 256 fun i => s.img rd (0x800 + 8 * i)
    fb := field frst 0 8, fsz := field frst 8 6, nres := field frst 16 9
    sizes := tabOf 0 256 fun i => s.imgNat rd (0x400 + i / 8 * 8) 8 / 2 ^ (8 * (i % 8)) % 256
    bsp := s.img rd 0x20, bslo := s.img rd 0x28, bslim := s.img rd 0x30
    fctl := s.img rd 0x38 &&& 0x1F07#64
    plink := if field h0 42 1 = 1 then some (s.img rd 0x10) else none }

/-- A tile of an image (R315). -/
def State.imgTile (s : State) (rd : Reader) (off : Nat) (trans : Bool) : Tile :=
  let c := off + 0x9000
  let d0 := s.img rd c
  let d5 := s.img rd (c + 40)
  let st := match field d0 20 2 with
    | 0 => TileSt.empty
    | 1 => .filling
    | 2 => .ready
    | _ => .draining
  let body := decide (st ≠ .empty)
  { st := st, ew := field d0 18 2, colsm1 := field d0 8 9, rowsm1 := field d0 0 8
    codes := if body then BitVec.ofNat 131072 (s.imgNat rd off 16384) else 0
    side := if body then BitVec.ofNat 32768 (s.imgNat rd (off + 0x4000) 4096) else 0
    poison := BitVec.ofNat 256 (s.imgNat rd (c + 8) 32)
    snap := ⟨field d5 0 6, s.img rd (off + 0x9080), BitVec.ofNat 32 (field d5 32 32), field d5 6 1 == 1⟩
    fill := if st = .filling ∨ st = .draining then
        some ⟨BitVec.ofNat 512 (s.imgNat rd (off + 0x9040) 64), s.img rd (c + 48), s.img rd (c + 56), trans,
          BitVec.ofNat 131072 (s.imgNat rd (off + 0x5000) 16384)⟩
      else none }

/-- The latch of an image (R315). -/
def State.imgLatch (s : State) (rd : Reader) : Latch :=
  let c := 0xF9000
  let d0 := s.img rd c
  let d5 := s.img rd (c + 40)
  { k := field d5 16 8, n := field d5 24 10, ew := field d0 18 2, fa := field d5 0 6, fb := field d5 8 6
    recA := s.img rd 0xF9080, recB := s.img rd 0xF9088
    sA := BitVec.ofNat 32 (s.imgNat rd (c + 48) 4), sB := BitVec.ofNat 32 (s.imgNat rd (c + 48) 8 / 2 ^ 32)
    scale := BitVec.ofNat 32 (s.imgNat rd (c + 56) 4), bsen := field d5 14 1 == 1
    codes := BitVec.ofNat 131072 (s.imgNat rd 0xF0000 16384), side := BitVec.ofNat 32768 (s.imgNat rd 0xF4000 4096)
    poison := BitVec.ofNat 256 (s.imgNat rd (c + 8) 32) }

/-- The convoys of the in-flight table (R314): entries grouped by CONV, oldest first. Each is reissued; the
scalar state before it is filled in as it issues. -/
def groupConvoys : List (Nat × Entry) → Word → Scalars → List Convoy
  | [], _, _ => []
  | (c, e) :: rest, base, r =>
    match groupConvoys rest base r with
    | [] => [⟨base, 0, r, [e], none, true⟩]
    | k :: ks =>
      match rest with
      | [] => [⟨base, 0, r, [e], none, true⟩]
      | (c', _) :: _ => if c = c' then { k with entries := e :: k.entries } :: ks else ⟨base, 0, r, [e], none, true⟩ :: k :: ks

/-- The number of words in a list of entries: an entry of slot B shares its word with slot A. -/
def wordsIn (es : List Entry) : Nat := (es.filter fun e => !e.slotB).length

/-- Where the strand goes on after a convoy of the in-flight table, once that is known (R314, R317): a DONE transfer
holds it. -/
def Convoy.after (k : Convoy) (succ : Word) : Option Word :=
  match k.entries.getLast? with
  | some e => if isClassC e.word then (if e.done then some e.res else none) else some succ
  | none => some succ

/-- Base addresses for convoys that follow one another. -/
def placeConvoys : List Convoy → Word → List Convoy
  | [], _ => []
  | k :: ks, base =>
    let n := wordsIn k.entries
    let succ := base + BitVec.ofNat 64 (8 * n)
    { k with base := base, nwords := n, next := k.after succ } :: placeConvoys ks ((k.after succ).getD succ)

/-- Where fetching goes on after the last convoy of the in-flight table (R317). -/
def afterConvoys (ks : List Convoy) (pc : Word) : Word :=
  match ks.getLast? with
  | none => pc
  | some k => k.next.getD (k.base + BitVec.ofNat 64 (8 * k.nwords))

/-- What was kept beside an image (log 115). -/
def State.besideOf (s : State) (rd : Reader) : Beside :=
  match s.placeIn rd.leaves rd.base with
  | none => Beside.none
  | some p => Tab.get Beside.none s.beside (p.block.getD 0)

/-- The window base of each convoy of an image, as it was kept beside it; where nothing is known of it, the saved one. -/
def State.windows (s : State) (rd : Reader) (cs : List Convoy) : List Convoy :=
  let fbs := (s.besideOf rd).fbs
  cs.mapIdx fun i c => { c with before := { c.before with fb := fbs.getD i c.before.fb } }

/-- A word of `jmp` or `calli` (R95, R96). -/
def isJump (w : Word) : Bool := !w.getLsbD 62 && field w 54 7 == 4 && field w 48 6 != 2

/-- The next convoy of a strand resumed at an address must carry L = 1 (R48, R92): the target of a DONE `jmp` or `calli`
(R314, R317), or of a transfer whose landing check was still due (log 9). -/
def State.landsAt (s : State) (rd : Reader) (cs : List Convoy) (pc : Word) : Bool :=
  (s.besideOf rd).land == some pc || ((cs.getLast?.bind fun c => c.entries.getLast?).any fun e => e.done && isJump e.word)

/-- The vector state of an image, if it held the lanes (R322). -/
def State.imgVectors (s : State) (rd : Reader) : Option Vectors :=
  let h0 := s.img rd 0
  if field h0 26 1 = 0 then none
  else
    some {
      width := field h0 28 6
      v := tabOf VReg.zero 32 fun i => s.imgVReg rd (0x10000 + 0x1000 * i)
      q := (tabOf QReg.zero 8 fun i => s.imgQReg rd (0x6000 + 0x400 * (i - 1))).filter fun e => e.1 ≠ 0
      tiles := tabOf Tile.start 8 fun i => s.imgTile rd (0x90000 + 0xC000 * i) false
      latch := if field h0 27 1 = 1 then some (s.imgLatch rd) else none }

/-- The strand of an image (R321, R322), to be resumed by R317: its convoys in flight are reissued before
anything is fetched. Handles, format records, identifiers and counters are those of `keep`. -/
def State.imgStrand (s : State) (rd : Reader) (keep : Strand) : Strand :=
  let h0 := s.img rd 0
  let r := s.imgScalars rd
  let nif := s.imgNat rd 0x88 1
  let pc := s.img rd 8
  let flight := placeConvoys (s.windows rd (groupConvoys ((List.range nif).map fun i => s.imgEntry rd i) pc r)) pc
  { keep with
    lvl := if field h0 24 2 = 0 then .u else .s
    asid := field h0 34 8
    pc := afterConvoys flight pc
    r := r
    wait := field h0 44 4
    halting := field h0 44 4 = 13
    landing := s.landsAt rd flight (afterConvoys flight pc)
    xfer := (s.besideOf rd).xfer
    stopped := false
    links := keep.links.map fun l => { l with broken := true }
    flight := flight
    xcause := s.img rd 0x40, xel := s.img rd 0x48, xpc := s.img rd 0x50, xaddr := s.img rd 0x58
    xinfo := s.img rd 0x60
    monitor := none
    vec := s.imgVectors rd
    pend := if field h0 43 1 = 1 then
        some { cause := field (s.img rd 0x40) 0 8, info := field (s.img rd 0x40) 16 32
               elem := if field (s.img rd 0x48) 63 1 = 1 then none else some (field (s.img rd 0x48) 0 17)
               pos := field (s.img rd 0x48) 20 3, addr := s.img rd 0x58, xinfo := s.img rd 0x60
               word := field (s.img rd 0x40) 10 2, slotB := field (s.img rd 0x40) 12 1 == 1 }
      else none }

/-- A strand that has still to acquire the lanes takes its place among those that wait for them (R126, R322). -/
def State.joinLanes (s : State) (core slot : Nat) : State :=
  let k := s.core core
  if k.laneQ.contains slot then s else s.setCore core { k with laneQ := k.laneQ ++ [slot] }

/-- The lanes given to the strand at a slot: with the state it was saved with, or fresh at a width (R126, R322). -/
def State.giveLanes (s : State) (core slot width : Nat) : State :=
  let k := { s.core core with laneQ := (s.core core).laneQ.filter fun x => x != slot }
  match s.strandAt core slot with
  | none => s
  | some t =>
    match t.vec with
    | none =>
      s.setCore core { k with
        holder := some slot, width := width, v := [], q := [], tiles := [], latch := none, latching := none }
    | some x =>
      (s.setCore core { k with
        holder := some slot, width := x.width, v := x.v, q := x.q, tiles := x.tiles, latch := x.latch
        latching := none }).setStrand core slot { t with vec := none }

/-- The lanes may be taken by the strand at a slot now (R126, R322): nobody holds them, nobody waited before it, and
the width it takes is to be had. -/
def State.lanesFree (s : State) (core slot gvl : Nat) : Bool :=
  let k := s.core core
  k.holder.isNone && (match k.laneQ with
    | [] => true
    | x :: _ => x == slot) &&
    (match (s.strandAt core slot).bind Strand.vec with
      | some x => decide (x.width ≤ k.mvl)
      | none => !k.scrub && decide (8 ≤ gvl))

end Sys2Proof.Machine
end

