-- ==== Sys2Proof/Machine/Banks.lean ====
section
/-!
DEFINITION. The hardware FIFO (12, R245, R246) and the switch of a bank's mode (12, R243, R244).
-/

namespace Sys2Proof.Machine

/-! ### FIFO banks (R245, R246) -/

/-- The status of a FIFO (R245): HEAD, TAIL and COUNT. -/
def Bank.status (b : Bank) : Nat :=
  b.head + (b.head + b.fifo.length) % 65536 * 2 ^ 16 + b.fifo.length * 2 ^ 32

/-- A strand joins the queue of a bank, once. -/
def State.joinBank (s : State) (bank core slot : Nat) (push : Bool) : State :=
  let b := s.bank bank
  if b.queue.contains (core, slot, push) then s else s.setBank bank { b with queue := b.queue ++ [(core, slot, push)] }

/-- A strand may be served: nobody reached the bank before it with the same kind of access. -/
def Bank.serves (b : Bank) (core slot : Nat) (push : Bool) : Bool :=
  match b.queue.find? fun x => x.2.2 == push with
  | none => true
  | some x => x == (core, slot, push)

/-- A push, or none while it waits. -/
def State.push (s : State) (bank core slot : Nat) (v : Word) : Option State :=
  let b := s.bank bank
  if b.fifo.length < 65536 && b.serves core slot true then
    some (s.setBank bank { b with fifo := b.fifo ++ [v], queue := b.queue.filter fun x => x != (core, slot, true) })
  else none

/-- A pop with its value, or none while it waits. -/
def State.pop (s : State) (bank core slot : Nat) : Option (State × Word) :=
  let b := s.bank bank
  match b.fifo with
  | [] => none
  | v :: rest =>
    if b.serves core slot false then
      some (s.setBank bank { b with
        fifo := rest, head := (b.head + 1) % 65536, queue := b.queue.filter fun x => x != (core, slot, false) }, v)
    else none

/-! ### bank.mode (R243) -/

/-- A bank holds live or releasing reel storage (R201, R210). -/
def State.bankReel (s : State) (bank : Nat) : Bool :=
  let here := fun (r : Root) => r.units.any fun u => u / 8 == bank % 256
  (s.lineage.any fun e => e.1 / 1024 == bank / 256 && e.2.st != 0 && e.2.parent.isNone && here e.2.root) ||
    s.releasing.any fun e => e.1 == bank / 256 && here e.2

/-- A strand sees every block of a scratchpad bank written (R98, R297). -/
def Strand.seeBank (t : Strand) (bank : Nat) : Strand :=
  let here := fun (n : Nat) => decide (2 ^ 61 + bank * 8192 ≤ n) && decide (n < 2 ^ 61 + (bank + 1) * 8192)
  { t with
    monitor := t.monitor.map fun m => if here m.1 then (m.1, m.2.1, true) else m
    links := t.links.map fun l => if here l.line then { l with broken := true } else l }

/-- A scratchpad bank zeroed: a write of every block, which every strand sees (R98, R232, R243). -/
def State.zeroed (s : State) (bank : Nat) : State :=
  { s.setBank bank { s.bank bank with data := [] } with
    poison := s.poison.filter fun l => l.1 < 2 ^ 61 || (l.1 - 2 ^ 61) / 8192 != bank
    cores := s.cores.map fun c => (c.1, { c.2 with slots := c.2.slots.map fun t => (t.1, t.2.seeBank bank) }) }

/-- A bank that served as cache ways is cleared (R243): its dirty far lines are written back and its lines discarded. Which
of the far lines cached in the device it holds is the device's choice (R240; log 11). -/
def State.dropWays (s : State) : State :=
  s.far.foldl (fun st e => if Config.takes st.choice e.1 then st.displaceFar e.1 else st) s

/-- A switch completes (R243): the bank is cleared and zeroed, and serves in its new mode. -/
def State.finishSwitch (s : State) (bank : Nat) : State :=
  let b := s.bank bank
  match b.switch with
  | none => s
  | some m =>
    let s1 := if b.mode = 0 then s.dropWays else if b.mode = 1 then s.zeroed bank else s
    s1.setBank bank { Bank.start with mode := m, owner := b.owner, item := b.item, queue := b.queue }

/-- What `bank.mode` answers at once, if anything: a refusal, or the mode it reads. -/
def State.bankModeNow (s : State) (a m : Nat) : Option Int :=
  let b := s.bank a
  if 2048 ≤ a then some (-48)
  else if 3 < m then some (-49)
  else if b.switch.isSome then none
  else if m = 3 ∨ m = b.mode then some b.mode
  else if s.bankReel a then some (-50)
  else if b.item.isSome then some (-51)
  else if b.mode = 2 ∧ !b.queue.isEmpty then some (-52)
  else none

/-- A scalar result given now. -/
def answer (s : State) (e : Entry) (d : BitVec 6) (v : Int) : State × Entry :=
  (s.setVal d (BitVec.ofInt 64 v), { e with done := true, pend := [], res := BitVec.ofInt 64 v })

/-- `bank.mode` (R243). `aux` holds the old mode while the switch that it started runs. -/
def planBankMode (d a b : BitVec 6) : Plan where
  lvl := .s
  mem := true
  reads := sname a ++ sname b
  writes := sname d
  fire := fun s older e =>
    let n := (e.arg a).toNat
    match e.aux with
    | old :: _ => if (s.bank n).switch.isSome then (s, e) else answer s e d old
    | [] =>
      match s.bankModeNow n (e.arg b).toNat with
      | some v => answer s e d v
      | none =>
        if !allDone older || (s.bank n).switch.isSome then (s, e)
        else
          let k := s.bank n
          ({ (s.setBank n { k with switch := some (e.arg b).toNat }) with
              agenda := s.agenda ++ [.bankModeSwitchComplete (n / 256) (n % 256)] },
            { e with aux := [k.mode] })

end Sys2Proof.Machine
end

