-- ==== Sys2Proof/Machine/Operands.lean ====
section
/-!
DEFINITION. Operand forms of the scalar instructions (R43, R44, R100, R114) and the arithmetic of the
integer group (R113–R120), each operation once.
-/

namespace Sys2Proof.Machine

/-- imm20 sign-extended (R114). -/
def imm20 (x : BitVec 20) : Word := x.signExtend 64

/-- The register that a compact slot's 5-bit field names: s0–s31 (R44). -/
def slotReg (d : BitVec 5) : BitVec 6 := d.setWidth 6

/-- The other operand of a compact scalar slot (R44): a register's value or imm19 sign-extended. -/
def argVal (o : CArg) (s : State) : Word :=
  match o with
  | .reg a => s.val (slotReg a)
  | .imm v => v.signExtend 64

/-- The register that the other operand names, if any. -/
def argNames (o : CArg) : List Name :=
  match o with
  | .reg a => sname (slotReg a)
  | .imm _ => []

/-! ### The arithmetic and logic group (R113) -/

def aluAdd (a b : Word) : Word := a + b
def aluSub (a b : Word) : Word := a - b
def aluMul (a b : Word) : Word := a * b
/-- The high 64 bits of the signed product. -/
def aluMulh (a b : Word) : Word := BitVec.ofInt 64 (a.toInt * b.toInt / 2 ^ 64)
/-- The high 64 bits of the unsigned product. -/
def aluMulhn (a b : Word) : Word := BitVec.ofNat 64 (a.toNat * b.toNat / 2 ^ 64)
def aluAnd (a b : Word) : Word := a &&& b
def aluOr (a b : Word) : Word := a ||| b
def aluXor (a b : Word) : Word := a ^^^ b
def aluAndn (a b : Word) : Word := a &&& ~~~b
/-- Shift counts are taken modulo 64. -/
def aluShl (a b : Word) : Word := a <<< (b.toNat % 64)
def aluShr (a b : Word) : Word := a >>> (b.toNat % 64)
def aluSra (a b : Word) : Word := a.sshiftRight (b.toNat % 64)
def aluRol (a b : Word) : Word := a.rotateLeft (b.toNat % 64)
def aluMin (a b : Word) : Word := if a.toInt ≤ b.toInt then a else b
def aluMax (a b : Word) : Word := if b.toInt ≤ a.toInt then a else b
def aluMinn (a b : Word) : Word := if a.toNat ≤ b.toNat then a else b
def aluMaxn (a b : Word) : Word := if b.toNat ≤ a.toNat then a else b
def aluSlt (a b : Word) : Word := if a.toInt < b.toInt then 1 else 0
def aluSltn (a b : Word) : Word := if a.toNat < b.toNat then 1 else 0

/-! ### Division (R115): truncated toward zero, never trapping -/

def aluDiv (a b : Word) : Word := if b = 0 then BitVec.ofInt 64 (-1) else BitVec.ofInt 64 (a.toInt.tdiv b.toInt)
def aluDivn (a b : Word) : Word := if b = 0 then BitVec.ofInt 64 (-1) else BitVec.ofNat 64 (a.toNat / b.toNat)
def aluRem (a b : Word) : Word := if b = 0 then a else BitVec.ofInt 64 (a.toInt.tmod b.toInt)
def aluRemn (a b : Word) : Word := if b = 0 then a else BitVec.ofNat 64 (a.toNat % b.toNat)

/-! ### Bit counts (R116) -/

/-- Ones among the low `n` bits. -/
def popBits (x : Nat) : (n : Nat) → Nat
  | 0 => 0
  | n + 1 => (if x.testBit n then 1 else 0) + popBits x n

/-- Zeros below the lowest set bit, from bit `i` on, at most `n`. -/
def trailing (x : Nat) : (n : Nat) → (i : Nat) → Nat
  | 0, _ => 0
  | n + 1, i => if x.testBit i then 0 else 1 + trailing x n (i + 1)

def aluClz (a : Word) : Word := if a = 0 then 64 else BitVec.ofNat 64 (63 - Nat.log2 a.toNat)
def aluCtz (a : Word) : Word := BitVec.ofNat 64 (trailing a.toNat 64 0)
def aluPopc (a : Word) : Word := BitVec.ofNat 64 (popBits a.toNat 64)

/-! ### Bit fields (R120): `len` is the length less one -/

/-- Bits [pos+len : pos] of a value. -/
def bitField (a : Word) (pos len : Nat) : Nat := a.toNat / 2 ^ pos % 2 ^ (len + 1)

def aluExt (a : Word) (pos len : Nat) : Word := BitVec.ofNat 64 (bitField a pos len)

/-- The same, sign-extended from its top bit. -/
def aluExtS (a : Word) (pos len : Nat) : Word :=
  let v := bitField a pos len
  if v.testBit len then BitVec.ofInt 64 ((v : Int) - 2 ^ (len + 1)) else BitVec.ofNat 64 v

/-- The field of `d` replaced by the low bits of `a`. -/
def aluIns (d a : Word) (pos len : Nat) : Word :=
  let m : Word := BitVec.ofNat 64 (2 ^ (len + 1) - 1) <<< pos
  (d &&& ~~~m) ||| ((a <<< pos) &&& m)

/-! ### Plans of the common shapes -/

/-- Two register sources and a register destination. -/
def binary (d a b : BitVec 6) (f : Word → Word → Word) : Plan where
  reads := sname a ++ sname b
  writes := sname d
  fire := Plan.scalar d fun s => f (s.val a) (s.val b)

/-- A register source, an immediate and a register destination (R114). -/
def withImm (d a : BitVec 6) (imm : BitVec 20) (f : Word → Word → Word) : Plan where
  reads := sname a
  writes := sname d
  fire := Plan.scalar d fun s => f (s.val a) (imm20 imm)

/-- One register source and a register destination. -/
def unary (d a : BitVec 6) (f : Word → Word) : Plan where
  reads := sname a
  writes := sname d
  fire := Plan.scalar d fun s => f (s.val a)

/-- A compact scalar slot: d is the destination and the first source (R43, R44). -/
def compact (d : BitVec 5) (o : CArg) (f : Word → Word → Word) : Plan where
  reads := sname (slotReg d) ++ argNames o
  writes := sname (slotReg d)
  fire := Plan.scalar (slotReg d) fun s => f (s.val (slotReg d)) (argVal o s)

/-- A scalar floating-point instruction: its result, and the flags it adds to FCTL (R111, R121). -/
def floating (d : BitVec 6) (reads : List Name) (f : State → Word × Word) : Plan where
  reads := reads
  writes := sname d ++ [.fctl]
  fire := fun s _ e =>
    let (v, fl) := f s
    let s1 := s.setVal d v
    (s1.setR { s1.me.r with fctl := s1.me.r.fctl ||| fl }, { e with done := true, pend := [], res := v })

/-- A control transfer that changes nothing but PC (R92, R95). -/
def branch (reads : List Name) (off : BitVec 20) (taken : State → Bool) : Plan where
  cls := .c
  reads := reads
  fire := fun s _ e =>
    (s, { e with done := true, pend := [], res := if taken s then s.cur.base + (imm20 off <<< 3) else s.cur.succ })

end Sys2Proof.Machine
end

