-- ==== Sys2Proof/Machine/Special.lean ====
section
/-!
DEFINITION. The special registers (06, R109–R112) and the moves from and to them: what each reads, and
what a write leaves in it by the access codes of R4. The lanes' width registers follow R128–R130.
-/

namespace Sys2Proof.Machine

/-- Whether the lowest `w` lanes are not all marked failed (R129). -/
def Core.someLane (k : Core) (w : Nat) : Bool := (List.range w).any fun j => !k.lmap.getLsbD j

/-- GVL.GVL: the width the next acquisition receives, 0 where none of 8, 16 and 32 qualifies (R129). -/
def Core.gvl (k : Core) : Nat :=
  (([32, 16, 8].find? fun w => decide (w ≤ k.mvl) && decide (w ≤ k.pwr) && decide (w ≤ k.limit) && k.someLane w)).getD 0

/-- PARTID on a B1 module (R18). -/
def partid : Word := 0x01F30B0303030121#64

/-- STATE of a slot in SLOTST (R83). -/
def Strand.slotState (t : Strand) : Nat :=
  if t.stopped then 14
  else if t.halting then 13
  else if t.wait ≠ 0 then t.wait
  else if t.flight.any fun c => c.next.isNone then 2
  else 1

/-- SLOTST as the strand in slot `me` reads it (R83). -/
def State.slotst (s : State) (core me : Nat) : Nat :=
  (List.range 8).foldl (fun v j =>
    let b := match s.strandAt core j with
      | none => 0x0C
      | some t => (if j = me then 1 else t.slotState) * 16 + t.lvl.num * 4
    v + b * 256 ^ j) 0

/-- DLYMODE as read: CLR reads zero (R327). -/
def Core.dlymode (k : Core) : Nat := k.dmode + k.voted * 2 ^ 16 + k.unchk * 2 ^ 32

/-- The special registers that only S and M may read (R4, R109). -/
def sprReadS (n : Nat) : Bool :=
  (0x011 ≤ n && n ≤ 0x013) || (0x020 ≤ n && n ≤ 0x022) || n == 0x031 || n == 0x032 || n == 0x038 ||
    (0x060 ≤ n && n ≤ 0x06A)

/-- The special registers with a field that only S and M may write (R4, R110). -/
def sprWriteS (n : Nat) : Bool :=
  (0x011 ≤ n && n ≤ 0x013) || n == 0x020 || n == 0x021 || n == 0x031 || n == 0x038 || n == 0x065 || n == 0x066 ||
    (0x068 ≤ n && n ≤ 0x06A)

/-- Whether a number is a TSHAPE register (R181). -/
def isTshape (n : Nat) : Bool := 0x040 ≤ n && n ≤ 0x047

/-- The value of a special register, reserved fields as 0 (R110). -/
def State.readSpr (s : State) (n : Nat) : Word :=
  let t := s.me
  let k := s.curCore
  let w := fun (v : Nat) => BitVec.ofNat 64 v
  if isTshape n then w (Tab.get Tile.start k.tiles (n - 0x040)).shape
  else
    match n with
    | 0x000 => partid
    | 0x001 => coreloc s.cur.core s.cur.slot
    | 0x002 => w s.cycle
    | 0x010 => t.r.frst
    | 0x011 => t.r.bsp
    | 0x012 => t.r.bslo
    | 0x013 => t.r.bslim
    | 0x018 => t.r.fctl
    | 0x020 => if k.pol then 1 else 0
    | 0x021 => w k.age
    | 0x022 => w (s.slotst s.cur.core s.cur.slot)
    | 0x030 => w (k.gvl + k.pwr * 2 ^ 8 + (if s.holdsLanes then k.width else 0) * 2 ^ 16)
    | 0x031 => w k.mvl
    | 0x032 => w k.lmap.toNat
    | 0x038 => w k.dlymode
    | 0x050 => k.expsplit
    | 0x051 => k.otau
    | 0x052 => k.ofloor
    | 0x053 => k.odepth
    | 0x060 => t.xcause
    | 0x061 => t.xel
    | 0x062 => t.xpc
    | 0x063 => t.xaddr
    | 0x064 => t.xinfo
    | 0x065 => t.xtf
    | 0x066 => k.xvec
    | 0x067 => w t.xdepth
    | 0x068 => s.xtfb
    | 0x069 => s.efqb
    | 0x06A => w (s.efqHead + s.efqTail * 2 ^ 32)
    | _ => 0

/-- FCTL after a write (R111): RM keeps its value where the write gives 6 or 7. -/
def fctlWrite (old v : Word) : Word :=
  (v &&& 0x1F00#64) ||| (if v.toNat % 8 < 6 then v &&& 7#64 else old &&& 7#64)

/-- The scalar state changed for good by an `mts`: what an image taken from now on holds too (R110). Every
older convoy has retired, so the strand's one convoy in flight is that of the `mts`. -/
def State.setSaved (s : State) (f : Scalars → Scalars) : State :=
  let t := s.me
  s.setMe { t with r := f t.r, flight := t.flight.map fun c => { c with before := f c.before } }

/-- The commands that wait to write to the engine-fault queue try again (R332). -/
def State.retryEngines (s : State) : State :=
  { s with agenda := s.agenda ++ ((s.cmds.filter fun c => c.2.stop.isSome && !c.2.sent).map fun c => .engineFaultQueueWrite c.1) }

/-- A write to MVL (R129, R130): other values than 8, 16 and 32 leave it. Lanes no longer needed are gated
at once, and newly enabled lanes are powered one after the other. -/
def State.writeMvl (s : State) (core v : Nat) : State :=
  let k := s.core core
  if v ≠ 8 ∧ v ≠ 16 ∧ v ≠ 32 then s
  else
    let pwr := if v < k.pwr ∧ k.width ≤ v then v else k.pwr
    let s := s.setCore core { k with mvl := v, pwr := pwr }
    { s with agenda := s.agenda ++ List.replicate (v - pwr) (.lanePowerUp core) }

/-- A shape of TSHAPE is valid (R182). -/
def shapeOk (v : Word) : Bool :=
  let rows := field v 0 8 + 1
  let cols := field v 8 9 + 1
  decide (rows * cols * (4 * 2 ^ field v 18 2) ≤ 131072)

/-- A write to TSHAPE: the shape, and the tile EMPTY (R182). -/
def State.writeTshape (s : State) (tile : Nat) (v : Word) : State :=
  let k := s.curCore
  s.setCore s.cur.core { k with
    tiles := Tab.set Tile.start k.tiles tile
      { Tile.start with ew := field v 18 2, colsm1 := field v 8 9, rowsm1 := field v 0 8 } }

/-- A write to DLYMODE (R327): MODE 3 leaves MODE, and CLR zeroes the counters. -/
def State.writeDlymode (s : State) (v : Word) : State :=
  let k := s.curCore
  let k := if field v 0 2 = 3 then k else { k with dmode := field v 0 2 }
  let k := if field v 2 1 = 1 then { k with unchk := 0, voted := 0 } else k
  s.setCore s.cur.core k

/-- A write to a special register of the core, the strand or the device by each field's access code (R110).
Registers with read-only fields alone ignore it. -/
def State.writeSpr (s : State) (n : Nat) (v : Word) : State :=
  let t := s.me
  let k := s.curCore
  let core := fun (k : Core) => s.setCore s.cur.core k
  if isTshape n then s.writeTshape (n - 0x040) v
  else
    match n with
    | 0x011 => s.setSaved fun r => { r with bsp := v &&& ~~~7#64 }
    | 0x012 => s.setSaved fun r => { r with bslo := v &&& ~~~7#64 }
    | 0x013 => s.setSaved fun r => { r with bslim := v &&& ~~~7#64 }
    | 0x018 => s.setSaved fun r => { r with fctl := fctlWrite r.fctl v }
    | 0x020 => core { k with pol := v.getLsbD 0 }
    | 0x021 => core { k with age := max 16 (field v 0 16) }
    | 0x031 => s.writeMvl s.cur.core (field v 0 6)
    | 0x038 => s.writeDlymode v
    | 0x050 => if field v 0 5 ≤ 16 then core { k with expsplit := v &&& 31#64 } else s
    | 0x051 => core { k with otau := v &&& 0xFFFFFFFF#64 }
    | 0x052 => core { k with ofloor := v &&& 0xFFFFFFFF#64 }
    | 0x053 => if field v 0 5 ≤ 16 then core { k with odepth := v &&& 31#64 } else s
    | 0x065 => if field v 0 20 = 0 then s.setMe { t with xtf := v } else s
    | 0x066 => core { k with xvec := v }
    | 0x068 => { s with xtfb := v &&& ~~~0x3FFFFF#64 }
    | 0x069 => ({ s with efqb := v &&& ~~~0xFFF#64 }).retryEngines
    | 0x06A => ({ s with efqTail := field v 32 16 }).retryEngines
    | _ => s

/-- The privilege trap of a special-register access (R110). -/
def sprPrivilege (needS : Bool) (s : State) : Option Trap :=
  require (!needS || s.me.lvl != .u) { cause := 3 }

/-- A special register whose new value counts from the retirement of its `mts` on: SCHED (R84) and DLYMODE (R327). -/
def sprLate (n : Nat) : Bool := n == 0x020 || n == 0x038

/-- What the special registers are to an instruction younger than an `mts` of its own convoy (R110): the values that
count from retirement on are written. -/
def State.afterMts (s : State) (older : List Entry) : State :=
  older.foldr (fun o st =>
    match o.ending with
    | .mts n => if o.done then st.writeSpr n o.res else st
    | .none => st
    | .halt => st
    | .sret => st
    | .command _ => st
    | .bind _ => st) s

/-- What an `mfs` reads beside the register itself: the frames behind FRST and BSP, the flags of FCTL, a tile's shape. -/
def sprNames (n : Nat) : List Name :=
  if isTshape n then [.t (n - 0x040)]
  else if n == 0x010 || n == 0x011 then [.frst]
  else if n == 0x018 then [.fctl, .flags]
  else []

/-- `mfs` (R110). -/
def planMfs (d : BitVec 6) (num : BitVec 12) : Plan where
  lanes := isTshape num.toNat
  reads := sprNames num.toNat
  writes := sname d
  check := sprPrivilege (sprReadS num.toNat)
  fire := fun s older e =>
    let v := (s.afterMts older).readSpr num.toNat
    (s.setVal d v, { e with done := true, pend := [], res := v })

/-- Every older instruction has completed, without a fault and rechecked: an `mts` takes effect once its convoy is the
oldest, and so do `trap`, `sret` and what else acts for good. -/
def State.oldest (s : State) (older : List Entry) : Bool :=
  s.me.flight.length == 1 && allDone older

/-- The write of an `mts` (R110): it takes effect only when every older convoy has retired and nothing older of its own
can trap; younger convoys wait until it retires. -/
def mtsFire (a : BitVec 6) (num : Nat) (s : State) (older : List Entry) (e : Entry) : State × Entry :=
  if !s.oldest older then (s, e)
  else if sprLate num then (s, { e with done := true, pend := [], res := e.arg a })
  else (s.writeSpr num (e.arg a), { e with done := true, pend := [] })

/-- `mts` to a register (R110). -/
def mtsPlan (a : BitVec 6) (num : BitVec 12) : Plan where
  reads := sname a
  writes := [.spr]
  check := sprPrivilege (sprWriteS num.toNat)
  fire := mtsFire a num.toNat
  ending := if sprLate num.toNat then .mts num.toNat else .none

/-- `mts` to a register of the plain kind (R110). -/
def planMts (a : BitVec 6) (num : BitVec 12) : Plan := mtsPlan a num

/-- `mts` to MVL (R129, R130). -/
def planMvlWrite (a : BitVec 6) (num : BitVec 12) : Plan := mtsPlan a num

/-- `mts` to TSHAPE (R182): it waits for the tile's work and its readers. -/
def planTshapeWrite (a : BitVec 6) (num : BitVec 12) : Plan where
  lanes := true
  strict := true
  reads := sname a
  writes := [.spr, .t (num.toNat - 0x040)]
  waits := fun s =>
    let t := Tab.get Tile.start s.curCore.tiles (num.toNat - 0x040)
    if t.st == .filling || t.st == .draining || s.me.pending.contains (.t (num.toNat - 0x040)) then [3] else []
  check := fun s => require (shapeOk (s.val a)) { cause := 15, info := 8 }
  fire := mtsFire a num.toNat

/-- `mts` to DLYMODE (R327). -/
def planDlymodeClr (a : BitVec 6) (num : BitVec 12) : Plan := mtsPlan a num

/-- `mts` to EFQB or EFQT (R332). -/
def planEfqWrite (a : BitVec 6) (num : BitVec 12) : Plan := mtsPlan a num

end Sys2Proof.Machine
end

