-- ==== Sys2Proof/Machine/Device.lean ====
section
/-!
DEFINITION. The device-register pages (23, R370) and what stands behind them: the host window and MSI-X (R371),
the journal (R374, R375), the pool decoders (R382), the firmware request port (R384) and the boot measurements
(R383).
-/

namespace Sys2Proof.Machine

/-! ### Near memory as the device itself reaches it -/

/-- A list of bytes cut where its addresses pass a 64-byte line; `fuel` bounds the lines. -/
def splitLines : (fuel : Nat) → (addr : Nat) → List Byte → List (Nat × List Byte)
  | 0, _, _ => []
  | fuel + 1, addr, bs =>
    let n := 64 - addr % 64
    if bs.isEmpty then [] else (addr, bs.take n) :: splitLines fuel (addr + n) (bs.drop n)

/-- Bytes of near memory under skew 00 and a key slot. -/
def State.nearBytes (s : State) (slot addr n : Nat) : List Byte :=
  (List.range n).map fun i => s.readByte (.near ((nearPhys 0 (addr + i)).getD 0) slot (addr + i))

/-- Bytes written there, one write for each line. -/
def State.nearWrite (s : State) (slot addr : Nat) (bs : List Byte) : State :=
  (splitLines (bs.length + 1) addr bs).foldl
    (fun st l => st.writeBytes (.near ((nearPhys 0 l.1).getD 0) slot l.1) l.2) s

/-- A dword of near memory under key slot 0. -/
def State.nearDword (s : State) (addr : Nat) : Nat := ofBytes (s.nearBytes 0 addr 8)

/-- `n` bytes from an address on lie in near memory. -/
def inNear (addr n : Nat) : Bool := decide (addr + n ≤ nearBytes)

/-! ### The journal (R374, R375) -/

/-- The number of entries of the ring. -/
def journalSize : Nat := 2 ^ 22

/-- The physical place of an entry's copy: pseudo-channel 63, or 319 for the mirror. -/
def journalAt (mirror : Bool) (jseq : Nat) : Nat := (if mirror then 319 else 63) * 2 ^ 30 + 64 * (jseq % journalSize)

/-- One copy of an entry as its eight dwords. -/
def State.journal (s : State) (mirror : Bool) (jseq : Nat) : List Nat :=
  (List.range 8).map fun i => ofBytes ((List.range 8).map fun b =>
    Tab.get memDefault s.hbm (journalAt mirror jseq + 8 * i + b))

/-- STATE of an entry's dwords. -/
def jState (ds : List Nat) : Nat := ds.getD 1 0 % 16

/-- The dwords with their CRC in dword 7. -/
def sealed (ds : List Nat) : List Nat :=
  ds.take 7 ++ [(crc32c ((ds.take 7).flatMap (toBytes 8))).toNat]

/-- One copy written. -/
def State.putJournal (s : State) (mirror : Bool) (jseq : Nat) (ds : List Nat) : State :=
  { s with hbm := putBytes s.hbm (journalAt mirror jseq) (ds.flatMap (toBytes 8)) }

/-- Both copies of an entry written, with CYCLE and CRC. -/
def State.journalWrite (s : State) (jseq : Nat) (ds : List Nat) : State :=
  let ds := sealed ((ds.set 6 s.cycle).take 8)
  (s.putJournal false jseq ds).putJournal true jseq ds

/-- A new entry, or none while its slot holds one that is accepted or started (R375). -/
def State.journalAppend (s : State) (ds : List Nat) : Option (State × Nat) :=
  let jseq := s.jhead + 1
  let old := jState (s.journal false jseq)
  if old = 1 ∨ old = 2 then none
  else some (({ s with jhead := jseq }).journalWrite jseq (ds.set 0 jseq), jseq)

/-- A transition of STATE that R375 allows. -/
def jStep (old new : Nat) : Bool := (old == 1 && new == 2) || (old == 2 && (new == 3 || new == 4)) || (old == 1 && new == 4)

/-- STATE and REASON of an entry changed (R375): anything but an allowed transition changes nothing. -/
def State.journalStat (s : State) (jseq code : Nat) : State :=
  let ds := s.journal false jseq
  if jseq ≠ 0 ∧ ds.getD 0 0 = jseq ∧ jStep (jState ds) (code % 16) then
    s.journalWrite jseq (ds.set 1 (ds.getD 1 0 / 256 * 256 + code % 256))
  else s

/-- An entry is accepted or started. -/
def State.entryOpen (s : State) (jseq : Nat) : Bool :=
  let ds := s.journal false jseq
  ds.getD 0 0 == jseq && (jState ds == 1 || jState ds == 2)

/-- A store to JAPP; none while it stays unperformed (R374, R375). -/
def State.japp (s : State) (addr : Nat) : Option State :=
  if !inNear addr 64 then some s
  else
    let ds := (List.range 8).map fun i => s.nearDword (addr + 8 * i)
    if jState ds ≠ 1 ∨ ds.getD 1 0 / 2 ^ 10 ≠ 0 ∨ ds.getD 7 0 / 2 ^ 32 ≠ 0 then
      some (s.nearWrite 0 addr (toBytes 8 0))
    else
      match s.journalAppend ds with
      | none => none
      | some (s1, jseq) => some (s1.nearWrite 0 addr (toBytes 8 jseq))

/-- A store to JSTAT. -/
def State.jstat (s : State) (v : Nat) : State := s.journalStat (v / 256) (v % 256)

/-! ### MSI-X (R371) -/

/-- A dword of the MSI-X table: an entry is masked until the host unmasks it (log 22). -/
def State.msixDword (s : State) (k : Nat) : Word := Tab.get (if k % 2 = 1 then 0x100000000#64 else 0) s.msix k

/-- The mask bit of a vector. -/
def State.msixMasked (s : State) (v : Nat) : Bool := (s.msixDword (2 * v + 1)).getLsbD 32

/-- The message of an entry: its address and its data. -/
def State.msixMsg (s : State) (v : Nat) : Msg := .msix v (s.msixDword (2 * v)) (field (s.msixDword (2 * v + 1)) 0 32)

/-- A message of a vector: sent, or recorded as pending while its entry is masked. -/
def State.sendMsix (s : State) (v : Nat) : State :=
  if s.msixMasked v then { s with msixPend := Tab.put s.msixPend v true }
  else { s with out := s.out ++ [s.msixMsg v] }

/-- A store to HMSI (R371). -/
def State.hmsi (s : State) (v : Nat) : State := if 2048 ≤ v then s else s.sendMsix v

/-- Pending messages of unmasked entries are sent. -/
def State.sendPending (s : State) (v : Nat) : State :=
  if Tab.get false s.msixPend v && !s.msixMasked v then
    { s with msixPend := Tab.del s.msixPend v, out := s.out ++ [s.msixMsg v] }
  else s

/-! ### Pool decoders (R382) -/

/-- A decoder may be enabled beside the others (R382). -/
def State.mayEnable (s : State) (k : Nat) : Bool :=
  let d := s.decoder k
  let others := ((List.range 16).filter fun j => j != k && (s.decoder j).en).map s.decoder
  decide (d.base < d.limit) && [1, 2, 4].contains d.portList.length && decide (d.ig ≠ 7) &&
    others.all (fun o => decide (d.limit ≤ o.base) || decide (o.limit ≤ d.base)) &&
    decide ((others.foldl (fun n o => n + (o.limit - o.base)) (d.limit - d.base)) ≤ 65536)

/-- A dword of a decoder written. -/
def State.putPdec (s : State) (k i : Nat) (v : Word) : State := { s with pdec := Tab.set 0 s.pdec (4 * k + i) v }

/-- The far lines of a decoder's region written back and discarded. -/
def State.flushRegion (s : State) (d : Decoder) : State :=
  (s.far.filter fun e => d.base * 2 ^ 30 ≤ e.1 / 512 * 64 ∧ e.1 / 512 * 64 < d.limit * 2 ^ 30).foldl
    (fun st e => st.evictFar e.1) s

/-- A store that sets or keeps EN (R382): fields of an enabled decoder stay as they are. -/
def State.pdecEnable (s : State) (k : Nat) (v : Word) : State :=
  if (s.decoder k).en then s
  else
    let s1 := s.putPdec k 2 (v &&& 0x7F#64)
    if s1.mayEnable k then s1.putPdec k 2 (v &&& 0x17F#64) else s1

/-- A store that clears EN, or that leaves it clear (R382). -/
def State.pdecDisable (s : State) (k : Nat) (v : Word) : State :=
  if (s.decoder k).en then
    (s.flushRegion (s.decoder k)).putPdec k 2 (s.pdecDword k 2 &&& 0x7F#64)
  else s.putPdec k 2 (v &&& 0x7F#64)

/-- A store to a dword of a decoder. -/
def State.pdecWrite (s : State) (k i : Nat) (v : Word) : State :=
  match i with
  | 2 => if v.getLsbD 8 then s.pdecEnable k v else s.pdecDisable k v
  | 0 => if (s.decoder k).en then s else s.putPdec k 0 (v &&& 0x3FFFC0000000#64)
  | 1 => if (s.decoder k).en then s else s.putPdec k 1 (v &&& 0x7FFFC0000000#64)
  | 3 => if (s.decoder k).en then s else s.putPdec k 3 (v &&& 0xFFFFFFFFFFF00#64)
  | _ => s

/-! ### The firmware request port (R384) -/

/-- The status that firmware writes for a request it refuses: negative, and not otherwise given. -/
def State.refusedStatus (s : State) (addr : Nat) : Nat := (Config.freeWord s.choice addr ||| 0x8000000000000000#64).toNat

/-- Install a key (KIND 1). The block holds slot, owner and the halves from dword 2 on (log 23). -/
def State.installKey (s : State) (addr : Nat) : State :=
  let slot := s.nearDword (addr + 16)
  let owner := s.nearDword (addr + 24)
  let key := BitVec.ofNat 512 (ofBytes (s.nearBytes 0 (addr + 32) 64))
  let s1 := s.nearWrite 0 (addr + 32) (toBytes 64 0)
  if 512 ≤ slot ∨ (Tab.find s.keys slot).isSome then s1.nearWrite 0 addr (toBytes 8 (s.refusedStatus addr))
  else
    ({ s1 with keys := Tab.put s1.keys slot ⟨owner, key, none⟩ }).nearWrite 0 addr (toBytes 8 0)

/-- The lines cached under a slot written back and discarded (R230). -/
def State.flushSlot (s : State) (slot : Nat) : State :=
  (s.far.filter fun e => e.2.slot = slot).foldl (fun st e => st.evictFar e.1) s

/-- A write of the host that has begun under a window. -/
def begunUnder (e : Instr) : Option Word :=
  match e with
  | .hostWrite _ _ x => x.began
  | _ => none

/-- An access that reached a key slot has still to perform (R371): a strand's, or the due lines of a host write. -/
def State.slotOpen (s : State) (slot : Nat) : Bool :=
  let under := fun (p : Nat × PageRes) => match p.2 with
    | .ok l => decide (l.cls ≤ 1) && l.key == slot
    | .bad _ => false
  (s.cores.any fun c => c.2.slots.any fun t => (t.2.flight.flatMap Convoy.entries).any fun e => e.reaches under) ||
    s.agenda.any fun e => (begunUnder e).any fun w => field w 48 9 == slot

/-- The slot whose removal a request block asks for: the one that it has begun to remove, else the one that it names. -/
def State.removeSlot (s : State) (addr : Nat) : Nat :=
  match s.keys.find? fun k => k.2.going == some addr with
  | some (slot, _) => slot
  | none => s.nearDword (addr + 16)

/-- The block may remove its slot: it is installed, and no other block removes it (log 131). -/
def State.mayRemove (s : State) (addr : Nat) : Bool :=
  (Tab.find s.keys (s.removeSlot addr)).any fun k => k.going.isNone || k.going == some addr

/-- Remove a key (KIND 2, R230): none while an access that reached the slot has still to perform (R371). -/
def State.removeKey (s : State) (addr : Nat) : Option State :=
  let slot := s.removeSlot addr
  if !s.mayRemove addr then some (s.nearWrite 0 addr (toBytes 8 (s.refusedStatus addr)))
  else if s.slotOpen slot then none
  else
    let s1 := (s.flushSlot slot).nearWrite 0 addr (toBytes 8 0)
    some { s1 with keys := Tab.del s1.keys slot }

/-- A removal that has to wait has begun: the slot counts as empty from now on (R371). -/
def State.beginRemove (s : State) (addr : Nat) : State :=
  match Tab.find s.keys (s.removeSlot addr) with
  | some k => if s.mayRemove addr then { s with keys := Tab.put s.keys (s.removeSlot addr) { k with going := some addr } } else s
  | none => s

/-- MEASk as bytes. -/
def State.measBytes (s : State) (k : Nat) : List Byte := toBytes 64 (Tab.get 0 s.meas k).toNat

/-- The report of 440 bytes for a nonce. -/
def State.report (s : State) (nonce : List Byte) : List Byte :=
  let body := nonce ++ toBytes 8 partid.toNat ++ toBytes 8 (s.devId % 2 ^ 19) ++ toBytes 8 1 ++
    s.measBytes 0 ++ s.measBytes 1 ++ s.measBytes 2 ++ s.measBytes 3 ++
    toBytes 32 Config.identityKey.toNat ++ toBytes 32 Config.rootKey.toNat
  body ++ toBytes 64 (Config.signature (sha512 body)).toNat

/-- Attestation (KIND 3): the report at offset 0x100 of the block that dword 2 names. -/
def State.attest (s : State) (addr : Nat) : State :=
  let other := s.nearDword (addr + 16)
  if !inNear other 696 then s.nearWrite 0 addr (toBytes 8 (s.refusedStatus addr))
  else (s.nearWrite 0 (other + 256) (s.report (s.nearBytes 0 (addr + 32) 32))).nearWrite 0 addr (toBytes 8 0)

/-- What a request block asks for: a removal that it has begun, else its KIND. -/
def State.requestKind (s : State) (addr : Nat) : Nat :=
  if s.keys.any fun k => k.2.going == some addr then 2 else s.nearDword (addr + 8)

/-- A store to FWREQ: the request of the block's KIND; none while it stays unperformed. -/
def State.fwreq (s : State) (addr : Nat) : Option State :=
  if !inNear addr 256 then some s
  else
    match s.requestKind addr with
    | 1 => some (s.installKey addr)
    | 2 => s.removeKey addr
    | 3 => some (s.attest addr)
    | _ => some (s.nearWrite 0 addr (toBytes 8 (s.refusedStatus addr)))

/-! ### The pages (R370) -/

/-- The value of a device register; offsets not listed read 0. -/
def State.devRead (s : State) (page off : Nat) : Word :=
  match page with
  | 0 =>
    if off = 0 then partid
    else if off = 8 then BitVec.ofNat 64 (s.devId % 2 ^ 19)
    else if 0x100 ≤ off ∧ off < 0x200 then ((Tab.get 0 s.meas ((off - 0x100) / 0x40)) >>> (off % 0x40 * 8)).setWidth 64
    else 0
  | 1 => if off = 0x10 then BitVec.ofNat 64 s.jhead else 0
  | 2 => if off = 0 then s.hwin else 0
  | 4 =>
    if off = 0 then BitVec.ofNat 64 s.ftmo
    else if off = 8 then BitVec.ofNat 64 s.gtmo
    else if 0x100 ≤ off ∧ off < 0x100 + 8 * 96 then Tab.get 0 s.pst ((off - 0x100) / 8)
    else 0
  | 5 => if 0x100 ≤ off ∧ off < 0x300 then s.pdecDword ((off - 0x100) / 0x20) (off / 8 % 4) else 0
  | _ => 0

/-- A store to a device register; none while it stays unperformed. Offsets not listed ignore it. -/
def State.devWrite (s : State) (page off : Nat) (v : Word) : Option State :=
  match page, off with
  | 1, 0x00 => s.japp v.toNat
  | 1, 0x08 => some (s.jstat v.toNat)
  | 2, 0x00 => some { s with hwin := v &&& 0x1FF007FC0000000#64 }
  | 2, 0x08 => some (s.hmsi v.toNat)
  | 3, 0x00 => s.fwreq v.toNat
  | 4, 0x00 => some { s with ftmo := v.toNat % 2 ^ 32 }
  | 4, 0x08 => some { s with gtmo := v.toNat % 2 ^ 32 }
  | 5, o => some (if 0x100 ≤ o ∧ o < 0x300 then s.pdecWrite ((o - 0x100) / 0x20) (o / 8 % 4) v else s)
  | _, _ => some s

/-- What a store to a device register that stays unperformed has begun (R370, R371): the removal of a key. -/
def State.devBegin (s : State) (page off : Nat) (v : Word) : State :=
  match page, off with
  | 3, 0x00 => s.beginRemove v.toNat
  | _, _ => s

/-! ### The host window (R371, R372) -/

/-- BAR2 reaches memory: BASE below 509 and an installed key slot, whose removal has not begun. -/
def State.windowOpen (s : State) : Bool :=
  decide (field s.hwin 30 9 < 509) && (Tab.find s.keys (field s.hwin 48 9)).any fun k => k.going.isNone

/-- The near address of a BAR2 offset under a window. -/
def windowAddr (hwin : Word) (off : Nat) : Nat := field hwin 30 9 * 2 ^ 30 + off

end Sys2Proof.Machine
end

