-- ==== Sys2Proof/Machine/Flags.lean ====
section
/-!
DEFINITION. Number formats and rounding (08, R154–R165), exact arithmetic on decoded values (R122, R151),
and the floating-point flags that scalar instructions set (R111, R121–R124). A decoded value is an exact
dyadic number; each operation computes exactly and rounds once. Quotients and roots carry one sticky bit
below every bit that rounding looks at.
-/

namespace Sys2Proof.Machine

/-- A rounding mode of R163. -/
inductive Mode where
  | rne | rtz | rdn | rup | rna | rto
deriving DecidableEq, Repr

/-- The mode of an rm field: `.dyn` takes FCTL.RM (R111, R163). An `mts` leaves FCTL.RM at 0–5; an image that software has
changed may bring 6 or 7, which round to odd (log 135). -/
def modeOf (rm : Rm) (fctl : Word) : Mode :=
  match rm with
  | .rne => .rne
  | .rtz => .rtz
  | .rdn => .rdn
  | .rup => .rup
  | .rna => .rna
  | .rto => .rto
  | .dyn =>
    match fctl.toNat % 8 with
    | 0 => .rne
    | 1 => .rtz
    | 2 => .rdn
    | 3 => .rup
    | 4 => .rna
    | _ => .rto

/-- The exact value of a code: `num neg m e` is ±m·2^e, and its sign is kept for zero. -/
inductive FVal where
  | nan
  | inf (neg : Bool)
  | num (neg : Bool) (m : Nat) (e : Int)
deriving DecidableEq, Repr

/-- A floating format: sign, exponent and mantissa widths, bias, special policy (R160) and the valid
reserved codes (R158). -/
structure FFmt where
  s    : Nat
  e    : Nat
  m    : Nat
  bias : Int
  /-- 0 every code finite, 1 IEEE-style, 2 single NaN magnitude. -/
  spec : Nat
  rc   : List Nat
deriving DecidableEq, Repr

/-- A number format: a floating format, e8m0 (R156), or an integer type. -/
inductive Fmt where
  | flt (f : FFmt)
  | e8m0
  | int (w : Nat) (signed : Bool)
deriving DecidableEq, Repr

/-- binary32 (R155). -/
def f32 : FFmt := ⟨1, 8, 23, 127, 1, []⟩

/-- The format of a type code (R40, R155). -/
def fmtOfTy (t : Ty) : Fmt :=
  match t with
  | .i8 => .int 8 true
  | .i16 => .int 16 true
  | .i32 => .int 32 true
  | .i64 => .int 64 true
  | .n8 => .int 8 false
  | .n16 => .int 16 false
  | .n32 => .int 32 false
  | .n64 => .int 64 false
  | .f32 => .flt f32
  | .f16 => .flt ⟨1, 5, 10, 15, 1, []⟩
  | .bf16 => .flt ⟨1, 8, 7, 127, 1, []⟩
  | .e4m3 => .flt ⟨1, 4, 3, 7, 2, []⟩
  | .e5m2 => .flt ⟨1, 5, 2, 15, 1, []⟩
  | .e3m2 => .flt ⟨1, 3, 2, 3, 0, []⟩
  | .e2m3 => .flt ⟨1, 2, 3, 1, 0, []⟩
  | .e2m1 => .flt ⟨1, 2, 1, 1, 0, []⟩

/-- The type code of a number 0–15 (R40). -/
def tyOfNat (n : Nat) : Ty :=
  match n with
  | 0 => .i8
  | 1 => .i16
  | 2 => .i32
  | 3 => .i64
  | 4 => .n8
  | 5 => .n16
  | 6 => .n32
  | 7 => .n64
  | 8 => .f32
  | 9 => .f16
  | 10 => .bf16
  | 11 => .e4m3
  | 12 => .e5m2
  | 13 => .e3m2
  | 14 => .e2m3
  | _ => .e2m1

/-- A bit field of a record image. -/
def bitsAt (w : Word) (lo n : Nat) : Nat := w.toNat / 2 ^ lo % 2 ^ n

/-- The format of a record image (R158). -/
def fmtOfRecord (r : Word) : FFmt where
  s := bitsAt r 0 1
  e := bitsAt r 1 3
  m := bitsAt r 4 3
  bias := if 64 ≤ bitsAt r 7 7 then (bitsAt r 7 7 : Int) - 128 else bitsAt r 7 7
  spec := bitsAt r 14 2
  rc := (if bitsAt r 32 1 = 1 then [bitsAt r 16 8] else []) ++ (if bitsAt r 33 1 = 1 then [bitsAt r 24 8] else [])

/-- The width of a floating format. -/
def FFmt.width (f : FFmt) : Nat := f.s + f.e + f.m

/-- A record image is valid (R159). -/
def recordOk (r : Word) : Bool :=
  let f := fmtOfRecord r
  decide (2 ≤ f.width) && decide (f.width ≤ 8) && decide (f.spec ≤ 2) &&
    (f.spec != 1 || (decide (2 ≤ f.e) && decide (1 ≤ f.m))) &&
    (f.rc.all fun c => decide (c < 2 ^ f.width)) && bitsAt r 34 30 == 0

/-- The width in bits of a format's codes. -/
def Fmt.width (f : Fmt) : Nat :=
  match f with
  | .flt g => g.width
  | .e8m0 => 8
  | .int w _ => w

/-- The width of the vector element that holds a code (R157). -/
def Fmt.elemWidth (f : Fmt) : Nat :=
  match f with
  | .flt g => if g.width ≤ 8 then 8 else g.width
  | .e8m0 => 8
  | .int w _ => w

/-- The codes of the largest finite magnitude (R155, R160). -/
def FFmt.maxCode (f : FFmt) : Nat :=
  match f.spec with
  | 1 => (2 ^ f.e - 1) * 2 ^ f.m - 1
  | 2 => 2 ^ (f.e + f.m) - 2
  | _ => 2 ^ (f.e + f.m) - 1

/-- The canonical NaN, in a format that has one (R155, R160). -/
def FFmt.nanCode (f : FFmt) : Nat :=
  match f.spec with
  | 1 => (2 ^ f.e - 1) * 2 ^ f.m + 2 ^ (f.m - 1)
  | 2 => 2 ^ (f.e + f.m) - 1
  | _ => 0

/-- A magnitude code with a sign. A format without a sign bit takes the magnitude. -/
def FFmt.signed (f : FFmt) (neg : Bool) (c : Nat) : Nat :=
  if neg && f.s == 1 then 2 ^ (f.e + f.m) + c else c

/-- The exponent of the smallest step of a format (R154). -/
def FFmt.step (f : FFmt) : Int := 1 - f.bias - (f.m : Int)

/-- The value of a floating code (R154, R160), reserved codes apart. -/
def FFmt.value (f : FFmt) (code : Nat) : FVal :=
  let neg := f.s == 1 && code.testBit (f.e + f.m)
  let c := code % 2 ^ (f.e + f.m)
  let ex := c / 2 ^ f.m
  let ma := c % 2 ^ f.m
  if f.spec = 1 ∧ ex = 2 ^ f.e - 1 then (if ma = 0 then .inf neg else .nan)
  else if f.spec = 2 ∧ c = 2 ^ (f.e + f.m) - 1 then .nan
  else if ex = 0 then .num neg ma f.step
  else .num neg (2 ^ f.m + ma) (f.step + (ex : Int) - 1)

/-- The signed value of a number of `w` bits. -/
def toSigned (w v : Nat) : Int := if 2 ^ (w - 1) ≤ v % 2 ^ w then ((v % 2 ^ w : Nat) : Int) - 2 ^ w else ((v % 2 ^ w : Nat) : Int)

/-- An integer as an exact value. -/
def ofInt (i : Int) : FVal := .num (decide (i < 0)) i.natAbs 0

/-- The value of a code (R154, R156, R161): none for a reserved code. Bits above the code's width are
ignored (R157). -/
def Fmt.decode (f : Fmt) (v : Nat) : Option FVal :=
  match f with
  | .flt g =>
    let c := v % 2 ^ g.width
    if g.rc.contains c then none else some (g.value c)
  | .e8m0 => some (if v % 256 = 255 then .nan else .num false 1 ((v % 256 : Nat) - 127 : Int))
  | .int w sg => some (ofInt (if sg then toSigned w v else ((v % 2 ^ w : Nat) : Int)))

/-! ### Rounding -/

/-- Whether the neighbour of larger magnitude is chosen (R163): `odd` is the parity of the lower code,
`rem` what lies above it in units of which `unit` make one step. -/
def Mode.up (mode : Mode) (neg odd : Bool) (rem unit : Nat) : Bool :=
  rem != 0 &&
    (match mode with
      | .rne => decide (unit < 2 * rem) || (decide (unit = 2 * rem) && odd)
      | .rtz => false
      | .rdn => neg
      | .rup => !neg
      | .rna => decide (unit ≤ 2 * rem)
      | .rto => !odd)

/-- ±m·2^e rounded on the grid whose smallest step has exponent `q` and whose binades have 2^p steps
(R163): the number of the grid point, counted in magnitude, and whether the value is off the grid. -/
def roundGrid (mode : Mode) (neg : Bool) (q : Int) (p : Nat) (m : Nat) (e : Int) : Nat × Bool :=
  if m = 0 then (0, false)
  else
    let top : Int := (Nat.log2 m : Int) + e
    let u := max (top - (p : Int)) q
    let k := if u ≤ e then m * 2 ^ (e - u).toNat else m / 2 ^ (u - e).toNat
    let unit := if u ≤ e then 1 else 2 ^ (u - e).toNat
    let rem := if u ≤ e then 0 else m % unit
    let c := (u - q).toNat * 2 ^ p + k
    (if mode.up neg (c % 2 == 1) rem unit then c + 1 else c, rem != 0)

/-- A rounded result: its code, and what it tells the flags (R111). -/
structure Rounded where
  code     : Nat
  inexact  : Bool
  overflow : Bool
  tiny     : Bool
deriving DecidableEq, Repr

/-- What an overflow gives (R164). -/
def FFmt.overflow (f : FFmt) (mode : Mode) (sat neg : Bool) : Nat :=
  if sat then f.signed neg f.maxCode
  else
    match f.spec with
    | 1 =>
      let infinite := match mode with
        | .rne => true
        | .rna => true
        | .rup => !neg
        | .rdn => neg
        | .rtz => false
        | .rto => false
      f.signed neg (if infinite then (2 ^ f.e - 1) * 2 ^ f.m else f.maxCode)
    | 2 => f.nanCode
    | _ => f.signed neg f.maxCode

/-- A value rounded into a floating format (R163, R164). -/
def FFmt.round (f : FFmt) (mode : Mode) (sat : Bool) (v : FVal) : Rounded :=
  match v with
  | .nan => ⟨f.nanCode, false, false, false⟩
  | .inf neg =>
    if f.s = 0 ∧ neg then ⟨if sat then 0 else f.nanCode, false, false, false⟩
    else if f.spec = 1 ∧ !sat then ⟨f.signed neg ((2 ^ f.e - 1) * 2 ^ f.m), false, false, false⟩
    else ⟨f.overflow mode sat neg, false, true, false⟩
  | .num neg m e =>
    let (c, off) := roundGrid mode neg f.step f.m m e
    let free := roundGrid mode neg (f.step - 100000) f.m m e
    let tiny := decide (free.1 < 100001 * 2 ^ f.m)
    if f.s = 0 ∧ neg ∧ c ≠ 0 then ⟨if sat then 0 else f.nanCode, true, false, tiny⟩
    else if f.maxCode < c then ⟨f.overflow mode sat neg, true, true, false⟩
    else ⟨f.signed neg c, off, false, tiny⟩

/-- A value rounded into e8m0 (R156; above 2^127 see log 123). -/
def roundE8 (mode : Mode) (sat : Bool) (v : FVal) : Nat :=
  match v with
  | .nan => 255
  | .inf _ => 255
  | .num neg m e =>
    if neg || m == 0 then 255
    else
      let top : Int := (Nat.log2 m : Int) + e
      if top < -127 then 0
      else
        let c := (top + 127).toNat
        let c := if mode.up false (c % 2 == 1) (m - 2 ^ Nat.log2 m) (2 ^ Nat.log2 m) then c + 1 else c
        if c ≤ 254 then c else if sat then 254 else 255

/-- An exact value rounded to an integer by a mode; the sticky bit of a quotient counts as part of it. -/
def roundInt (mode : Mode) (neg : Bool) (m : Nat) (e : Int) : Int :=
  let n : Nat :=
    if 0 ≤ e then m * 2 ^ e.toNat
    else
      let unit := 2 ^ (-e).toNat
      if mode.up neg (m / unit % 2 == 1) (m % unit) unit then m / unit + 1 else m / unit
  if neg then -(n : Int) else n

/-- An integer clamped to a type's range. -/
def clampInt (w : Nat) (sg : Bool) (i : Int) : Int :=
  if sg then max (-(2 ^ (w - 1) : Int)) (min (2 ^ (w - 1) - 1) i) else max 0 (min (2 ^ w - 1) i)

/-- The `w` low bits of an integer in two's complement: `wrap` of R35. -/
def wrapInt (w : Nat) (i : Int) : Nat := (i % (2 ^ w : Int)).toNat

/-- An integer into a type, clamped under `.sat`, else wrapped. -/
def intoInt (w : Nat) (sg sat : Bool) (i : Int) : Nat := wrapInt w (if sat then clampInt w sg i else i)

/-- A floating value converted to an integer type (R165): it always saturates, and NaN gives 0. -/
def toIntCode (mode : Mode) (w : Nat) (sg : Bool) (v : FVal) : Nat :=
  match v with
  | .nan => 0
  | .inf neg => wrapInt w (if neg then (if sg then -(2 ^ (w - 1) : Int) else 0) else (if sg then 2 ^ (w - 1) - 1 else 2 ^ w - 1))
  | .num neg m e => wrapInt w (clampInt w sg (roundInt mode neg m e))

/-- A value written in a format (R163–R165), or none where the rounded result is a reserved code (R161). -/
def Fmt.encode (f : Fmt) (mode : Mode) (sat : Bool) (v : FVal) : Option Nat :=
  match f with
  | .flt g =>
    let c := (g.round mode sat v).code
    if g.rc.contains c then none else some c
  | .e8m0 => some (roundE8 mode sat v)
  | .int w sg => some (toIntCode mode w sg v)

/-! ### Exact arithmetic -/

/-- The sign changed. -/
def FVal.neg (v : FVal) : FVal :=
  match v with
  | .nan => .nan
  | .inf s => .inf (!s)
  | .num s m e => .num (!s) m e

/-- The magnitude. -/
def FVal.abs (v : FVal) : FVal :=
  match v with
  | .nan => .nan
  | .inf _ => .inf false
  | .num _ m e => .num false m e

/-- The value scaled by 2^k. -/
def FVal.scale (v : FVal) (k : Int) : FVal :=
  match v with
  | .nan => .nan
  | .inf s => .inf s
  | .num s m e => .num s m (e + k)

/-- The numerator of ±m·2^e over 2^b, for b no larger than e. -/
def scaled (neg : Bool) (m : Nat) (e b : Int) : Int :=
  let n : Int := ((m * 2 ^ (e - b).toNat : Nat) : Int)
  if neg then -n else n

/-- a + b. An exact zero sum of opposite signs is +0, and −0 when rounding down (R122, R151). -/
def FVal.add (down : Bool) (a b : FVal) : FVal :=
  match a, b with
  | .nan, _ => .nan
  | _, .nan => .nan
  | .inf s, .inf t => if s = t then .inf s else .nan
  | .inf s, .num _ _ _ => .inf s
  | .num _ _ _, .inf t => .inf t
  | .num s m e, .num t n f =>
    let q := min e f
    let i := scaled s m e q + scaled t n f q
    if i = 0 then .num (if s = t then s else down) 0 0 else .num (decide (i < 0)) i.natAbs q

/-- a × b. -/
def FVal.mul (a b : FVal) : FVal :=
  match a, b with
  | .nan, _ => .nan
  | _, .nan => .nan
  | .inf s, .inf t => .inf (s != t)
  | .inf s, .num t n _ => if n = 0 then .nan else .inf (s != t)
  | .num s m _, .inf t => if m = 0 then .nan else .inf (s != t)
  | .num s m e, .num t n f => .num (s != t) (m * n) (e + f)

/-- A number of at least 70 significant bits, with a sticky bit where something remains. -/
def sticky (q : Nat) (rest : Bool) : Nat := 2 * q + (if rest then 1 else 0)

/-- a ÷ b, to more bits than any format keeps, with a sticky bit (R122). -/
def FVal.div (a b : FVal) : FVal :=
  match a, b with
  | .nan, _ => .nan
  | _, .nan => .nan
  | .inf _, .inf _ => .nan
  | .inf s, .num t _ _ => .inf (s != t)
  | .num s _ _, .inf t => .num (s != t) 0 0
  | .num s m e, .num t n f =>
    if n = 0 then (if m = 0 then .nan else .inf (s != t))
    else
      let k := Nat.log2 n + 70
      .num (s != t) (sticky (m * 2 ^ k / n) (m * 2 ^ k % n != 0)) (e - f - (k : Int) - 1)

/-- The integer square root of `n`, bit by bit from bit `i - 1` down, on top of the bits found. -/
def isqrt (n : Nat) : (i : Nat) → (found : Nat) → Nat
  | 0, r => r
  | i + 1, r =>
    let t := r + 2 ^ i
    isqrt n i (if t * t ≤ n then t else r)

/-- √a, to more bits than any format keeps, with a sticky bit; √(−0) = −0 (R122). -/
def FVal.sqrt (a : FVal) : FVal :=
  match a with
  | .nan => .nan
  | .inf s => if s then .nan else .inf false
  | .num s m e =>
    if m = 0 then .num s 0 0
    else if s then .nan
    else
      let k : Nat := 140 + (if e % 2 = 0 then 0 else 1)
      let n := m * 2 ^ k
      let r := isqrt n (Nat.log2 n / 2 + 1) 0
      .num false (sticky r (r * r != n)) ((e - (k : Int)) / 2 - 1)

/-- The order of two values, +0 equal to −0: none when either is NaN. -/
def FVal.cmp (a b : FVal) : Option Ordering :=
  match a, b with
  | .nan, _ => none
  | _, .nan => none
  | .inf s, .inf t => some (if s = t then .eq else if s then .lt else .gt)
  | .inf s, .num _ _ _ => some (if s then .lt else .gt)
  | .num _ _ _, .inf t => some (if t then .gt else .lt)
  | .num s m e, .num t n f =>
    let q := min e f
    some (compare (scaled s m e q) (scaled t n f q))

/-- NaN. -/
def FVal.isNan (v : FVal) : Bool := v == .nan

/-! ### Flags of scalar floating point -/

/-- FCTL's flag bits (R111). -/
def flagNX : Word := 0x100#64
def flagUF : Word := 0x200#64
def flagOF : Word := 0x400#64
def flagDZ : Word := 0x800#64
def flagNV : Word := 0x1000#64

/-- A flag raised where a condition holds. -/
def flagIf (c : Bool) (f : Word) : Word := if c then f else 0

/-- A signalling NaN of binary32. -/
def signalling (c : Nat) : Bool :=
  c / 2 ^ 23 % 256 == 255 && c % 2 ^ 23 != 0 && !c.testBit 22

/-- The value of a binary32 source: bits [31:0] (R121). -/
def val32 (w : Word) : FVal := f32.value (w.toNat % 2 ^ 32)

/-- The flags of a rounded binary32 result (R111, R121). -/
def Rounded.flags (r : Rounded) : Word :=
  flagIf r.overflow (flagOF ||| flagNX) ||| flagIf r.inexact flagNX ||| flagIf (r.tiny && r.inexact) flagUF

/-- Whether a NaN result is newly made, or a source signals: the invalid exception. -/
def invalid (v : FVal) (srcs : List Word) : Bool :=
  (v.isNan && srcs.all fun w => !(val32 w).isNan) || srcs.any fun w => signalling (w.toNat % 2 ^ 32)

/-- A binary32 result with its flags: rounded once, zero-extended (R121). -/
def result32 (mode : Mode) (v : FVal) (srcs : List Word) : Word × Word :=
  let r := f32.round mode false v
  (BitVec.ofNat 64 r.code, r.flags ||| flagIf (invalid v srcs) flagNV)

/-- `fadd.s` (R122). -/
def fadd32 (mode : Mode) (a b : Word) : Word × Word :=
  result32 mode (FVal.add (mode == .rdn) (val32 a) (val32 b)) [a, b]

/-- `fsub.s` (R122): the addends are a and −b. -/
def fsub32 (mode : Mode) (a b : Word) : Word × Word :=
  result32 mode (FVal.add (mode == .rdn) (val32 a) (val32 b).neg) [a, b]

/-- `fmul.s` (R122). -/
def fmul32 (mode : Mode) (a b : Word) : Word × Word := result32 mode (FVal.mul (val32 a) (val32 b)) [a, b]

/-- `ffma.s` (R122): one rounding. Whether 0 × ∞ + NaN is invalid is the implementation's (log 17). -/
def ffma32 (mode : Mode) (a b c : Word) : Word × Word :=
  let p := FVal.mul (val32 a) (val32 b)
  let r := result32 mode (FVal.add (mode == .rdn) p (val32 c)) [a, b, c]
  let made := p.isNan && !(val32 a).isNan && !(val32 b).isNan && (val32 c).isNan
  (r.1, r.2 ||| flagIf (made && Config.fmaNanInvalid) flagNV)

/-- `fdiv.s` (R122): a finite nonzero value over a zero sets DZ. -/
def fdiv32 (mode : Mode) (a b : Word) : Word × Word :=
  let r := result32 mode (FVal.div (val32 a) (val32 b)) [a, b]
  let dz := match val32 a, val32 b with
    | .num _ m _, .num _ n _ => m != 0 && n == 0
    | _, _ => false
  (r.1, r.2 ||| flagIf dz flagDZ)

/-- `fsqrt.s` (R122). -/
def fsqrt32 (mode : Mode) (a : Word) : Word × Word := result32 mode (FVal.sqrt (val32 a)) [a]

/-- What a comparison of R123 asks. -/
inductive FRel where
  | eq | lt | le | un
deriving DecidableEq, Repr

/-- A relation of R123 on an order. -/
def FRel.holds (r : FRel) (o : Option Ordering) : Bool :=
  match r, o with
  | .un, none => true
  | .un, some _ => false
  | .eq, o => o == some .eq
  | .lt, o => o == some .lt
  | .le, o => o == some .eq || o == some .lt

/-- `fcmp.s` (R123) with its flags. -/
def fcmp32 (r : FRel) (a b : Word) : Word × Word :=
  let nan := (val32 a).isNan || (val32 b).isNan
  let sig := signalling (a.toNat % 2 ^ 32) || signalling (b.toNat % 2 ^ 32)
  let nv := match r with
    | .eq => sig
    | .un => sig
    | .lt => nan
    | .le => nan
  (if r.holds (FVal.cmp (val32 a) (val32 b)) then 1 else 0, flagIf nv flagNV)

/-- `fcvt.s` to a 64-bit integer (R124): NV for NaN and a saturated result, NX for another inexact one. -/
def fcvtToInt (mode : Mode) (sg : Bool) (a : Word) : Word × Word :=
  match val32 a with
  | .nan => (0, flagNV)
  | .inf s => (BitVec.ofNat 64 (toIntCode mode 64 sg (.inf s)), flagNV)
  | .num s m e =>
    let i := roundInt mode s m e
    let saturated := clampInt 64 sg i != i
    let exact := decide (0 ≤ e) || m % 2 ^ (-e).toNat == 0
    (BitVec.ofNat 64 (toIntCode mode 64 sg (.num s m e)),
      flagIf saturated flagNV ||| flagIf (!saturated && !exact) flagNX)

/-- `fcvt.s` from a 64-bit integer (R124). -/
def fcvtOfInt (mode : Mode) (sg : Bool) (a : Word) : Word × Word :=
  result32 mode (ofInt (if sg then a.toInt else (a.toNat : Int))) []

end Sys2Proof.Machine
end

