-- ==== Sys2Proof/Machine/Rules.lean ====
section
/-!
DEFINITION. Vector instructions as standing rules (07, R132–R137, R142; 02, R36): what firing an element
can come to, one pass over a destination register, masks with their policies, and the plans of the common
vector forms.
-/

namespace Sys2Proof.Machine

/-- What becomes of one destination element in a pass. -/
inductive Fired where
  /-- A source it names is not ready. -/
  | wait
  /-- It takes a value and becomes FULL. -/
  | val (v : Nat)
  /-- A POISON source: the element becomes POISON, and its trap follows (R36, R136). -/
  | poison
  /-- The same where `i` is the lowest of the elements that the trap may name: the element itself and those that a selector
  or cross-element rule read for it (R136). -/
  | poisonAt (i : Nat)
  /-- POISON without a trap: a load of data with an uncorrectable error (R248). -/
  | quiet
  /-- Another element's value and tag, copied when ready (R134, R135). -/
  | copy (e : Elt)
  /-- It is absent, with a trap to deliver on retirement. -/
  | fault (t : Trap)
deriving DecidableEq, Repr

/-- What a pass over the elements of one destination leaves. -/
structure Pass (α : Type) where
  reg   : α
  /-- Some element is not there yet. -/
  open_ : Bool
  /-- The trap of the lowest absent element that failed. -/
  flt   : Option Trap
  /-- The lowest element that fired from POISON, or that was read as POISON (R136). -/
  bad   : Option Nat

/-- The element that a firing writes, if any. -/
def Fired.elt (f : Fired) : Elt :=
  match f with
  | .wait => .empty
  | .val v => .full v
  | .poison => .poison
  | .poisonAt _ => .poison
  | .quiet => .poison
  | .copy e => e
  | .fault _ => .empty

/-- A pass extended by element `i`. -/
def Pass.step {α : Type} (put : α → Nat → Elt → α) (p : Pass α) (i : Nat) (f : Fired) : Pass α where
  reg := if f.elt = .empty then p.reg else put p.reg i f.elt
  open_ := p.open_ || f.elt == .empty
  flt := match p.flt, f with
    | none, .fault t => some { t with elem := some i }
    | t, _ => t
  bad := match p.bad, f with
    | none, .poison => some i
    | none, .poisonAt k => some k
    | some b, .poisonAt k => some (min b k)
    | b, _ => b

/-- Every EMPTY element of a vector register given its chance, in ascending order (R133). -/
def VReg.pass (r : VReg) (w : Nat) (f : Nat → Fired) : Pass VReg :=
  (List.range (16384 / w)).foldl (fun p i =>
    if r.get w i = .empty then p.step (fun r i e => r.put w i e) i (f i) else p) ⟨r, false, none, none⟩

/-- Every EMPTY bit of a mask register given its chance, in ascending order. -/
def QReg.pass (r : QReg) (f : Nat → Fired) : Pass QReg :=
  (List.range 2048).foldl (fun p i =>
    if r.get i = .empty then p.step (fun r i e => r.put i e) i (f i) else p) ⟨r, false, none, none⟩

/-- The memory-error trap of POISON consumed (R136). -/
def poisonTrap (i : Nat) : Trap := { cause := 9, info := 1, elem := some i }

/-- The lower of two traps by their elements. -/
def lowerTrap (a b : Option Trap) : Option Trap :=
  match a, b with
  | none, b => b
  | a, none => a
  | some x, some y => if x.elem.getD 0 ≤ y.elem.getD 0 then some x else some y

/-- An entry after a pass over one of its destinations: what it lacks, and its traps. -/
def Entry.after {α : Type} (e : Entry) (p : Pass α) : Entry :=
  { e with flt := lowerTrap e.flt p.flt, bad := lowerTrap e.bad (p.bad.map poisonTrap), done := e.done && !p.open_ }

/-- The fresh register of a vector destination: EMPTY until its elements fire (R137). -/
def Entry.freshV (e : Entry) (n : Nat) : VReg := Tab.get VReg.fresh e.vd n

/-- The fresh register of a mask destination. -/
def Entry.freshQ (e : Entry) (n : Nat) : QReg := Tab.get QReg.fresh e.qd n

/-- One pass over vector destination `n` of an entry. `done` is false where an element is missing. -/
def Entry.passV (e : Entry) (n w : Nat) (f : Nat → Fired) : Entry :=
  let p := (e.freshV n).pass w f
  { e.after p with vd := Tab.put e.vd n p.reg }

/-- One pass over mask destination `n` of an entry. -/
def Entry.passQ (e : Entry) (n : Nat) (f : Nat → Fired) : Entry :=
  let p := (e.freshQ n).pass f
  { e.after p with qd := Tab.put e.qd n p.reg }

/-! ### Sources and masks -/

/-- A function of one source element (R36). -/
def fire1 (x : Elt) (f : Nat → Fired) : Fired :=
  match x with
  | .empty => .wait
  | .poison => .poison
  | .full a => f a

/-- A function of the source element at `j` that element `i` reads: the lower of them names the POISON (R136). -/
def fireAt (i j : Nat) (x : Elt) : Fired :=
  match x with
  | .empty => .wait
  | .poison => .poisonAt (min i j)
  | .full a => .val a

/-- A function of two source elements: POISON once both are ready and not both FULL (R36). -/
def fire2 (x y : Elt) (f : Nat → Nat → Fired) : Fired :=
  match x, y with
  | .empty, _ => .wait
  | _, .empty => .wait
  | .full a, .full b => f a b
  | _, _ => .poison

/-- A function of three source elements. -/
def fire3 (x y z : Elt) (f : Nat → Nat → Nat → Fired) : Fired :=
  match x, y, z with
  | .empty, _, _ => .wait
  | _, .empty, _ => .wait
  | _, _, .empty => .wait
  | .full a, .full b, .full c => f a b c
  | _, _, _ => .poison

/-- Element `i` under a mask, its policy and the length (R134, R135, R142): `old` is the destination's element
before the instruction. -/
def masked (m : Elt) (zero : Bool) (n i : Nat) (old : Elt) (body : Fired) : Fired :=
  if n ≤ i then .copy old
  else
    match m with
    | .empty => .wait
    | .poison => .poison
    | .full 0 => if zero then .val 0 else .copy old
    | .full _ => body

/-- The mask operand's bit `i`. -/
def State.mask (s : State) (older : List Entry) (v : VCtl) (i : Nat) : Elt := s.qbit older v.q.toNat i

/-- Whether the policy is zero (R38). -/
def zeroed (v : VCtl) : Bool := v.k == 1

/-- The names of a length register and a mask operand (R47, R81). -/
def vnames (v : VCtl) : List Name := .s (40 + v.ls.toNat) :: (if v.q = 0 then [] else [.q v.q.toNat])

/-- n ≤ VLMAX at the widest width (R134). -/
def lengthCheck (v : VCtl) (w : Nat) (s : State) : Option Trap :=
  require (decide (s.len v.ls ≤ vlmax w s.width)) { cause := 13 }

/-- A POISON source at an inactive element, or POISON that the keep policy copies (R325): `lat` gives the source
elements that element `i` would read. -/
def latentAt (s : State) (older : List Entry) (e : Entry) (v : VCtl) (lat : Nat → List Elt) (w : Nat) (old : VReg) : Bool :=
  (List.range (min e.n (16384 / w))).any fun i =>
    s.mask older v i == .full 0 && ((lat i).contains .poison || (!zeroed v && old.get w i == .poison))

/-- The error record of latent POISON, written once per instruction (R325). Which physical register it names
is the device's (log 18). -/
def State.noteLatent (s : State) (e : Entry) (found : Bool) : State :=
  if e.done && found then s.logErr 4 1 s.cur.core 0 s.cur.slot (Config.pick s.choice 128 % 128) s.me.asid 0 0 else s

/-! ### The common form (R141, R142) -/

/-- A vector instruction of one vector destination: width `w` of the destination, widest width `wide`, its vector
sources, and what element `i` reads of them; `body` is the active element's rule. -/
def shiftPlan (v : VCtl) (d : BitVec 6) (w wide : Nat) (srcs : List (BitVec 6))
    (lat : State → List Entry → Entry → Nat → List Elt) (body : State → List Entry → Entry → Nat → Fired) : Plan where
  lanes := true
  chk := true
  reads := vnames v ++ srcs.flatMap bname
  writes := [.v d.toNat]
  w := w
  len := some v.ls
  check := lengthCheck v wide
  fire := fun s older e =>
    let old := s.srcV older d.toNat
    let e1 := ({ e with done := true } : Entry).passV d.toNat w fun i =>
      masked (s.mask older v i) (zeroed v) e.n i (old.get w i) (body s older e i)
    (s.noteLatent e1 (latentAt s older e v (lat s older e) w old), e1)

/-- The same where element `i` reads element `i` of each source, at the width beside it. -/
def vecPlan (v : VCtl) (d : BitVec 6) (w wide : Nat) (srcs : List (BitVec 6 × Nat))
    (body : State → List Entry → Entry → Nat → Fired) : Plan :=
  { shiftPlan v d w wide (srcs.map Prod.fst) (fun s older e i => srcs.map fun x => s.elt older e x.1 x.2 i) body with
    widths := some (srcs.map Prod.snd) }

/-- A vector instruction of one mask destination (R144): bits under the mask and policy of R135. -/
def maskPlan (v : VCtl) (d : BitVec 6) (sw : Nat) (srcs : List (BitVec 6))
    (body : State → List Entry → Entry → Nat → Fired) : Plan where
  lanes := true
  chk := true
  widths := some [sw]
  reads := vnames v ++ srcs.flatMap bname
  writes := [.q d.toNat]
  w := sw
  len := some v.ls
  check := lengthCheck v sw
  fire := fun s older e =>
    let old := s.srcQ older d.toNat
    let e1 := ({ e with done := true } : Entry).passQ d.toNat fun i =>
      masked (s.mask older v i) (zeroed v) e.n i (old.get i) (body s older e i)
    (s.noteLatent e1 ((List.range (min e.n 2048)).any fun i =>
      s.mask older v i == .full 0 &&
        ((srcs.any fun x => s.elt older e x sw i == .poison) || (!zeroed v && old.get i == .poison))), e1)

/-- A vector instruction whose rule uses more than its own element (R133): `prep` is worked out once in a pass,
`rule` gives element `i` below n from it and from the destination's old element. `own` are the sources, with their
widths, of whose element `i` only an active element `i` makes use (R325). -/
def rulePlan {α : Type} (v : VCtl) (d : BitVec 6) (w wide : Nat) (srcs : List (BitVec 6)) (own : List (BitVec 6 × Nat))
    (prep : State → List Entry → Entry → α) (rule : State → List Entry → Entry → α → Nat → Elt → Fired) : Plan where
  lanes := true
  chk := true
  reads := vnames v ++ srcs.flatMap bname
  writes := [.v d.toNat]
  w := w
  len := some v.ls
  check := lengthCheck v wide
  fire := fun s older e =>
    let old := s.srcV older d.toNat
    let a := prep s older e
    let e1 := ({ e with done := true } : Entry).passV d.toNat w fun i =>
      if e.n ≤ i then .copy (old.get w i) else rule s older e a i (old.get w i)
    (s.noteLatent e1 (latentAt s older e v (fun i => own.map fun x => s.elt older e x.1 x.2 i) w old), e1)

/-- An element-wise function of one source. -/
def vec1 (v : VCtl) (d a : BitVec 6) (w : Nat) (f : Nat → Nat) : Plan :=
  vecPlan v d w w [(a, w)] fun s older e i => fire1 (s.elt older e a w i) fun x => .val (f x)

/-- An element-wise function of two sources. -/
def vec2 (v : VCtl) (d a b : BitVec 6) (w : Nat) (f : Nat → Nat → Nat) : Plan :=
  vecPlan v d w w [(a, w), (b, w)] fun s older e i =>
    fire2 (s.elt older e a w i) (s.elt older e b w i) fun x y => .val (f x y)

/-- An element-wise relation of two sources, into a mask. -/
def cmp2 (v : VCtl) (d a b : BitVec 6) (w : Nat) (f : Nat → Nat → Bool) : Plan :=
  maskPlan v d w [a, b] fun s older e i =>
    fire2 (s.elt older e a w i) (s.elt older e b w i) fun x y => .val (if f x y then 1 else 0)

/-- The exact integer that an element of a type holds. -/
def tyInt (t : Ty) (x : Nat) : Int := if t.isSigned then toSigned t.width x else (x : Int)

/-- An exact integer written in a type: clamped under `.sat`, else wrapped (R142). -/
def tyPut (t : Ty) (sat : Bool) (i : Int) : Nat := intoInt t.width t.isSigned sat i

end Sys2Proof.Machine
end

