-- ==== Sys2Proof/Machine/Vector.lean ====
section
/-!
DEFINITION. The integer, mask, permute and bitmap vector instructions (07, R143–R150) and their compact
slots (R44).
-/

namespace Sys2Proof.Machine

/-! ### Integer and logic (R143) -/

/-- The high half of a product. -/
def mulHigh (t : Ty) (x y : Nat) : Nat := wrapInt t.width (tyInt t x * tyInt t y / 2 ^ t.width)
/-- A sum, difference or product at a type. -/
def intAdd (t : Ty) (sat : Bool) (x y : Nat) : Nat := tyPut t sat (tyInt t x + tyInt t y)
def intSub (t : Ty) (sat : Bool) (x y : Nat) : Nat := tyPut t sat (tyInt t x - tyInt t y)
def intMul (t : Ty) (sat : Bool) (x y : Nat) : Nat := tyPut t sat (tyInt t x * tyInt t y)
/-- The smaller and the larger, signed or unsigned by type. -/
def intMin (t : Ty) (x y : Nat) : Nat := if tyInt t x ≤ tyInt t y then x else y
def intMax (t : Ty) (x y : Nat) : Nat := if tyInt t y ≤ tyInt t x then x else y
/-- Shifts; the count is taken modulo the width, and the arithmetic shift ignores the type's signedness. -/
def shiftLeft (w x y : Nat) : Nat := x * 2 ^ (y % w) % 2 ^ w
def shiftRight (w x y : Nat) : Nat := x / 2 ^ (y % w)
def shiftArith (w x y : Nat) : Nat := wrapInt w (toSigned w x / 2 ^ (y % w))

def planVadd (v : VCtl) (d a b : BitVec 6) (ty : Ty) (sat : BitVec 1) : Plan := vec2 v d a b ty.width (intAdd ty (sat == 1))
def planVsub (v : VCtl) (d a b : BitVec 6) (ty : Ty) (sat : BitVec 1) : Plan := vec2 v d a b ty.width (intSub ty (sat == 1))
def planVmul (v : VCtl) (d a b : BitVec 6) (ty : Ty) (sat : BitVec 1) : Plan := vec2 v d a b ty.width (intMul ty (sat == 1))
def planVmulh (v : VCtl) (d a b : BitVec 6) (ty : Ty) : Plan := vec2 v d a b ty.width (mulHigh ty)
def planVmin (v : VCtl) (d a b : BitVec 6) (ty : Ty) : Plan := vec2 v d a b ty.width (intMin ty)
def planVmax (v : VCtl) (d a b : BitVec 6) (ty : Ty) : Plan := vec2 v d a b ty.width (intMax ty)
def planVand (v : VCtl) (d a b : BitVec 6) (ty : Ty) : Plan := vec2 v d a b ty.width fun x y => x &&& y
def planVor (v : VCtl) (d a b : BitVec 6) (ty : Ty) : Plan := vec2 v d a b ty.width fun x y => x ||| y
def planVxor (v : VCtl) (d a b : BitVec 6) (ty : Ty) : Plan := vec2 v d a b ty.width fun x y => x ^^^ y
def planVshl (v : VCtl) (d a b : BitVec 6) (ty : Ty) : Plan := vec2 v d a b ty.width (shiftLeft ty.width)
def planVshr (v : VCtl) (d a b : BitVec 6) (ty : Ty) : Plan := vec2 v d a b ty.width (shiftRight ty.width)
def planVsra (v : VCtl) (d a b : BitVec 6) (ty : Ty) : Plan := vec2 v d a b ty.width (shiftArith ty.width)

/-! ### Comparisons (R144) -/

def planVcmpEq (v : VCtl) (d a b : BitVec 6) (ty : Ty) : Plan := cmp2 v d a b ty.width fun x y => x == y
def planVcmpNe (v : VCtl) (d a b : BitVec 6) (ty : Ty) : Plan := cmp2 v d a b ty.width fun x y => x != y
def planVcmpLt (v : VCtl) (d a b : BitVec 6) (ty : Ty) : Plan := cmp2 v d a b ty.width fun x y => decide (tyInt ty x < tyInt ty y)
def planVcmpLe (v : VCtl) (d a b : BitVec 6) (ty : Ty) : Plan := cmp2 v d a b ty.width fun x y => decide (tyInt ty x ≤ tyInt ty y)

/-! ### Widening (R145) -/

/-- The widening factor F: 2 or 4. -/
def widening (wf : BitVec 2) : Nat := 2 ^ wf.toNat

/-- The value of a floating or integer element. -/
def tyVal (t : Ty) (x : Nat) : FVal := ((fmtOfTy t).decode x).getD .nan

/-- A widened result: exact or clamped integers, or one rounding to f32. -/
def widenPut (t : Ty) (wf : BitVec 2) (sat : Bool) (mode : Mode) (i : Int) (v : FVal) : Nat :=
  if t.isInt then intoInt (widening wf * t.width) t.isSigned sat i else (f32.round mode false v).code

def planVwadd (v : VCtl) (d a b : BitVec 6) (rm : Rm) (ty : Ty) (wf : BitVec 2) : Plan :=
  let wide := widening wf * ty.width
  vecPlan v d wide wide [(a, ty.width), (b, ty.width)] fun s older e i =>
    fire2 (s.elt older e a ty.width i) (s.elt older e b ty.width i) fun x y =>
      let mode := modeOf rm s.me.r.fctl
      .val (widenPut ty wf false mode (tyInt ty x + tyInt ty y) (FVal.add (mode == .rdn) (tyVal ty x) (tyVal ty y)))

def planVwmul (v : VCtl) (d a b : BitVec 6) (rm : Rm) (ty : Ty) (wf : BitVec 2) : Plan :=
  let wide := widening wf * ty.width
  vecPlan v d wide wide [(a, ty.width), (b, ty.width)] fun s older e i =>
    fire2 (s.elt older e a ty.width i) (s.elt older e b ty.width i) fun x y =>
      .val (widenPut ty wf false (modeOf rm s.me.r.fctl) (tyInt ty x * tyInt ty y) (FVal.mul (tyVal ty x) (tyVal ty y)))

def planVwmac (v : VCtl) (d a b : BitVec 6) (rm : Rm) (c : BitVec 6) (ty : Ty) (sat : BitVec 1) (wf : BitVec 2) : Plan :=
  let wide := widening wf * ty.width
  vecPlan v d wide wide [(a, ty.width), (b, ty.width), (c, wide)] fun s older e i =>
    fire3 (s.elt older e a ty.width i) (s.elt older e b ty.width i) (s.elt older e c wide i) fun x y z =>
      let mode := modeOf rm s.me.r.fctl
      let acc : Int := if ty.isSigned then toSigned wide z else (z : Int)
      .val (widenPut ty wf (sat == 1) mode (tyInt ty x * tyInt ty y + acc)
        (FVal.add (mode == .rdn) (FVal.mul (tyVal ty x) (tyVal ty y)) (f32.value z)))

/-! ### Moves, selects and permutes (R146, R147) -/

def planVmov (v : VCtl) (d a : BitVec 6) (ty : Ty) : Plan := vec1 v d a ty.width fun x => x

def planVid (v : VCtl) (d : BitVec 6) (ty : Ty) : Plan :=
  vecPlan v d ty.width ty.width [] fun _ _ _ i => .val (i % 2 ^ ty.width)

/-- An instruction whose q is a selector: it has no inactive element, so nothing of it is latent (R135, R325). -/
def selectPlan {α : Type} (v : VCtl) (d : BitVec 6) (w : Nat) (srcs : List (BitVec 6))
    (prep : State → List Entry → Entry → α) (rule : State → List Entry → Entry → α → Nat → Elt → Fired) : Plan :=
  { rulePlan v d w w srcs [] prep rule with
    fire := fun s older e =>
      let old := s.srcV older d.toNat
      let a := prep s older e
      (s, ({ e with done := true } : Entry).passV d.toNat w fun i =>
        if e.n ≤ i then .copy (old.get w i) else rule s older e a i (old.get w i)) }

/-- q is a selector: the mask bit chooses the source. -/
def planVsel (v : VCtl) (d a b : BitVec 6) (ty : Ty) : Plan :=
  { selectPlan v d ty.width [a, b] (fun _ _ _ => ()) fun s older e _ i _ =>
      fire1 (s.mask older v i) fun m => fire1 (s.elt older e (if m = 0 then b else a) ty.width i) fun x => .val x with
    widths := some [ty.width] }

/-- Element `j` of a source where it lies below n, else 0. -/
def pickElt (s : State) (older : List Entry) (e : Entry) (a : BitVec 6) (w j : Nat) : Elt :=
  if j < e.n then s.elt older e a w j else .full 0

def planVdup (v : VCtl) (d a b : BitVec 6) (ty : Ty) : Plan :=
  let p := shiftPlan v d ty.width ty.width [a] (fun s older e _ => [pickElt s older e a ty.width (e.arg b).toNat]) fun s older e i =>
    fireAt i (e.arg b).toNat (pickElt s older e a ty.width (e.arg b).toNat)
  { p with reads := p.reads ++ sname b }

/-- Element i of `vperm`'s index and of what it picks. -/
def permElts (s : State) (older : List Entry) (e : Entry) (a b : BitVec 6) (w i : Nat) : List Elt :=
  match s.elt older e b w i with
  | .full j => [pickElt s older e a w j]
  | x => [x]

def planVperm (v : VCtl) (d a b : BitVec 6) (ty : Ty) : Plan :=
  shiftPlan v d ty.width ty.width [a, b] (fun s older e i => permElts s older e a b ty.width i) fun s older e i =>
    fire1 (s.elt older e b ty.width i) fun j => fireAt i j (pickElt s older e a ty.width j)

/-- Which element `vslup` reads for element i: one of the source, or the destination's old one. -/
def slidFrom (e : Entry) (b : BitVec 6) (i : Nat) : Nat := if (e.arg b).toNat ≤ i then i - (e.arg b).toNat else i

/-- What element i of `vslup` takes. -/
def slidElt (s : State) (older : List Entry) (e : Entry) (d a b : BitVec 6) (w i : Nat) : Elt :=
  if (e.arg b).toNat ≤ i then s.elt older e a w (slidFrom e b i) else (s.srcV older d.toNat).get w i

def planVslup (v : VCtl) (d a b : BitVec 6) (ty : Ty) : Plan :=
  let p := shiftPlan v d ty.width ty.width [a] (fun s older e i => [slidElt s older e d a b ty.width i]) fun s older e i =>
    fireAt i (slidFrom e b i) (slidElt s older e d a b ty.width i)
  { p with reads := p.reads ++ sname b }

def planVsldn (v : VCtl) (d a b : BitVec 6) (ty : Ty) : Plan :=
  let at_ := fun (s : State) (older : List Entry) (e : Entry) (i : Nat) => pickElt s older e a ty.width (i + (e.arg b).toNat)
  let p := shiftPlan v d ty.width ty.width [a] (fun s older e i => [at_ s older e i]) fun s older e i =>
    fireAt i (i + (e.arg b).toNat) (at_ s older e i)
  { p with reads := p.reads ++ sname b }

/-- What the packed elements of `vcmprs` are, and what stands after them: positions of set selector bits in
order, until a bit that is not ready or is POISON. POISON names the element that was read (R136). -/
def packed (s : State) (older : List Entry) (e : Entry) (v : VCtl) (a : BitVec 6) (w : Nat) :
    (todo : Nat) → (i : Nat) → List Fired × Fired
  | 0, _ => ([], .val 0)
  | todo + 1, i =>
    match s.mask older v i with
    | .empty => ([], .wait)
    | .poison => ([], .poisonAt i)
    | .full 0 => packed s older e v a w todo (i + 1)
    | .full _ =>
      let (l, z) := packed s older e v a w todo (i + 1)
      ((match s.elt older e a w i with
        | .poison => Fired.poisonAt i
        | x => fire1 x fun y => .val y) :: l, z)

/-- q is a selector (R147). -/
def planVcmprs (v : VCtl) (d a : BitVec 6) (ty : Ty) : Plan :=
  selectPlan v d ty.width [a] (fun s older e => packed s older e v a ty.width e.n 0)
    fun _ _ _ p i _ => p.1.getD i p.2

/-- What a left-to-right walk over elements or mask bits knows below a position: a count, the lowest element that it
read as POISON, or not yet. -/
inductive Known where
  | count (n : Nat) | poison (i : Nat) | wait
deriving DecidableEq, Repr

/-- The number of set mask bits below each position (R147). -/
def ranks (s : State) (older : List Entry) (v : VCtl) : (todo : Nat) → (i : Nat) → Known → List Known
  | 0, _, _ => []
  | todo + 1, i, k =>
    let next := match k, s.mask older v i with
      | .wait, _ => Known.wait
      | _, .empty => .wait
      | .poison k, _ => .poison k
      | _, .poison => .poison i
      | .count n, .full m => .count (if m = 0 then n else n + 1)
    k :: ranks s older v todo (i + 1) next

def planVexpnd (v : VCtl) (d a : BitVec 6) (ty : Ty) : Plan :=
  rulePlan v d ty.width ty.width [a] [] (fun s older e => ranks s older v e.n 0 (.count 0))
    fun s older e ks i old =>
      masked (s.mask older v i) (zeroed v) e.n i old
        (match ks.getD i .wait with
          | .wait => .wait
          | .poison k => .poisonAt k
          | .count r => fireAt i r (s.elt older e a ty.width r))

/-! ### Mask operations (R148) -/

/-- A mask operation without a mask of its own: bits at and above n keep the old ones (R134). -/
def qPlan (v : VCtl) (d : BitVec 6) (srcs : List (BitVec 6)) (body : State → List Entry → Nat → Fired) : Plan where
  lanes := true
  chk := true
  reads := vnames v ++ srcs.flatMap fun x => if x = 0 then [] else [.q x.toNat]
  writes := [.q d.toNat]
  len := some v.ls
  check := lengthCheck v 8
  fire := fun s older e =>
    let old := s.srcQ older d.toNat
    (s, ({ e with done := true } : Entry).passQ d.toNat fun i =>
      if e.n ≤ i then .copy (old.get i) else body s older i)

/-- A bitwise mask operation of two sources. -/
def q2 (v : VCtl) (d a b : BitVec 6) (f : Nat → Nat → Nat) : Plan :=
  qPlan v d [a, b] fun s older i =>
    fire2 (s.qbit older a.toNat i) (s.qbit older b.toNat i) fun x y => .val (f x y)

def planQand (v : VCtl) (d a b : BitVec 6) : Plan := q2 v d a b fun x y => x &&& y
def planQor (v : VCtl) (d a b : BitVec 6) : Plan := q2 v d a b fun x y => x ||| y
def planQxor (v : VCtl) (d a b : BitVec 6) : Plan := q2 v d a b fun x y => x ^^^ y
def planQnot (v : VCtl) (d a : BitVec 6) : Plan :=
  qPlan v d [a] fun s older i => fire1 (s.qbit older a.toNat i) fun x => .val (1 - x)

/-- What a scalar read of a mask comes to. -/
inductive Count where
  | wait
  | poison (i : Nat)
  | val (v : Nat)

/-- The number of set bits below n, once all are ready. -/
def countBits (s : State) (older : List Entry) (q : Nat) : (todo : Nat) → (i : Nat) → Count
  | 0, _ => .val 0
  | todo + 1, i =>
    match s.qbit older q i with
    | .empty => .wait
    | .poison => .poison i
    | .full m =>
      match countBits s older q todo (i + 1) with
      | .val c => .val (c + m)
      | r => r

/-- The lowest set bit below n, or 2^64 − 1. -/
def firstBit (s : State) (older : List Entry) (q : Nat) : (todo : Nat) → (i : Nat) → Count
  | 0, _ => .val (2 ^ 64 - 1)
  | todo + 1, i =>
    match s.qbit older q i with
    | .empty => .wait
    | .poison => .poison i
    | .full m => if m = 0 then firstBit s older q todo (i + 1) else .val i

/-- Every older checked instruction has been found to agree. What vector elements give to a scalar register, to memory or
to another agent cannot fire again (R329): it waits for this (log 103). -/
def settledFor (older : List Entry) : Bool := older.all Entry.agreed

/-- A scalar result of a mask: POISON gives no result but a trap (R148). -/
def countPlan (v : VCtl) (d a : BitVec 6) (f : State → List Entry → Entry → Count) : Plan where
  lanes := true
  chk := true
  reads := vnames v ++ (if a = 0 then [] else [.q a.toNat])
  writes := sname d
  len := some v.ls
  check := lengthCheck v 8
  fire := fun s older e =>
    match f s older e with
    | .wait => (s, e)
    | .poison i => (s, { e with flt := some (poisonTrap i) })
    | .val x => if settledFor older then (s.setVal d (BitVec.ofNat 64 x), { e with done := true, pend := [], res := BitVec.ofNat 64 x }) else (s, e)

def planQpopc (v : VCtl) (d a : BitVec 6) : Plan := countPlan v d a fun s older e => countBits s older a.toNat e.n 0
def planQfirst (v : VCtl) (d a : BitVec 6) : Plan := countPlan v d a fun s older e => firstBit s older a.toNat e.n 0

/-! ### Bitmap words (R149) -/

def planVbmand (v : VCtl) (d a b : BitVec 6) (ty : Ty) : Plan :=
  vec2 v d a b ty.width fun x y => popBits (x &&& y) ty.width % 2 ^ ty.width

/-- The sum over active elements below each position of a function of them (R149). -/
def sums (s : State) (older : List Entry) (e : Entry) (v : VCtl) (a : BitVec 6) (w : Nat) (f : Nat → Nat) :
    (todo : Nat) → (i : Nat) → Known → List Known
  | 0, _, _ => []
  | todo + 1, i, k =>
    let next := match k, s.mask older v i, s.elt older e a w i with
      | .wait, _, _ => Known.wait
      | _, .empty, _ => .wait
      | _, _, .empty => .wait
      | .poison k, _, _ => .poison k
      | _, .poison, _ => .poison i
      | .count n, .full m, x =>
        if m = 0 then .count n
        else match x with
          | .full y => .count (n + f y)
          | _ => .poison i
    k :: sums s older e v a w f todo (i + 1) next

/-- A running value as an element. -/
def Known.fired (k : Known) (f : Nat → Nat) : Fired :=
  match k with
  | .wait => .wait
  | .poison k => .poisonAt k
  | .count n => .val (f n)

def planVbpfx (v : VCtl) (d a : BitVec 6) (ty : Ty) : Plan :=
  rulePlan v d ty.width ty.width [a] [(a, ty.width)]
    (fun s older e => sums s older e v a ty.width (fun x => popBits x ty.width) e.n 0 (.count 0))
    fun s older e ks i old =>
      masked (s.mask older v i) (zeroed v) e.n i old ((ks.getD i .wait).fired fun n => n % 2 ^ ty.width)

/-- The elements of a source below n: none while one is not ready, and whether one is POISON. -/
def allElts (s : State) (older : List Entry) (e : Entry) (a : BitVec 6) (w : Nat) : List Elt :=
  (List.range e.n).map fun i => s.elt older e a w i

/-- A search for element `i` of `a` over every element of `b` below n (R149). -/
def search (bs : List Elt) (w i : Nat) (x : Elt) : Fired :=
  if x = .empty || bs.any fun b => b == .empty then .wait
  else
    match bs.findIdx? fun b => b == .poison with
    | some j => .poisonAt (min i j)
    | none =>
      fire1 x fun x =>
        match bs.findIdx? fun b => b == .full x with
        | some j => .val (j % 2 ^ w)
        | none => .val (2 ^ w - 1)

def planVxsect (v : VCtl) (d a b : BitVec 6) (ty : Ty) : Plan :=
  rulePlan v d ty.width ty.width [a, b] [(a, ty.width)] (fun s older e => allElts s older e b ty.width)
    fun s older e bs i old =>
      masked (s.mask older v i) (zeroed v) e.n i old (search bs ty.width i (s.elt older e a ty.width i))

/-! ### Conflict detection (R150) -/

/-- What the elements at and below each position tell: for an active element its leader, or the lowest element read as
POISON. -/
inductive Lead where
  | wait | poison (i : Nat) | inactive | leader (l : Nat)
deriving DecidableEq, Repr

/-- The leaders in ascending order; `seen` holds the values of active elements with their leaders, and `k` what the
elements below tell: an active element waits, or is POISON, with any of them. An inactive element needs only its own
mask bit. -/
def leaders (s : State) (older : List Entry) (e : Entry) (v : VCtl) (a : BitVec 6) (w : Nat) :
    (todo : Nat) → (i : Nat) → (seen : List (Nat × Nat)) → (k : Lead) → List Lead
  | 0, _, _, _ => []
  | todo + 1, i, seen, k =>
    let m := s.mask older v i
    let here : Lead := match k, m, s.elt older e a w i with
      | .wait, _, _ => .wait
      | _, .empty, _ => .wait
      | _, _, .empty => .wait
      | .poison k, _, _ => .poison k
      | _, .poison, _ => .poison i
      | _, .full 0, _ => .inactive
      | _, .full _, .poison => .poison i
      | _, .full _, .full x => .leader (((seen.find? fun p => p.1 == x).map Prod.snd).getD i)
    let seen := match here, s.elt older e a w i with
      | .leader l, .full x => if l = i then (x, i) :: seen else seen
      | _, _ => seen
    (if m = .full 0 then .inactive else here) :: leaders s older e v a w todo (i + 1) seen here

/-- `vconf`: leaders into d, and where they differ from the element into qe (R150). -/
def planVconf (v : VCtl) (d a : BitVec 6) (ty : Ty) (qe : BitVec 3) : Plan where
  lanes := true
  chk := true
  reads := vnames v ++ bname a
  writes := .v d.toNat :: (if qe = 0 then [] else [.q qe.toNat])
  w := ty.width
  len := some v.ls
  check := lengthCheck v ty.width
  fire := fun s older e =>
    let w := ty.width
    let ls := leaders s older e v a w e.n 0 [] .inactive
    let old := s.srcV older d.toNat
    let e1 := ({ e with done := true } : Entry).passV d.toNat w fun i =>
      if e.n ≤ i then .copy (old.get w i)
      else
        match ls.getD i .wait with
        | .wait => .wait
        | .poison k => .poisonAt k
        | .inactive => if zeroed v then .val 0 else .copy (old.get w i)
        | .leader l => .val (l % 2 ^ w)
    let e2 := if qe = 0 then e1 else
      let oldQ := s.srcQ older qe.toNat
      e1.passQ qe.toNat fun i =>
        if e.n ≤ i then .copy (oldQ.get i)
        else
          match ls.getD i .wait with
          | .wait => .wait
          | .poison k => .poisonAt k
          | .inactive => .val 0
          | .leader l => .val (if l = i then 1 else 0)
    (s.noteLatent e2 (latentAt s older e v (fun i => [s.elt older e a w i]) w old), e2)

/-! ### Compact vector slots (R43, R44): length g8, no mask, i32 -/

/-- The fields of a compact vector slot (R43). -/
def slotCtl : VCtl := ⟨0, 0, 0⟩

/-- A compact vector operation: d is the destination and the first source; an immediate is broadcast as i32. -/
def compactVec (d : BitVec 5) (o : CArg) (f : Nat → Nat → Nat) : Plan :=
  match o with
  | .reg a => vec2 slotCtl (slotReg d) (slotReg d) (slotReg a) 32 f
  | .imm x => vec1 slotCtl (slotReg d) (slotReg d) 32 fun y => f y (wrapInt 32 x.toInt)

def planVaddC (d : BitVec 5) (o : CArg) : Plan := compactVec d o (intAdd .i32 false)
def planVsubC (d : BitVec 5) (o : CArg) : Plan := compactVec d o (intSub .i32 false)
def planVmulC (d : BitVec 5) (o : CArg) : Plan := compactVec d o (intMul .i32 false)
def planVandC (d : BitVec 5) (o : CArg) : Plan := compactVec d o fun x y => x &&& y
def planVorC (d : BitVec 5) (o : CArg) : Plan := compactVec d o fun x y => x ||| y
def planVxorC (d : BitVec 5) (o : CArg) : Plan := compactVec d o fun x y => x ^^^ y
def planVshlC (d : BitVec 5) (o : CArg) : Plan := compactVec d o (shiftLeft 32)
def planVshrC (d : BitVec 5) (o : CArg) : Plan := compactVec d o (shiftRight 32)
def planVsraC (d : BitVec 5) (o : CArg) : Plan := compactVec d o (shiftArith 32)
def planVminC (d : BitVec 5) (o : CArg) : Plan := compactVec d o (intMin .i32)
def planVmaxC (d : BitVec 5) (o : CArg) : Plan := compactVec d o (intMax .i32)

end Sys2Proof.Machine
end

