-- ==== Sys2Proof/Machine/Float.lean ====
section
/-!
DEFINITION. Floating-point vector arithmetic, transcendentals, reductions and scans (07, R151–R153), with
their compact slots (R44). Each result is computed exactly, or to more bits than any rounding looks at with
a sticky bit, and rounded once.
-/

namespace Sys2Proof.Machine

/-- The floating format of a type of op 0x40–0x46. -/
def tyFmt (t : Ty) : FFmt :=
  match fmtOfTy t with
  | .flt f => f
  | .e8m0 => f32
  | .int _ _ => f32

/-- A value rounded to a type, overflow by the rounding mode (R151). -/
def tyRound (t : Ty) (mode : Mode) (v : FVal) : Nat := ((tyFmt t).round mode false v).code

/-! ### Element functions -/

def feAdd (t : Ty) (m : Mode) (x y : Nat) : Nat := tyRound t m (FVal.add (m == .rdn) (tyVal t x) (tyVal t y))
def feSub (t : Ty) (m : Mode) (x y : Nat) : Nat := tyRound t m (FVal.add (m == .rdn) (tyVal t x) (tyVal t y).neg)
def feMul (t : Ty) (m : Mode) (x y : Nat) : Nat := tyRound t m (FVal.mul (tyVal t x) (tyVal t y))
def feDiv (t : Ty) (m : Mode) (x y : Nat) : Nat := tyRound t m (FVal.div (tyVal t x) (tyVal t y))
def feSqrt (t : Ty) (m : Mode) (x : Nat) : Nat := tyRound t m (FVal.sqrt (tyVal t x))
def feRcp (t : Ty) (m : Mode) (x : Nat) : Nat := tyRound t m (FVal.div (.num false 1 0) (tyVal t x))

/-- The order of minima and maxima, with −0 < +0 (R151). -/
def fePrec (a b : FVal) : Bool :=
  match FVal.cmp a b with
  | some .lt => true
  | some .gt => false
  | _ =>
    match a, b with
    | .num s _ _, .num t _ _ => s && !t
    | _, _ => false

/-- `vfmin`: one NaN gives the other operand, two the canonical NaN. -/
def feMin (t : Ty) (x y : Nat) : Nat :=
  if (tyVal t x).isNan then (if (tyVal t y).isNan then (tyFmt t).nanCode else y)
  else if (tyVal t y).isNan then x
  else if fePrec (tyVal t y) (tyVal t x) then y else x

/-- `vfmax`. -/
def feMax (t : Ty) (x y : Nat) : Nat :=
  if (tyVal t x).isNan then (if (tyVal t y).isNan then (tyFmt t).nanCode else y)
  else if (tyVal t y).isNan then x
  else if fePrec (tyVal t x) (tyVal t y) then y else x

/-- a × b + c with one rounding. -/
def feFma (t : Ty) (m : Mode) (p c : FVal) : Nat := tyRound t m (FVal.add (m == .rdn) p c)

/-- 1 ÷ √a, to more bits than any format keeps, with a sticky bit (R151). -/
def rsqrtVal (v : FVal) : FVal :=
  match v with
  | .nan => .nan
  | .inf s => if s then .nan else .num false 0 0
  | .num s m e =>
    if m = 0 then .inf s
    else if s then .nan
    else
      let (m, e) := if e % 2 = 0 then (m, e) else (2 * m, e - 1)
      let k := Nat.log2 m + 70
      let q := isqrt (2 ^ (2 * k) / m) (2 * k) 0
      .num false (sticky q (q * q * m != 2 ^ (2 * k))) (-(e / 2) - (k : Int) - 1)

def feRsqrt (t : Ty) (m : Mode) (x : Nat) : Nat := tyRound t m (rsqrtVal (tyVal t x))

/-- How many bits after the point the powers of two below keep. -/
def exp2Bits : Nat := 256

/-- 2^(2^-i) for i = 1, 2, …, `n` of them, from the root before. -/
def exp2Roots : (n : Nat) → (prev : Nat) → List Nat
  | 0, _ => []
  | n + 1, prev =>
    let r := isqrt (prev * 2 ^ exp2Bits) (exp2Bits + 1) 0
    r :: exp2Roots n r

/-- The roots for 64 bits after the point. -/
def exp2Table : List Nat := exp2Roots 64 (2 ^ (exp2Bits + 1))

/-- 2^f for the fraction f = n / 2^64, cut off after its bits: the product of the roots of its set bits. -/
def exp2Frac (n : Nat) : List Nat → (i : Nat) → (acc : Nat) → Nat
  | [], _, acc => acc
  | r :: rs, i, acc => exp2Frac n rs (i + 1) (if n.testBit (63 - i) then acc * r / 2 ^ exp2Bits else acc)

/-- 2^a (R151). An integer power is exact; near 0 the value is 1 and a little more or less; else the power is
worked out to 256 bits and lies strictly between two of them, which no rounding boundary of a format with 24
bits or fewer splits. -/
def exp2Val (v : FVal) : FVal :=
  match v with
  | .nan => .nan
  | .inf s => if s then .num false 0 0 else .inf false
  | .num s m e =>
    if m = 0 then .num false 1 0
    else if 12 ≤ (Nat.log2 m : Int) + e then .num false 1 (if s then -4096 else 4096)
    else if (Nat.log2 m : Int) + e < -40 then .num false (if s then 2 ^ 100 - 1 else 2 ^ 100 + 1) (-100)
    else
      let whole := scaled s (m * 2 ^ (e + 64).toNat) 0 0
      let i := whole / 2 ^ 64
      let f := (whole % 2 ^ 64).toNat
      if f = 0 then .num false 1 i
      else .num false (sticky (exp2Frac f exp2Table 0 (2 ^ exp2Bits)) true) (i - (exp2Bits : Int) - 1)

def feExp2 (t : Ty) (m : Mode) (x : Nat) : Nat := tyRound t m (exp2Val (tyVal t x))

/-! ### Plans (R151) -/

/-- A rounded function of one source. -/
def fe1 (v : VCtl) (d a : BitVec 6) (rm : Rm) (ty : Ty) (f : Ty → Mode → Nat → Nat) : Plan :=
  vecPlan v d ty.width ty.width [(a, ty.width)] fun s older e i =>
    fire1 (s.elt older e a ty.width i) fun x => .val (f ty (modeOf rm s.me.r.fctl) x)

/-- A rounded function of two sources. -/
def fe2 (v : VCtl) (d a b : BitVec 6) (rm : Rm) (ty : Ty) (f : Ty → Mode → Nat → Nat → Nat) : Plan :=
  vecPlan v d ty.width ty.width [(a, ty.width), (b, ty.width)] fun s older e i =>
    fire2 (s.elt older e a ty.width i) (s.elt older e b ty.width i) fun x y => .val (f ty (modeOf rm s.me.r.fctl) x y)

/-- A fused multiply-add whose product and addend take signs. -/
def fe3 (v : VCtl) (d a b c : BitVec 6) (rm : Rm) (ty : Ty) (negP negC : Bool) : Plan :=
  vecPlan v d ty.width ty.width [(a, ty.width), (b, ty.width), (c, ty.width)] fun s older e i =>
    fire3 (s.elt older e a ty.width i) (s.elt older e b ty.width i) (s.elt older e c ty.width i) fun x y z =>
      let p := FVal.mul (tyVal ty x) (tyVal ty y)
      let c := tyVal ty z
      .val (feFma ty (modeOf rm s.me.r.fctl) (if negP then p.neg else p) (if negC then c.neg else c))

def planVfadd (v : VCtl) (d a b : BitVec 6) (rm : Rm) (ty : Ty) : Plan := fe2 v d a b rm ty feAdd
def planVfsub (v : VCtl) (d a b : BitVec 6) (rm : Rm) (ty : Ty) : Plan := fe2 v d a b rm ty feSub
def planVfmul (v : VCtl) (d a b : BitVec 6) (rm : Rm) (ty : Ty) : Plan := fe2 v d a b rm ty feMul
def planVfdiv (v : VCtl) (d a b : BitVec 6) (rm : Rm) (ty : Ty) : Plan := fe2 v d a b rm ty feDiv
def planVfmin (v : VCtl) (d a b : BitVec 6) (ty : Ty) : Plan := vec2 v d a b ty.width (feMin ty)
def planVfmax (v : VCtl) (d a b : BitVec 6) (ty : Ty) : Plan := vec2 v d a b ty.width (feMax ty)
def planVfma (v : VCtl) (d a b : BitVec 6) (rm : Rm) (c : BitVec 6) (ty : Ty) : Plan := fe3 v d a b c rm ty false false
def planVfms (v : VCtl) (d a b : BitVec 6) (rm : Rm) (c : BitVec 6) (ty : Ty) : Plan := fe3 v d a b c rm ty false true
def planVfnma (v : VCtl) (d a b : BitVec 6) (rm : Rm) (c : BitVec 6) (ty : Ty) : Plan := fe3 v d a b c rm ty true false
def planVfsqrt (v : VCtl) (d a : BitVec 6) (rm : Rm) (ty : Ty) : Plan := fe1 v d a rm ty feSqrt
def planVrcp (v : VCtl) (d a : BitVec 6) (rm : Rm) (ty : Ty) : Plan := fe1 v d a rm ty feRcp
def planVrsqrt (v : VCtl) (d a : BitVec 6) (rm : Rm) (ty : Ty) : Plan := fe1 v d a rm ty feRsqrt
def planVexp2 (v : VCtl) (d a : BitVec 6) (rm : Rm) (ty : Ty) : Plan := fe1 v d a rm ty feExp2
def planVfcmpEq (v : VCtl) (d a b : BitVec 6) (ty : Ty) : Plan :=
  cmp2 v d a b ty.width fun x y => FRel.eq.holds (FVal.cmp (tyVal ty x) (tyVal ty y))
def planVfcmpLt (v : VCtl) (d a b : BitVec 6) (ty : Ty) : Plan :=
  cmp2 v d a b ty.width fun x y => FRel.lt.holds (FVal.cmp (tyVal ty x) (tyVal ty y))
def planVfcmpLe (v : VCtl) (d a b : BitVec 6) (ty : Ty) : Plan :=
  cmp2 v d a b ty.width fun x y => FRel.le.holds (FVal.cmp (tyVal ty x) (tyVal ty y))
def planVfcmpUn (v : VCtl) (d a b : BitVec 6) (ty : Ty) : Plan :=
  cmp2 v d a b ty.width fun x y => FRel.un.holds (FVal.cmp (tyVal ty x) (tyVal ty y))

/-! ### Reductions and scans (R152, R153) -/

/-- What combines two elements of a reduction. -/
inductive RedOp where
  | add | min | max | and | or | xor
deriving DecidableEq, Repr

/-- One combination (R152). -/
def RedOp.apply (o : RedOp) (t : Ty) (sat : Bool) (mode : Mode) (x y : Nat) : Nat :=
  match o with
  | .add => if t.isInt then intAdd t sat x y else feAdd t mode x y
  | .min => if t.isInt then intMin t x y else feMin t x y
  | .max => if t.isInt then intMax t x y else feMax t x y
  | .and => x &&& y
  | .or => x ||| y
  | .xor => x ^^^ y

/-- Running values of a fold over active elements from `acc` on: at each position what it is after the element
there. A scan needs every element below (`all`), a reduction the active ones (R152). -/
def running (s : State) (older : List Entry) (e : Entry) (v : VCtl) (a : BitVec 6) (w : Nat) (all : Bool) (f : Nat → Nat → Nat) :
    (todo : Nat) → (i : Nat) → Known → List Known
  | 0, _, _ => []
  | todo + 1, i, k =>
    let x := s.elt older e a w i
    let next := match k, s.mask older v i with
      | .wait, _ => Known.wait
      | _, .empty => .wait
      | k, .full 0 => if all && x == .empty then .wait else k
      | k, m =>
        match x, k, m with
        | .empty, _, _ => .wait
        | .full x, .count n, .full _ => .count (f n x)
        | _, .poison j, _ => .poison j
        | _, _, _ => .poison i
    next :: running s older e v a w all f todo (i + 1) next

/-- A source's element 0 as the start of a fold. -/
def Elt.known (x : Elt) : Known :=
  match x with
  | .empty => .wait
  | .poison => .poison 0
  | .full v => .count v

/-- A result in element 0 alone, whatever n holds (R152): the other elements keep their old ones. -/
def firstPlan (v : VCtl) (d a b : BitVec 6) (w : Nat) (result : State → List Entry → Entry → Known) : Plan where
  lanes := true
  chk := true
  reads := vnames v ++ bname a ++ bname b
  writes := [.v d.toNat]
  w := w
  len := some v.ls
  check := lengthCheck v w
  fire := fun s older e =>
    let old := s.srcV older d.toNat
    let e1 := ({ e with done := true } : Entry).passV d.toNat w fun i =>
      if i = 0 then
        (match result s older e with
          | .wait => .wait
          | .poison k => .poisonAt k
          | .count x => .val x)
      else .copy (old.get w i)
    (s.noteLatent e1 ((List.range e.n).any fun i => s.mask older v i == .full 0 && s.elt older e a w i == .poison), e1)

/-- `vredo`: in ascending order. -/
def redoPlan (v : VCtl) (d a b : BitVec 6) (rm : Rm) (ty : Ty) (sat : Bool) (o : RedOp) : Plan :=
  firstPlan v d a b ty.width fun s older e =>
    let acc := (s.elt older e b ty.width 0).known
    ((acc :: running s older e v a ty.width false (o.apply ty sat (modeOf rm s.me.r.fctl)) e.n 0 acc).getLast?).getD acc

/-- One round of the tree: neighbours combined, an odd one carried (R152). -/
def pairUp (f : Nat → Nat → Nat) : List (Option Nat) → List (Option Nat)
  | [] => []
  | [x] => [x]
  | x :: y :: r =>
    (match x, y with
      | some a, some b => some (f a b)
      | some a, none => some a
      | none, y => y) :: pairUp f r

/-- Rounds until one remains. -/
def treeFold (f : Nat → Nat → Nat) : (fuel : Nat) → List (Option Nat) → Option Nat
  | 0, l => l.headD none
  | fuel + 1, l => if l.length ≤ 1 then l.headD none else treeFold f fuel (pairUp f l)

/-- `vredt`: in a tree; what it reads becomes ready as for `vredo`. -/
def redtPlan (v : VCtl) (d a b : BitVec 6) (rm : Rm) (ty : Ty) (sat : Bool) (o : RedOp) : Plan :=
  firstPlan v d a b ty.width fun s older e =>
    let f := o.apply ty sat (modeOf rm s.me.r.fctl)
    let acc := (s.elt older e b ty.width 0).known
    match ((acc :: running s older e v a ty.width false (fun n _ => n) e.n 0 acc).getLast?).getD acc with
    | .wait => .wait
    | .poison k => .poison k
    | .count x =>
      let items := (List.range e.n).map fun i =>
        match s.mask older v i, s.elt older e a ty.width i with
        | .full 0, _ => none
        | .full _, .full y => some y
        | _, _ => none
      match treeFold f 12 items with
      | none => .count x
      | some y => .count (f x y)

/-- `vscan`: every active element takes the running value. -/
def scanPlan (v : VCtl) (d a b : BitVec 6) (rm : Rm) (ty : Ty) (sat : Bool) (o : RedOp) : Plan :=
  rulePlan v d ty.width ty.width [a, b] [(a, ty.width)]
    (fun s older e => running s older e v a ty.width true (o.apply ty sat (modeOf rm s.me.r.fctl)) e.n 0
      (s.elt older e b ty.width 0).known)
    fun s older e ks i old =>
      masked (s.mask older v i) (zeroed v) e.n i old ((ks.getD i .wait).fired id)

def planVredoAdd (v : VCtl) (d a b : BitVec 6) (rm : Rm) (ty : Ty) (sat : BitVec 1) : Plan := redoPlan v d a b rm ty (sat == 1) .add
def planVredoMin (v : VCtl) (d a b : BitVec 6) (ty : Ty) : Plan := redoPlan v d a b .rne ty false .min
def planVredoMax (v : VCtl) (d a b : BitVec 6) (ty : Ty) : Plan := redoPlan v d a b .rne ty false .max
def planVredoAnd (v : VCtl) (d a b : BitVec 6) (ty : Ty) : Plan := redoPlan v d a b .rne ty false .and
def planVredoOr (v : VCtl) (d a b : BitVec 6) (ty : Ty) : Plan := redoPlan v d a b .rne ty false .or
def planVredoXor (v : VCtl) (d a b : BitVec 6) (ty : Ty) : Plan := redoPlan v d a b .rne ty false .xor
def planVredtAdd (v : VCtl) (d a b : BitVec 6) (rm : Rm) (ty : Ty) (sat : BitVec 1) : Plan := redtPlan v d a b rm ty (sat == 1) .add
def planVredtMin (v : VCtl) (d a b : BitVec 6) (ty : Ty) : Plan := redtPlan v d a b .rne ty false .min
def planVredtMax (v : VCtl) (d a b : BitVec 6) (ty : Ty) : Plan := redtPlan v d a b .rne ty false .max
def planVredtAnd (v : VCtl) (d a b : BitVec 6) (ty : Ty) : Plan := redtPlan v d a b .rne ty false .and
def planVredtOr (v : VCtl) (d a b : BitVec 6) (ty : Ty) : Plan := redtPlan v d a b .rne ty false .or
def planVredtXor (v : VCtl) (d a b : BitVec 6) (ty : Ty) : Plan := redtPlan v d a b .rne ty false .xor
def planVscanAdd (v : VCtl) (d a b : BitVec 6) (rm : Rm) (ty : Ty) (sat : BitVec 1) : Plan := scanPlan v d a b rm ty (sat == 1) .add
def planVscanMin (v : VCtl) (d a b : BitVec 6) (ty : Ty) : Plan := scanPlan v d a b .rne ty false .min
def planVscanMax (v : VCtl) (d a b : BitVec 6) (ty : Ty) : Plan := scanPlan v d a b .rne ty false .max
def planVscanAnd (v : VCtl) (d a b : BitVec 6) (ty : Ty) : Plan := scanPlan v d a b .rne ty false .and
def planVscanOr (v : VCtl) (d a b : BitVec 6) (ty : Ty) : Plan := scanPlan v d a b .rne ty false .or
def planVscanXor (v : VCtl) (d a b : BitVec 6) (ty : Ty) : Plan := scanPlan v d a b .rne ty false .xor

/-! ### Compact floating slots (R44): f32, round to nearest -/

def planVfaddC (d : BitVec 5) (o : CArg) : Plan := compactVec d o (feAdd .f32 .rne)
def planVfsubC (d : BitVec 5) (o : CArg) : Plan := compactVec d o (feSub .f32 .rne)
def planVfmulC (d : BitVec 5) (o : CArg) : Plan := compactVec d o (feMul .f32 .rne)
def planVfminC (d : BitVec 5) (o : CArg) : Plan := compactVec d o (feMin .f32)
def planVfmaxC (d : BitVec 5) (o : CArg) : Plan := compactVec d o (feMax .f32)

end Sys2Proof.Machine
end

