-- ==== Sys2Proof/Machine/Tensor.lean ====
section
/-!
DEFINITION. Tensor identifiers (08, R166–R170): the entry's fields, when a descriptor binds, the place of an
element by linear index or by coordinates, its block scale, and its decoded value.
-/

namespace Sys2Proof.Machine

/-- The fields of an entry (R167), with the record snapshot of R172. -/
structure Tid where
  base   : Word
  fcode  : Nat
  ndim   : Nat
  kax    : Nat
  bsen   : Bool
  bnd    : Bool
  ext    : Nat × Nat × Nat × Nat
  str1   : Int
  str2   : Int
  str3   : Int
  tscale : Nat
  sbase  : Word
  record : Word
deriving DecidableEq, Repr

/-- A dword of an entry. -/
def tdDword (x : BitVec 512) (k : Nat) : Word := x.extractLsb' (64 * k) 64

/-- The entry's fields. An extent above NDIM is read as 1 (R167). -/
def tidOf (x : BitVec 512) : Tid :=
  let w := tdDword x
  let f := w 1
  let ndim := field f 6 2
  let ext := fun k v => if k ≤ ndim then v else 1
  { base := w 0, fcode := field f 0 6, ndim := ndim, kax := field f 8 2, bsen := field f 10 1 == 1
    bnd := field f 11 1 == 1
    ext := (ext 0 (field (w 2) 0 32), ext 1 (field (w 2) 32 32), ext 2 (field (w 3) 0 32), ext 3 (field (w 3) 32 32))
    str1 := toSigned 32 (field (w 4) 0 32), str2 := toSigned 32 (field (w 4) 32 32)
    str3 := toSigned 32 (field (w 5) 0 32), tscale := field (w 5) 32 32
    sbase := w 6, record := w 7 }

/-- The format that a code names, with the record behind a record code (R40, R167). -/
def fmtOfCode (fcode : Nat) (record : Word) : Fmt :=
  if fcode < 16 then fmtOfTy (tyOfNat fcode) else if fcode = 16 then .e8m0 else .flt (fmtOfRecord record)

/-- The format of an identifier. -/
def Tid.fmt (t : Tid) : Fmt := fmtOfCode t.fcode t.record

/-- Whether a format is an integer type. -/
def Fmt.isInt (f : Fmt) : Bool :=
  match f with
  | .int _ _ => true
  | .flt _ => false
  | .e8m0 => false

/-- A descriptor binds (R168): its eight dwords, and the strand's records. -/
def descriptorOk (x : BitVec 512) (records : Tab Word) : Bool :=
  let w := tdDword x
  let t := tidOf x
  let rec_ := Tab.get 0 records (t.fcode - 32)
  let fmt := fmtOfCode t.fcode rec_
  let used := fun k v => if k ≤ t.ndim then v != 0 else v == 0
  (t.fcode ≤ 16 || (32 ≤ t.fcode && t.fcode < 48 && rec_ != 0 && recordOk rec_)) &&
    used 0 (field (w 2) 0 32) && used 1 (field (w 2) 32 32) && used 2 (field (w 3) 0 32) && used 3 (field (w 3) 32 32) &&
    (1 ≤ t.ndim || field (w 4) 0 32 == 0) && (2 ≤ t.ndim || field (w 4) 32 32 == 0) &&
    (3 ≤ t.ndim || field (w 5) 0 32 == 0) &&
    (!t.bsen || (decide (t.kax ≤ t.ndim) && !fmt.isInt)) &&
    (4 < fmt.width || (t.str1 % 2 == 0 && t.str2 % 2 == 0 && t.str3 % 2 == 0)) &&
    canonical t.base && canonical t.sbase && field (w 1) 12 52 == 0 && w 7 == 0

/-! ### Places (R169, R170) -/

/-- The coordinates of a linear index (R169), or none where it is out of bounds. -/
def Tid.ofLinear (t : Tid) (l : Int) : Option (Nat × Nat × Nat × Nat) :=
  let (e0, e1, e2, e3) := t.ext
  let z := e0 * e1 * e2 * e3
  if !t.bnd && (l < 0 || (z : Int) ≤ l) then none
  else
    let n := (l % (z : Int)).toNat
    some (n % e0, n / e0 % e1, n / (e0 * e1) % e2, n / (e0 * e1 * e2))

/-- Coordinates checked or reduced (R169). -/
def Tid.ofCoords (t : Tid) (c : Nat × Nat × Nat × Nat) : Option (Nat × Nat × Nat × Nat) :=
  let (e0, e1, e2, e3) := t.ext
  let (c0, c1, c2, c3) := c
  if t.bnd then some (c0 % e0, c1 % e1, c2 % e2, c3 % e3)
  else if c0 < e0 && c1 < e1 && c2 < e2 && c3 < e3 then some c
  else none

/-- The offset of an element in elements. -/
def Tid.offset (t : Tid) (c : Nat × Nat × Nat × Nat) : Int :=
  (c.1 : Int) + c.2.1 * t.str1 + c.2.2.1 * t.str2 + c.2.2.2 * t.str3

/-- How many bytes a code takes in memory (R157). -/
def Fmt.bytes (f : Fmt) : Nat := f.elemWidth / 8

/-- Whether two codes share a byte (R157). -/
def Fmt.nibble (f : Fmt) : Bool := decide (f.width ≤ 4)

/-- The address of an element, and which nibble of the byte where two share one (R169). -/
def Tid.addr (t : Tid) (c : Nat × Nat × Nat × Nat) : Word × Bool :=
  let off := t.offset c
  if t.fmt.nibble then (t.base + BitVec.ofInt 64 (off / 2), off % 2 == 1)
  else (t.base + BitVec.ofInt 64 (off * t.fmt.bytes), false)

/-- The address of an element's block scale (R170). -/
def Tid.scaleAddr (t : Tid) (c : Nat × Nat × Nat × Nat) : Word :=
  let (e0, e1, e2, e3) := t.ext
  let (c0, c1, c2, c3) := c
  let e := fun k v => if k = t.kax then (v + 31) / 32 else v
  let i := fun k v => if k = t.kax then v / 32 else v
  t.sbase + BitVec.ofNat 64 (i 0 c0 + e 0 e0 * (i 1 c1 + e 1 e1 * (i 2 c2 + e 2 e2 * (i 3 c3 + 0 * e3))))

/-- A code read with its scale code, as an exact value times TSCALE (R170, R257); none for a reserved code. -/
def Tid.value (t : Tid) (code scale : Nat) : Option FVal :=
  match t.fmt.decode code with
  | none => none
  | some v =>
    if t.bsen && scale == 255 then some .nan
    else
      let v := if t.bsen then v.scale ((scale : Int) - 127) else v
      some (FVal.mul v (f32.value t.tscale))

/-! ### Names of a strand (R166) -/

/-- The trap of an identifier that is not allotted or not bound (R166). -/
def tidFault : Trap := { cause := 12 }

/-- The format fault of R159 and R162. -/
def formatFault : Trap := { cause := 11 }

/-- The identifier is allotted. -/
def tidAllotted (n : Nat) (s : State) : Option Trap := require (decide (n < s.me.ntd)) tidFault

/-- The identifier is allotted and bound (R166), and the record that it was bound with is set and valid (R159). -/
def tidBound (n : Nat) (s : State) : Option Trap :=
  let t := tidOf (Tab.get 0 s.me.td n)
  firstTrap [require (decide (n < s.me.ntd) && (Tab.find s.me.td n).isSome) tidFault,
    require (decide (t.fcode < 32) || (t.record != 0 && recordOk t.record)) formatFault]

/-- The entry as an instruction reads it when it issues (R171): kept in the entry in flight as `aux`. -/
def Entry.withTid (e : Entry) (s : State) (n : Nat) : Entry :=
  match e.aux with
  | [] => { e with aux := [(Tab.get 0 s.me.td n).toNat] }
  | _ => e

/-- The copy of the identifier that an instruction took. -/
def Entry.tid (e : Entry) : Tid := tidOf (BitVec.ofNat 512 (e.aux.headD 0))

end Sys2Proof.Machine
end

