-- ==== Sys2Proof/Machine/Formats.lean ====
section
/-!
DEFINITION. Format records, binding and reading tensor identifiers, and the explicit conversions (08, R158–R162,
R172, R175–R179).
-/

namespace Sys2Proof.Machine

/-- `fmt.set` (R162). -/
def planFmtSet (d a : BitVec 6) : Plan where
  strict := true
  reads := sname a
  writes := [.fmt d.toNat]
  check := fun s => require (s.val a == 0 || recordOk (s.val a)) formatFault
  fire := Plan.now fun s => s.setMe { s.me with fmt := Tab.set 0 s.me.fmt d.toNat (s.val a) }

/-- The strand's format records as a `tid.bind` finds them when it issues (R162), before the entry it has read. -/
def Entry.withRecords (e : Entry) (s : State) : Entry :=
  match e.aux with
  | [] => { e with aux := (List.range 16).map fun n => (Tab.get 0 s.me.fmt n).toNat }
  | _ => e

/-- A `tid.bind` that has read its descriptor: the entry, 0 for none, takes its place as it retires (R171). -/
def bound (s : State) (e : Entry) (entry : BitVec 512) : State × Entry :=
  (s, { e with done := true, pend := [], aux := [entry.toNat] })

/-- `tid.bind` (R172): it reads the descriptor after every older access of the strand, and changes the identifier's entry
when it retires (R171). -/
def planTidBind (d a : BitVec 6) : Plan where
  mem := true
  reads := sname a ++ (List.range 16).map Name.fmt
  writes := [.td d.toNat]
  check := tidAllotted d.toNat
  ending := .bind d.toNat
  fire := fun s older e0 =>
    let t := s.me
    let e := e0.withRecords s
    let va := e.arg a
    if va = 0 then bound s e 0
    else if !allDone older then (s, e)
    else
      match s.pages (clusterOf s.cur.core) t.asid t.lvl .read .data va (pagesOf va 64) with
      | .error (r, x) => (s, { e with flt := some (pageFault r .read x) })
      | .ok _ =>
        if va.toNat % 8 ≠ 0 then (s, { e with flt := some { cause := 27 } })
        else
          match s.ownRead t s.cur.core (fun r x => pageFault r .read x) va 8 with
          | .held => (s, { e with held := true })
          | .trap f => (s, { e with flt := some f })
          | .ok bs =>
            let x := BitVec.ofNat 512 (ofBytes bs)
            let fmt : Tab Word := tabOf 0 16 fun n => BitVec.ofNat 64 (e.aux.getD n 0)
            if !descriptorOk x fmt then (s, { e with flt := some { cause := 27 } })
            else
              let fc := (tidOf x).fcode
              let rec_ := if 32 ≤ fc then Tab.get 0 fmt (fc - 32) else 0
              bound (s.ownNote t s.cur.core va 8) e (x ||| (rec_.setWidth 512 <<< 448))

/-- What the retirement of a `tid.bind` does (R171): the identifier is bound to the entry, or unbound. -/
def State.bindNow (s : State) (td : Nat) (e : Entry) : State :=
  let t := s.me
  let x := BitVec.ofNat 512 (e.aux.headD 0)
  s.setMe { t with td := if x = 0 then Tab.del t.td td else Tab.put t.td td x }

/-- `tid.rd` (R172): all dwords read 0 when the identifier is unbound. -/
def planTidRd (d a : BitVec 6) (k : BitVec 3) : Plan where
  reads := [.td a.toNat]
  writes := sname d
  check := tidAllotted a.toNat
  fire := Plan.scalar d fun s => tdDword (Tab.get 0 s.me.td a.toNat) k.toNat

/-! ### Second formats (R175) -/

/-- The record that a second format code names, read when the instruction issues (R162) and kept in `aux`. -/
def Entry.withRecord (e : Entry) (s : State) (fc : BitVec 6) : Entry :=
  match e.aux with
  | [] => { e with aux := [(if 32 ≤ fc.toNat then Tab.get 0 s.me.fmt (fc.toNat - 32) else 0).toNat] }
  | _ => e

/-- The second format of an instruction. -/
def Entry.second (e : Entry) (fc : BitVec 6) : Fmt := fmtOfCode fc.toNat (BitVec.ofNat 64 (e.aux.headD 0))

/-- The names a second format reads. -/
def fcNames (fc : BitVec 6) : List Name := if 32 ≤ fc.toNat then [.fmt (fc.toNat - 32)] else []

/-- A record that is named is set and valid (R159). -/
def fcCheck (fc : BitVec 6) (s : State) : Option Trap :=
  if fc.toNat < 32 then none
  else
    let r := Tab.get 0 s.me.fmt (fc.toNat - 32)
    require (r != 0 && recordOk r) formatFault

/-- The reserved-code trap (R161): direction 0 decode, 1 encode. -/
def reservedCode (info : Nat) : Trap := { cause := 10, info := info }

/-- A plan that names a second format: its record is checked and copied at issue, before the other checks of
length (R49). -/
def Plan.withFc (p : Plan) (fc : BitVec 6) : Plan :=
  { p with
    reads := p.reads ++ fcNames fc
    check := fun s => firstTrap [fcCheck fc s, p.check s]
    fire := fun s older e => p.fire s older (e.withRecord s fc) }

/-- A value written in a format, or the trap of a reserved code (R161, R163–R165). -/
def encodeFired (f : Fmt) (mode : Mode) (sat : Bool) (v : FVal) : Fired :=
  match f.encode mode sat v with
  | none => .fault (reservedCode 1)
  | some c => .val c

/-- One conversion (R165, R176): between integers it wraps or saturates. -/
def convert (src dst : Fmt) (mode : Mode) (sat : Bool) (x : Nat) : Fired :=
  match src, dst with
  | .int w sg, .int w2 sg2 => .val (intoInt w2 sg2 sat (if sg then toSigned w x else ((x % 2 ^ w : Nat) : Int)))
  | _, _ =>
    match src.decode x with
    | none => .fault (reservedCode 0)
    | some v => encodeFired dst mode sat v

/-- The element width that holds codes of a second format: 8 bits for a record or e8m0 (R157). -/
def fcWidth (fc : BitVec 6) : Nat := if fc.toNat < 16 then (tyOfNat fc.toNat).width else 8

/-- `vcvt … to F` (R176). -/
def planVcvtTo (v : VCtl) (d a : BitVec 6) (rm : Rm) (ty : Ty) (sat : BitVec 1) (fc : BitVec 6) : Plan :=
  (vecPlan v d (fcWidth fc) (max ty.width (fcWidth fc)) [(a, ty.width)] fun s older e i =>
    fire1 (s.elt older e a ty.width i) fun x =>
      convert (fmtOfTy ty) (e.second fc) (modeOf rm s.me.r.fctl) (sat == 1) x).withFc fc

/-- `vcvt … from F` (R176). -/
def planVcvtFrom (v : VCtl) (d a : BitVec 6) (rm : Rm) (ty : Ty) (sat : BitVec 1) (fc : BitVec 6) : Plan :=
  (vecPlan v d ty.width (max ty.width (fcWidth fc)) [(a, fcWidth fc)] fun s older e i =>
    fire1 (s.elt older e a (fcWidth fc) i) fun x =>
      convert (e.second fc) (fmtOfTy ty) (modeOf rm s.me.r.fctl) (sat == 1) x).withFc fc

/-- Elements of a source from `lo` on, `k` of them below n, each `b` bits wide, put together least significant
first (R177). -/
def gather (s : State) (older : List Entry) (e : Entry) (a : BitVec 6) (b : Nat) : (k : Nat) → (lo : Nat) → Elt
  | 0, _ => .full 0
  | k + 1, lo =>
    if e.n ≤ lo then .full 0
    else
      match s.elt older e a 8 lo, gather s older e a b k (lo + 1) with
      | .empty, _ => .empty
      | _, .empty => .empty
      | .full x, .full r => .full (x % 2 ^ b + 2 ^ b * r)
      | _, _ => .poison

/-- `vpack` (R177): byte j of the stream is built from the codes with bits in it. -/
def planVpack (v : VCtl) (d a : BitVec 6) (_ty : Ty) (fc : BitVec 6) : Plan :=
  (rulePlan v d 8 8 [a] [] (fun _ _ e => (e.second fc).width) fun s older e b j _ =>
    if (e.n * b + 7) / 8 ≤ j then .val 0
    else
      let lo := 8 * j / b
      fire1 (gather s older e a b ((8 * j + 7) / b + 1 - lo) lo) fun x => .val (x / 2 ^ (8 * j - b * lo) % 256)).withFc fc

/-- The bytes of a stream from `lo` on. -/
def streamBytes (s : State) (older : List Entry) (e : Entry) (a : BitVec 6) : (k : Nat) → (lo : Nat) → Elt
  | 0, _ => .full 0
  | k + 1, lo =>
    match s.elt older e a 8 lo, streamBytes s older e a k (lo + 1) with
    | .empty, _ => .empty
    | _, .empty => .empty
    | .full x, .full r => .full (x + 256 * r)
    | _, _ => .poison

/-- `vunpk` (R177): code i from the bytes that hold it. -/
def planVunpk (v : VCtl) (d a : BitVec 6) (_ty : Ty) (fc : BitVec 6) : Plan :=
  (rulePlan v d 8 8 [a] [] (fun _ _ e => (e.second fc).width) fun s older e b i _ =>
    let lo := b * i / 8
    fire1 (streamBytes s older e a ((b * i + b - 1) / 8 + 1 - lo) lo) fun x => .val (x / 2 ^ (b * i - 8 * lo) % 2 ^ b)).withFc fc

/-- `vscl` (R178). -/
def planVscl (v : VCtl) (d a b : BitVec 6) (rm : Rm) (ty : Ty) (sat : BitVec 1) (fc : BitVec 6) : Plan :=
  (shiftPlan v d ty.width ty.width [a, b] (fun s older e i => [s.elt older e a 8 i, s.elt older e b 8 (i / 32)]) fun s older e i =>
    fire2 (s.elt older e a 8 i) (s.elt older e b 8 (i / 32)) fun x sc =>
      if sc = 255 then .val (tyFmt ty).nanCode
      else
        match (e.second fc).decode x with
        | none => .fault (reservedCode 0)
        | some y => encodeFired (fmtOfTy ty) (modeOf rm s.me.r.fctl) (sat == 1) (y.scale ((sc : Int) - 127))).withFc fc

/-! ### `vquant` (R179) -/

/-- ⌊log2⌋ of a nonzero finite magnitude. -/
def FVal.log2 (v : FVal) : Int :=
  match v with
  | .nan => 0
  | .inf _ => 0
  | .num _ m e => (Nat.log2 m : Int) + e

/-- ⌊log2⌋ of the largest finite value of a format (R179); 0 where that value is 0 (log 129). -/
def Fmt.emax (f : Fmt) : Int :=
  match f with
  | .flt g => (g.value g.maxCode).log2
  | .e8m0 => 127
  | .int _ _ => 0

/-- What is known of a block: not ready, POISON, or the exponent of its scale, none where it holds a NaN or an
infinity. -/
inductive Block where
  | wait | poison | scale (x : Option Int)
deriving DecidableEq, Repr

/-- The larger of two finite magnitudes. -/
def maxMag (a b : FVal) : FVal := if FVal.cmp a b = some .lt then b else a

/-- A zero value. -/
def FVal.isZero (v : FVal) : Bool :=
  match v with
  | .num _ m _ => m == 0
  | .nan => false
  | .inf _ => false

/-- The values of the active elements of a block, or that it waits or is POISON. -/
def blockVals (s : State) (older : List Entry) (e : Entry) (v : VCtl) (a : BitVec 6) (ty : Ty) : List Nat → Block × List FVal
  | [] => (.scale none, [])
  | i :: rest =>
    let (k, vs) := blockVals s older e v a ty rest
    match s.mask older v i, s.elt older e a ty.width i with
    | .empty, _ => (.wait, vs)
    | _, .empty => (.wait, vs)
    | .poison, _ => (if k = .wait then .wait else .poison, vs)
    | _, .poison => (if k = .wait then .wait else .poison, vs)
    | .full m, .full x => (k, if m = 0 then vs else tyVal ty x :: vs)

/-- The scale of block j (R179). Where none of its elements is active the maximum is taken as 0 (log 144). -/
def blockScale (s : State) (older : List Entry) (e : Entry) (v : VCtl) (a : BitVec 6) (ty : Ty) (f : Fmt) (j : Nat) : Block :=
  match blockVals s older e v a ty ((List.range (min 32 (e.n - 32 * j))).map fun i => 32 * j + i) with
  | (.scale _, vs) =>
    if vs.any fun x => match x with | .num _ _ _ => false | _ => true then .scale none
    else
      let m := vs.foldl (fun m x => maxMag m x.abs) (.num false 0 0)
      .scale (some (if m.isZero then -127 else max (-127) (min 127 (m.log2 - f.emax))))
  | (k, _) => k

/-- `vquant` (R179): codes into d, scales into b. -/
def planVquant (v : VCtl) (d a b : BitVec 6) (rm : Rm) (ty : Ty) (fc : BitVec 6) : Plan :=
  Plan.withFc (fc := fc) {
    lanes := true
    chk := true
    reads := vnames v ++ bname a
    writes := [.v d.toNat, .v b.toNat]
    w := 8
    len := some v.ls
    check := lengthCheck v ty.width
    fire := fun s older e =>
      let f := e.second fc
      let nb := (e.n + 31) / 32
      let blocks := (List.range nb).map fun j => blockScale s older e v a ty f j
      let old := s.srcV older d.toNat
      let oldS := s.srcV older b.toNat
      let e1 := ({ e with done := true } : Entry).passV d.toNat 8 fun i =>
        if e.n ≤ i then .copy (old.get 8 i)
        else
          match blocks.getD (i / 32) .wait with
          | .wait => .wait
          | .poison => .poison
          | .scale x =>
            masked (s.mask older v i) (zeroed v) e.n i (old.get 8 i)
              (fire1 (s.elt older e a ty.width i) fun y =>
                match x with
                | none => .val 0
                | some k => encodeFired f (modeOf rm s.me.r.fctl) true ((tyVal ty y).scale (-k)))
      let e2 := e1.passV b.toNat 8 fun j =>
        if nb ≤ j then .copy (oldS.get 8 j)
        else
          match blocks.getD j .wait with
          | .wait => .wait
          | .poison => .poison
          | .scale none => .val 255
          | .scale (some k) => .val (k + 127).toNat
      (s.noteLatent e2 (latentAt s older e v (fun _ => []) 8 old), e2) }

end Sys2Proof.Machine
end

