-- ==== Sys2Proof/Machine/Tiles.lean ====
section
/-!
DEFINITION. Tile registers, fills, drains, the latch and matrix rows (09, R180–R195; 08, R173, R174).
-/

namespace Sys2Proof.Machine

/-! ### The tile table -/

/-- A tile of the core that acts. -/
def State.tile (s : State) (n : Nat) : Tile := Tab.get Tile.start s.curCore.tiles n

/-- A tile changed. -/
def State.setTile (s : State) (core n : Nat) (t : Tile) : State :=
  s.setCore core { s.core core with tiles := Tab.set Tile.start (s.core core).tiles n t }

/-- The width class of a format (R183). -/
def Fmt.cls (f : Fmt) : Option Nat :=
  let w := f.width
  if w ≤ 4 then some 0 else if w ≤ 8 then some 1 else if w ≤ 16 then some 2 else if w ≤ 32 then some 3 else none

/-- A tile that is being filled or drained (R185). -/
def Tile.busy (t : Tile) : Bool := t.st == .filling || t.st == .draining

/-- An older convoy's `mmr.t` has still to read the tile (R184). -/
def State.tileRead (s : State) (n : Nat) : Bool := s.me.pending.contains (.t n)

/-- An earlier instruction of the same convoy is a `tst` of the tile (R185). -/
def State.drainsHere (s : State) (n : Nat) : Bool :=
  s.me.same.any fun e => !e.word.getLsbD 62 && field e.word 54 7 == 0x58 && field e.word 48 6 == 2 && field e.word 36 6 == n

/-- The wait of an instruction that rewrites a tile (R185). -/
def rewriteWaits (n : Nat) (s : State) : List Nat := if (s.tile n).busy || s.tileRead n then [3] else []

/-- The wait of an instruction that reads a tile (R185). -/
def readWaits (n : Nat) (s : State) : List Nat := if (s.tile n).busy && !s.drainsHere n then [3] else []

/-- A tile fault (R186). -/
def tileFault (reason : Nat) : Trap := { cause := 15, info := reason }

/-- The format of an identifier is of the tile's class (R186 reason 2). -/
def classCheck (tile td : Nat) (s : State) : Option Trap :=
  require ((tidOf (Tab.get 0 s.me.td td)).fmt.cls == some (s.tile tile).ew) (tileFault 2)

/-- What a fill or `tzero` records of an identifier (R180). -/
def Tid.snap (t : Tid) : Snap := ⟨t.fcode, t.record, BitVec.ofNat 32 t.tscale, t.bnd⟩

/-! ### Coordinates (R187) -/

/-- The origins in sa and sb. -/
def origin (sa sb : Word) : Nat × Nat × Nat × Nat := (field sa 0 32, field sa 32 32, field sb 0 32, field sb 32 32)

/-- The coordinates of tile element (r, c). -/
def tileCoords (trans : Bool) (o : Nat × Nat × Nat × Nat) (r c : Nat) : Nat × Nat × Nat × Nat :=
  if trans then (o.1 + r, o.2.1 + c, o.2.2.1, o.2.2.2) else (o.1 + c, o.2.1 + r, o.2.2.1, o.2.2.2)

/-- Block scales need the tile's row axis, with an origin that is a multiple of 32 (R186 reason 3). -/
def scaleCheck (trans : Bool) (td b : Nat) (s : State) : Option Trap :=
  let t := tidOf (Tab.get 0 s.me.td td)
  let sa := s.me.r.get b
  require (!t.bsen || (if trans then t.kax == 0 && field sa 0 32 % 32 == 0 else t.kax == 1 && field sa 32 32 % 32 == 0))
    (tileFault 3)

/-! ### Fills (R187, R188) -/

/-- One code read from memory: a byte's nibble, or whole bytes. -/
def codeOf (f : Fmt) (high : Bool) (v : Nat) : Nat := if f.nibble then (if high then v / 16 else v % 16) else v

/-- The state of a fill as it goes: the tile, the lowest failed element, whether something is held. -/
structure Filling where
  tile : Tile
  flt  : Option Trap
  held : Bool

/-- Bits of a run's scale code set in the side store (R315). -/
def Tile.setSide (t : Tile) (j c code : Nat) : Tile := { t with side := putBits t.side (8 * (512 * j + c)) 8 code }

/-- A code set. -/
def Tile.setCode (t : Tile) (i code : Nat) : Tile := { t with codes := putBits t.codes (i * t.ebits) t.ebits code }

/-- The done bit of a fill's element set. -/
def Tile.setDone (t : Tile) (i : Nat) : Tile :=
  { t with fill := t.fill.map fun f => { f with done := putBits f.done i 1 1 } }

/-- POISON bits of rows set. -/
def Tile.poisonRows (t : Tile) (r n : Nat) : Tile := { t with poison := t.poison ||| (BitVec.ofNat 256 (2 ^ n - 1) <<< r) }

/-- What a fill reads for element (r, c): the code's address, and the scale's for the first row of a run. -/
def fillAddrs (td : Tid) (trans : Bool) (o : Nat × Nat × Nat × Nat) (r c : Nat) : Option (Word × Bool × Option Word) :=
  (td.ofCoords (tileCoords trans o r c)).map fun k =>
    let a := td.addr k
    (a.1, a.2, if td.bsen && r % 32 == 0 then some (td.scaleAddr k) else none)

/-- One element of a fill (R188). Data with an uncorrectable error sets the POISON bit of its row; a scale code
with one, those of its run, whose code is then stored as 0xFF (log 141). An element that is done already brings no scale
code: its run keeps 127 (log 140). -/
def fillElt (s : State) (t : Strand) (older : List Entry) (td : Tid) (m : Pages) (trans : Bool) (o : Nat × Nat × Nat × Nat) (i : Nat)
    (p : Filling) : Filling :=
  let r := i / p.tile.cols
  let c := i % p.tile.cols
  match p.tile.fill with
  | none => p
  | some f =>
    if f.done.getLsbD i then p
    else
      let fail := fun (e : Trap) => { p with flt := some (p.flt.getD { e with elem := some i }) }
      match fillAddrs td trans o r c with
      | none => fail { cause := 8 }
      | some (va, high, sc) =>
        let code := s.loadIn t older m .read va td.fmt.bytes
        let scale := match sc with
          | none => Got.val 127
          | some x => s.loadIn t older m .read x 1
        match code, scale with
        | .fail e, _ => fail e
        | _, .fail e => fail e
        | .held, _ => { p with held := true }
        | _, .held => { p with held := true }
        | code, scale =>
          let t1 := match code with
            | .val v => p.tile.setCode i (codeOf td.fmt high v)
            | _ => p.tile.poisonRows r 1
          let t2 := if r % 32 ≠ 0 then t1 else
            match scale with
            | .val v => t1.setSide (r / 32) c v
            | _ => (t1.setSide (r / 32) c 255).poisonRows r 32
          { p with tile := t2.setDone i }

/-- The elements of a fill that have still to come. -/
def Fill.todo (f : Fill) (tile : Tile) : List Nat := (List.range (tile.rows * tile.cols)).filter fun i => !f.done.getLsbD i

/-- What they read, by address and width. -/
def Fill.spans (f : Fill) (tile : Tile) : List (Word × Nat) :=
  let td := tidOf f.td
  (f.todo tile).flatMap fun i =>
    match fillAddrs td f.trans (origin f.sa f.sb) (i / tile.cols) (i % tile.cols) with
    | none => []
    | some (va, _, sc) => (va, td.fmt.bytes) :: sc.toList.map fun x => (x, 1)

/-- A fill goes on: every element that can be read is (R188), its page translated before (R226). -/
def fillGo (s : State) (t : Strand) (older : List Entry) (tile : Tile) (f : Fill) (m : Pages) : Filling :=
  (f.todo tile).foldl (fun p i => fillElt s t older (tidOf f.td) m f.trans (origin f.sa f.sb) i p) ⟨tile, none, false⟩

/-- `tld` and `tldt`: a fill (R184–R188). -/
def fillPlan (trans : Bool) (d a b c : BitVec 6) : Plan where
  cls := .m
  lanes := true
  fill := true
  strict := true
  reads := [.td a.toNat] ++ sname b ++ sname c
  writes := [.t d.toNat]
  waits := rewriteWaits d.toNat
  check := fun s => firstTrap [tidBound a.toNat s, classCheck d.toNat a.toNat s, scaleCheck trans a.toNat b.toNat s]
  resumed := fun s _ => (s.tile d.toNat).st == .filling && (s.tile d.toNat).fill.isSome
  fire := fun s older e =>
    let t0 := s.tile d.toNat
    let tile :=
      match t0.st, t0.fill with
      | .filling, some f => { t0 with fill := some { f with trans := trans } }
      | _, _ =>
        let entry := Tab.get 0 s.me.td a.toNat
        { t0 with
          st := .filling, snap := (tidOf entry).snap, codes := 0, poison := 0
          side := BitVec.ofNat 32768 ((2 ^ 32768 - 1) / 255 * 127)
          fill := some ⟨entry, s.val b, s.val c, trans, 0⟩ }
    match tile.fill with
    | none => (s, e)
    | some f =>
      let begun := e.begun || f.done != 0
      let spans := f.spans tile
      let m := s.pagesOn e .read .data (spans.map Prod.fst)
      if !begun && (!allBegun older || s.mustWait older m .read spans) then (s.setTile s.cur.core d.toNat tile, e)
      else
        let p := fillGo s s.me older tile f m
        let s1 := ((s.noteIn s.me older m .read spans).logBad m .read (spans.map Prod.fst)).setTile s.cur.core d.toNat p.tile
        if p.tile.filled then
          ({ s1 with agenda := s1.agenda ++ [.tileFillComplete s.cur.core d.toNat] }, { e with done := true, pend := [] })
        else
          let rest := (p.tile.fill.map fun g => g.spans p.tile).getD []
          (s1, { e with
            begun := begun || (p.tile.fill.map Fill.done).getD 0 != 0, flt := p.flt, held := p.held, pages := m
            later := s.laterSpans m .read true rest })

def planTld (d a b c : BitVec 6) : Plan := fillPlan false d a b c
def planTldt (d a b c : BitVec 6) : Plan := fillPlan true d a b c

/-! ### Drains (R189) -/

/-- The elements of a drain that have still to be written, with their addresses; none for one out of bounds. -/
def drainAddrs (td : Tid) (tile : Tile) (o : Nat × Nat × Nat × Nat) (done : Nat → Bool) :
    List (Nat × Option (Word × Bool)) :=
  ((List.range (tile.rows * tile.cols)).filter fun i => !done i).map fun i =>
    (i, (td.ofCoords (tileCoords false o (i / tile.cols) (i % tile.cols))).map td.addr)

/-- A code written: a nibble leaves its neighbour (R157). -/
def storeCode (s : State) (p : Place) (f : Fmt) (high : Bool) (code : Nat) : State :=
  if f.nibble then
    let old := s.readNat p 1
    s.storeAt p 1 (if high then old % 16 + 16 * (code % 16) else old / 16 * 16 + code % 16)
  else s.storeAt p f.bytes (code % 2 ^ f.width)

/-- The codes of one event written: those of this device each at its place, those of other devices by messages (R253). -/
def storeCodes (s : State) (f : Fmt) (ws : List (Place × Bool × Nat)) : State :=
  ((ws.foldl (fun st x => if (x.1.peerElt 0 none 0 0).isSome then st else storeCode st x.1 f x.2.1 x.2.2) s).clearWhole
    (if s.poison.isEmpty then [] else if f.nibble then (ws.filter fun x => x.2.1 && ws.any fun y => y.1 == x.1 && !y.2.1).map fun x => (x.1, 1)
      else ws.map fun x => (x.1, f.bytes))).sendPeers 1 .i8 false
    (ws.filterMap fun x => x.1.peerElt f.bytes (if f.nibble then some x.2.1 else none) (x.2.2 % 2 ^ f.width) 0)

/-- `tst` (R185, R189). Its checks at issue come in the order of R186's reasons, then the tile's POISON (log 142). Elements
already written are those of the done-mask in the tile slot, or in the entry. -/
def planTst (d a b c : BitVec 6) : Plan where
  cls := .m
  lanes := true
  strict := true
  reads := [.t a.toNat, .td d.toNat] ++ sname b ++ sname c
  waits := readWaits a.toNat
  check := fun s => firstTrap [
    tidBound d.toNat s, require ((s.tile a.toNat).st != .empty) (tileFault 1), classCheck a.toNat d.toNat s,
    require ((s.tile a.toNat).poison == 0) { cause := 9, info := 4 }]
  resumed := fun s _ => (s.tile a.toNat).st == .draining
  fire := fun s older e0 =>
    let e := e0.withTid s d.toNat
    let td := e.tid
    let tile := s.tile a.toNat
    let s0 := s.setTile s.cur.core a.toNat { tile with st := .draining }
    if !allDone older then (s0, e)
    else
      let mask := (tile.fill.map Fill.done).getD 0
      let done := fun i => mask.getLsbD i || (decide (i < 2048) && e.mask.getLsbD i)
      let todo := drainAddrs td tile (origin (e.arg b) (e.arg c)) done
      let vas := todo.filterMap fun x => x.2.map Prod.fst
      let m := s.pageMap (clusterOf s.cur.core) s.me.asid s.me.lvl .write .data vas e.pages
      let checks := todo.filterMap fun x => x.2.map fun y => (x.1, s.checkOut m .write y.1 td.fmt.bytes)
      let ask := fun (st : State) => st.askHomes m .write 1 .i8 false (vas.map fun va => (va, td.fmt.bytes))
      match checks.findSome? fun x => match x.2 with
          | .error f => some { f with elem := some x.1 }
          | .ok _ => none with
      | some f => (ask (s.setTile s.cur.core a.toNat { tile with st := .ready }), { e with flt := some f })
      | none =>
        if checks.any fun x => match x.2 with
            | .ok p => s.stalled p
            | .error _ => false then (s0, { e with held := true, pages := m })
        else
          let s1 := storeCodes (ask s0) td.fmt (todo.filterMap fun x =>
            match x.2 with
            | none => none
            | some (va, high) =>
              match s.checkOut m .write va td.fmt.bytes with
              | .error _ => none
              | .ok p => some (p, high, getBits tile.codes (x.1 * tile.ebits) tile.ebits))
          match todo.find? fun x => x.2.isNone with
          | none =>
            ({ (s1.setTile s.cur.core a.toNat { tile with
                st := .draining, fill := some ⟨0, 0, 0, false, BitVec.allOnes 131072⟩ }) with
                agenda := s1.agenda ++ [.tileDrainComplete s.cur.core a.toNat] },
              { e with done := true, pend := [] })
          | some (i, _) =>
            let bits := todo.foldl (fun (b : BitVec 131072) x => if x.2.isSome then putBits b x.1 1 1 else b) mask
            (s1.setTile s.cur.core a.toNat
                { tile with st := .draining, fill := some ⟨0, 0, 0, false, bits⟩ },
              { e with
                mask := bits.setWidth 2048 ||| e.mask
                flt := some { cause := 8, elem := some i } })

/-- `tzero` (R190). -/
def planTzero (d a : BitVec 6) : Plan where
  lanes := true
  reads := [.td a.toNat]
  writes := [.t d.toNat]
  waits := rewriteWaits d.toNat
  check := fun s => firstTrap [tidBound a.toNat s, classCheck d.toNat a.toNat s]
  fire := Plan.now fun s =>
    s.setTile s.cur.core d.toNat { s.tile d.toNat with
      st := .ready, codes := 0, poison := 0, fill := none
      side := BitVec.ofNat 32768 ((2 ^ 32768 - 1) / 255 * 127)
      snap := (tidOf (Tab.get 0 s.me.td a.toNat)).snap }

/-! ### The latch (R191) -/

/-- The f32 code of a value rounded to nearest (R173). -/
def rne32 (v : FVal) : Nat := (f32.round .rne false v).code

/-- The fields that `tlatch` records when its convoy issues; the copies come later. -/
def latchFields (tile : Tile) (ta : Tid) : Latch where
  k := tile.rows
  n := tile.cols
  ew := tile.ew
  fa := ta.fcode
  fb := tile.snap.fcode
  recA := ta.record
  recB := tile.snap.record
  sA := BitVec.ofNat 32 ta.tscale
  sB := tile.snap.tscale
  scale := BitVec.ofNat 32 (rne32 (FVal.mul (f32.value ta.tscale) (f32.value tile.snap.tscale.toNat)))
  bsen := ta.bsen
  codes := 0
  side := 0
  poison := 0

/-- What `tlatch` has recorded, as its entry in flight keeps it until the copy begins. -/
def Latch.pack (l : Latch) : List Nat :=
  [l.k, l.n, l.ew, l.fa, l.fb, l.recA.toNat, l.recB.toNat, l.sA.toNat, l.sB.toNat, l.scale.toNat, if l.bsen then 1 else 0]

/-- The same read back. -/
def Latch.unpack (xs : List Nat) : Latch where
  k := xs.getD 0 0
  n := xs.getD 1 0
  ew := xs.getD 2 0
  fa := xs.getD 3 0
  fb := xs.getD 4 0
  recA := BitVec.ofNat 64 (xs.getD 5 0)
  recB := BitVec.ofNat 64 (xs.getD 6 0)
  sA := BitVec.ofNat 32 (xs.getD 7 0)
  sB := BitVec.ofNat 32 (xs.getD 8 0)
  scale := BitVec.ofNat 32 (xs.getD 9 0)
  bsen := xs.getD 10 0 == 1
  codes := 0
  side := 0
  poison := 0

/-- A `tlatch` word: op 0x59, fn 0. -/
def isTlatch (w : Word) : Bool := !w.getLsbD 62 && field w 54 7 == 0x59 && field w 48 6 == 0

/-- A word of any form of `mmr`: op 0x5A. -/
def isMmr (w : Word) : Bool := !w.getLsbD 62 && field w 54 7 == 0x5A

/-- A `tlatch` in flight whose copy has not been made: every younger `mmr` waits for it. -/
def Entry.latchDue (e : Entry) : Bool := isTlatch e.word && !e.done

/-- The latch as the youngest `tlatch` that has issued sets it (R191), for the checks of an `mmr`. -/
def State.latchSeen (s : State) : Option Latch :=
  match ((s.me.flight.flatMap Convoy.entries).reverse.find? Entry.latchDue) with
  | some e => if e.aux.isEmpty then s.curCore.latch else some (Latch.unpack e.aux)
  | none => s.curCore.latch

/-- `tlatch` (R191): its fields are recorded as its convoy issues, and its tile is DRAINING. The copy, which the events
LATCH_COPY and LATCH_COPY_COMPLETE make, begins once every older `mmr` has fired; until then those use the old latch. -/
def planTlatch (a b : BitVec 6) : Plan where
  cls := .x
  lanes := true
  reads := [.t a.toNat, .td b.toNat]
  writes := [.latch]
  waits := readWaits a.toNat
  check := fun s =>
    let tile := s.tile a.toNat
    let f := (tidOf (Tab.get 0 s.me.td b.toNat)).fmt
    firstTrap [tidBound b.toNat s, require (tile.st != .empty) (tileFault 1),
      require (tile.ew != 3 && decide (tile.rows ≤ 128) && tile.snap.fcode != 16) (tileFault 4),
      require (f.cls.isSome && f.cls != some 3 && f != .e8m0) (tileFault 2)]
  resumed := fun s _ => (s.tile a.toNat).st == .draining
  fire := fun s older e0 =>
    let k := s.curCore
    let tile := s.tile a.toNat
    let e := if e0.aux.isEmpty then { e0 with aux := (latchFields tile (tidOf (Tab.get 0 s.me.td b.toNat))).pack } else e0
    if e.begun then
      if k.latching.isNone then (s, { e with done := true, pend := [] }) else (s, e)
    else
      let s1 := s.setTile s.cur.core a.toNat { tile with st := .draining }
      if (older.any fun o => o.latchDue || (isMmr o.word && !o.done)) || k.latching.isSome then (s1, e)
      else
        let s2 := s1.setCore s.cur.core { s1.curCore with latch := some (Latch.unpack e.aux), latching := some (a.toNat, false) }
        ({ s2 with agenda := s2.agenda ++ [.latchCopy s.cur.core] }, { e with begun := true })

/-! ### Matrix rows (R173, R174, R192–R195) -/

/-- The formats of the latched operands. -/
def Latch.fmtA (l : Latch) : Fmt := fmtOfCode l.fa l.recA
def Latch.fmtB (l : Latch) : Fmt := fmtOfCode l.fb l.recB

/-- The code of product k in column i of the latch. -/
def Latch.code (l : Latch) (k i : Nat) : Nat := getBits l.codes ((k * l.n + i) * (4 * 2 ^ l.ew)) (4 * 2 ^ l.ew)

/-- The row of one operation: its codes and scale codes, and the products skipped. -/
structure Row where
  codes  : Nat → Elt
  scales : Nat → Elt
  skip   : Nat → Elt

/-- The sum of two exact values. -/
def exactAdd (a b : FVal) : FVal := FVal.add false a b

/-- The exact sum of a block's products (R173): +0 where all are skipped (R174). -/
def blockSum : List FVal → FVal
  | [] => .num false 0 0
  | [x] => x
  | x :: r => exactAdd x (blockSum r)

/-- One result column (R173): `rowVals k` is none for a skipped product. -/
def column (l : Latch) (rowVals : List (Option FVal)) (eas : List Nat) (i : Nat) : FVal :=
  let blocks := (List.range ((l.k + 31) / 32)).map fun j =>
    let ks := (List.range (min 32 (l.k - 32 * j))).map fun x => 32 * j + x
    let ps := ks.filterMap fun k =>
      ((rowVals.getD k none).map fun a => FVal.mul a ((l.fmtB.decode (l.code k i)).getD .nan))
    let ea := eas.getD j 127
    let eb := getBits l.side (8 * (512 * j + i)) 8
    if ea = 255 ∨ eb = 255 then FVal.nan
    else f32.value (rne32 ((blockSum ps).scale ((ea : Int) - 127 + ((eb : Int) - 127))))
  match blocks with
  | [] => .num false 0 0
  | t :: ts => ts.foldl (fun acc x => f32.value (rne32 (exactAdd acc x))) t

/-- What a row is as a whole, before any column is worked out. -/
inductive RowState where
  | wait
  | poison
  | reserved (t : Trap)
  | ready (vals : List (Option FVal)) (eas : List Nat)

/-- The readiness of a row and its decoded values (R174, R194). `active` lists the active columns below n;
`flat` is the flat index of row element 0 in its operand. POISON comes before a reserved code, and the row operand's
before the tile's (log 138). -/
def rowState (l : Latch) (r : Row) (active : List Nat) (flat : Nat) : RowState :=
  let ks := List.range l.k
  let js := List.range ((l.k + 31) / 32)
  if ks.any fun k => r.skip k == .empty then .wait
  else
    let used := ks.filter fun k => r.skip k != .full 1
    if (used.any fun k => r.codes k == .empty) || js.any fun j => r.scales j == .empty then .wait
    else if (ks.any fun k => r.skip k == .poison) || (used.any fun k => r.codes k == .poison || l.poison.getLsbD k) ||
        (js.any fun j => r.scales j == .poison) then .poison
    else if active.isEmpty then .ready [] []
    else
      let val := fun (x : Elt) => match x with
        | .full v => v
        | _ => 0
      match used.find? fun k => (l.fmtA.decode (val (r.codes k))).isNone with
      | some k => .reserved { cause := 10, elem := some (flat + k) }
      | none =>
        match used.findSome? fun k => (active.find? fun i => (l.fmtB.decode (l.code k i)).isNone).map fun i => k * l.n + i with
        | some x => .reserved { cause := 10, info := 2, elem := some x }
        | none =>
          .ready (ks.map fun k => if r.skip k == .full 1 then none else l.fmtA.decode (val (r.codes k)))
            (js.map fun j => val (r.scales j))

/-- One row operation into vector register `d` (R192, R194). With a reserved code the whole row is absent, columns that
fired before the mask bit that uncovered it among them (R174). -/
def rowOp (s : State) (older : List Entry) (v : VCtl) (acc : Bool) (l : Latch) (d : Nat) (r : Row) (flat : Nat) (e : Entry) :
    Entry :=
  let old := s.srcV older d
  let active := (List.range e.n).filter fun i => s.mask older v i == .full 1
  let st := rowState l r active flat
  match st with
  | .reserved t => { e with done := false, vd := Tab.put e.vd d VReg.fresh, flt := lowerTrap e.flt (some t) }
  | _ =>
    e.passV d 32 fun i =>
      masked (s.mask older v i) (zeroed v) e.n i (old.get 32 i)
        (match st with
          | .wait => .wait
          | .poison => .poison
          | .reserved _ => .wait
          | .ready vals eas =>
            let sum := FVal.mul (column l vals eas i) (f32.value l.scale.toNat)
            if acc then fire1 (old.get 32 i) fun o => .val (rne32 (exactAdd (f32.value o) sum))
            else .val (rne32 sum))

/-- The checks of every form of `mmr` that need the latch (R186, R192, R193), in the order of their reasons but for the tile
of `mmr.t`, which comes first (log 142). -/
def latchChecks (v : VCtl) (b : BitVec 6) (more : Latch → State → Option Trap) (s : State) : Option Trap :=
  match s.latchSeen with
  | none => some (tileFault 5)
  | some l => firstTrap [require (l.bsen || b.toNat == 32) (tileFault 6), more l s,
      require (decide (s.len v.ls ≤ l.n)) { cause := 13 }]

/-- The common shape of the row instructions: `ops` of them, each with its row. They read vector work that has been found to
agree (R329): the latch may be another when it would be read again. -/
def rowPlan (v : VCtl) (d b : BitVec 6) (acc : BitVec 1) (ops : Nat) (reads : List Name)
    (early : State → Option Trap) (more : Latch → State → Option Trap) (waits : State → List Nat)
    (row : State → List Entry → Entry → Latch → Nat → Row) (flat : State → Entry → Latch → Nat) : Plan where
  cls := .x
  lanes := true
  reads := vnames v ++ reads ++ (if b.toNat < 32 then [.v b.toNat] else bname b) ++ [.latch]
  writes := (List.range ops).map fun m => .v (d.toNat + m)
  w := 32
  len := some v.ls
  waits := waits
  check := fun s => firstTrap [lengthCheck v 32 s, early s, latchChecks v b more s]
  fire := fun s older e =>
    match s.curCore.latch with
    | none => (s, e)
    | some l =>
      if older.any Entry.latchDue || !settledFor older then (s, e)
      else
        let e1 := (List.range ops).foldl (fun e m => rowOp s older v (acc == 1) l (d.toNat + m) (row s older e l m) (flat s e l) e)
          ({ e with done := true } : Entry)
        (s.noteLatent e1 ((List.range ops).any fun m =>
          latentAt s older e v (fun _ => []) 32 (s.srcV older (d.toNat + m))), e1)

/-- Row elements from vector register `a`, at the element width of FA. -/
def vectorRow (s : State) (older : List Entry) (l : Latch) (a : Nat) (k : Nat) : Elt :=
  (s.srcV older a).get l.fmtA.elemWidth k

/-- The scale codes of operation m (R193). -/
def rowScales (s : State) (older : List Entry) (e : Entry) (l : Latch) (b : BitVec 6) (m j : Nat) : Elt :=
  if !l.bsen then .full 127
  else if b.toNat < 32 then (s.srcV older (b.toNat + m)).get 8 j
  else s.elt older e b 8 0

/-- `mmr`. -/
def planMmr (v : VCtl) (d a b : BitVec 6) (acc : BitVec 1) : Plan :=
  rowPlan v d b acc 1 (bname a) (fun _ => none) (fun _ _ => none) (fun _ => [])
    (fun s older e l m => ⟨vectorRow s older l (a.toNat + m), rowScales s older e l b m, fun _ => .full 0⟩)
    (fun _ _ _ => 0)

/-- `mmr.rep`: n operations against the one latch (R195). -/
def planMmrRep (v : VCtl) (d a b : BitVec 6) (acc : BitVec 1) (n : BitVec 3) : Plan :=
  rowPlan v d b acc (n.toNat + 1) (bname a) (fun _ => none) (fun _ _ => none) (fun _ => [])
    (fun s older e l m => ⟨vectorRow s older l (a.toNat + m), rowScales s older e l b m, fun _ => .full 0⟩)
    (fun _ _ _ => 0)

/-- `mmr.sk`: products that the skip mask names are left out (R174, R194). -/
def planMmrSk (v : VCtl) (d a b c : BitVec 6) (acc : BitVec 1) : Plan :=
  rowPlan v d b acc 1 (bname a ++ [.q c.toNat]) (fun _ => none) (fun _ _ => none) (fun _ => [])
    (fun s older e l m => ⟨vectorRow s older l (a.toNat + m), rowScales s older e l b m, fun k => s.qbit older c.toNat k⟩)
    (fun _ _ _ => 0)

/-- `mmr.t`: the row of a READY tile (R192, R193). -/
def planMmrT (v : VCtl) (d a b c : BitVec 6) (acc : BitVec 1) : Plan :=
  let p := rowPlan v d b acc 1 ([.t a.toNat] ++ sname c)
    (fun s => require ((s.tile a.toNat).st != .empty) (tileFault 1))
    (fun l s =>
      let t := s.tile a.toNat
      require (decide ((s.val c).toNat < t.rows) && some t.ew == l.fmtA.cls && decide (l.k ≤ t.cols)) (tileFault 7))
    (readWaits a.toNat)
    (fun s older e l m =>
      let t := s.tile a.toNat
      let r := (e.arg c).toNat
      ⟨fun k => if t.poison.getLsbD r then .poison else .full (getBits t.codes ((r * t.cols + k) * t.ebits) t.ebits),
        rowScales s older e l b m, fun _ => .full 0⟩)
    (fun s e _ => (e.arg c).toNat * (s.tile a.toNat).cols)
  { p with strict := true, resumed := fun s _ => (s.tile a.toNat).st == .draining }

end Sys2Proof.Machine
end

