-- ==== Sys2Proof/Machine/Memory.lean ====
section
/-!
DEFINITION. Loads and stores (13, R247–R260): the scalar accesses, the vector memory unit's contiguous, strided,
gathered and scattered accesses, pooled sums and scatter-adds.
-/

namespace Sys2Proof.Machine

/-! ### Scalar accesses (R254) -/

/-- The access form of a scalar access: only 64-bit ones reach FIFO banks and device registers (R220, R246). -/
def scalarForm (width : Nat) (store : Bool) : Form := if width = 8 then .scalar64 store else .data

/-- The FIFO bank that a place lies in, if it is one. -/
def State.fifoBank (s : State) (p : Place) : Option (Nat × Nat) :=
  match p with
  | .scratch b o => if (s.bank b).mode = 2 then some (b, o) else none
  | .near _ _ _ => none
  | .far _ _ => none
  | .peer _ _ _ => none
  | .devreg _ _ => none

/-- A loaded number as a register holds it: sign- or zero-extended. -/
def extended (signed : Bool) (width v : Nat) : Word :=
  if signed then BitVec.ofInt 64 (toSigned (8 * width) v) else BitVec.ofNat 64 v

/-- A scalar access complete, with its result in `d` where it has one (R254): its done bit is set. -/
def loaded (s : State) (e : Entry) (d : BitVec 6) (v : Word) : State × Entry :=
  (s.setVal d v, { e with done := true, pend := [], res := v, mask := 1 })

/-- The same without a result. -/
def performed (s : State) (e : Entry) : State × Entry := (s, { e with done := true, pend := [], mask := 1 })

/-- The read of a scalar load, its place known (R254). -/
def loadPlace (s : State) (e : Entry) (d : BitVec 6) (va : Word) (width : Nat) (signed : Bool) (p : Place) : State × Entry :=
  match p with
  | .devreg g o => loaded s e d (s.devRead g o)
  | .peer dv _ _ =>
    let s := s.noteReads [(p, width)]
    (match s.peerAnswer .read dv va width with
      | .val v => loaded s e d (extended signed width v)
      | .fail t => (s, { e with flt := some t })
      | .bad q => (s, { e with flt := some (memoryError 2 va q) })
      | .held => (s, e))
  | _ =>
    match s.fifoBank p with
    | some (b, 0) =>
      (match s.pop b s.cur.core s.cur.slot with
        | some (s1, v) => loaded s1 e d v
        | none => (s.joinBank b s.cur.core s.cur.slot false, { e with held := true }))
    | some (b, _) => loaded s e d (BitVec.ofNat 64 (s.bank b).status)
    | none =>
      if s.poisoned p then (s, { e with flt := some (memoryError 2 va p) })
      else loaded (s.noteReads [(p, width)]) e d (extended signed width (s.readNat p width))

/-- A scalar load (R254): its event takes its place after every older access's first one (R278, R279), and after the later
parts that touch its bytes (R280). -/
def planLoad (d a : BitVec 6) (imm : BitVec 20) (width : Nat) (signed : Bool) : Plan where
  cls := .m
  reads := sname a
  writes := sname d
  fire := fun s older e =>
    let va := e.arg a + imm20 imm
    if e.mask.getLsbD 0 then (s, { e with done := true, pend := [] })
    else if !allBegun older then (s, e)
    else
      let m := s.pagesOn e .read (scalarForm width false) [va]
      match s.checkIn m .read va width with
      | .error t => (s, { e with flt := some t })
      | .ok p =>
        if s.behind older p width then (s, e)
        else if s.tideHeld s.me va width || s.stalled p then (s, { e with held := true, pages := m })
        else loadPlace s { e with pages := m } d va width signed p

def planLdI8 (d a : BitVec 6) (imm : BitVec 20) : Plan := planLoad d a imm 1 true
def planLdI16 (d a : BitVec 6) (imm : BitVec 20) : Plan := planLoad d a imm 2 true
def planLdI32 (d a : BitVec 6) (imm : BitVec 20) : Plan := planLoad d a imm 4 true
def planLdI64 (d a : BitVec 6) (imm : BitVec 20) : Plan := planLoad d a imm 8 false
def planLdN8 (d a : BitVec 6) (imm : BitVec 20) : Plan := planLoad d a imm 1 false
def planLdN16 (d a : BitVec 6) (imm : BitVec 20) : Plan := planLoad d a imm 2 false
def planLdN32 (d a : BitVec 6) (imm : BitVec 20) : Plan := planLoad d a imm 4 false

/-- The write of a scalar store, its place known and every older access performed. Another device is sent it, and answers
for it (R253). -/
def storePlace (s : State) (e : Entry) (va : Word) (width : Nat) (v : Word) (p : Place) : State × Entry :=
  match p with
  | .devreg g o =>
    (match s.devWrite g o v with
      | some s1 => performed s1 e
      | none => (s.devBegin g o v, { e with held := true }))
  | _ =>
    match s.fifoBank p with
    | some (b, _) =>
      (match s.push b s.cur.core s.cur.slot v with
        | some s1 => performed s1 e
        | none => (s.joinBank b s.cur.core s.cur.slot true, { e with held := true }))
    | none =>
      let s1 := s.writeAll [(p, toBytes width v.toNat)]
      match s.homeVerdict .write (.ok p) width with
      | .error t => (s1, { e with flt := some { t with addr := va } })
      | .ok _ => performed s1 e

/-- A scalar store (R250, R254): it performs after every older memory access of the strand. -/
def planStore (d a : BitVec 6) (imm : BitVec 20) (width : Nat) : Plan where
  cls := .m
  reads := sname d ++ sname a
  fire := fun s older e =>
    let va := e.arg a + imm20 imm
    if e.mask.getLsbD 0 then (s, { e with done := true, pend := [] })
    else if !allDone older then (s, e)
    else
      let m := s.pagesOn e .write (scalarForm width true) [va]
      match s.checkIn m .write va width with
      | .error t => (s, { e with flt := some t })
      | .ok p =>
        if s.stalled p then (s, { e with held := true, pages := m })
        else storePlace s { e with pages := m } va width (e.arg d) p

def planSt8 (d a : BitVec 6) (imm : BitVec 20) : Plan := planStore d a imm 1
def planSt16 (d a : BitVec 6) (imm : BitVec 20) : Plan := planStore d a imm 2
def planSt32 (d a : BitVec 6) (imm : BitVec 20) : Plan := planStore d a imm 4
def planSt64 (d a : BitVec 6) (imm : BitVec 20) : Plan := planStore d a imm 8

/-! ### Addresses of elements (R256, R270) -/

/-- How the addresses of an instruction's elements are formed (R256). -/
inductive Way where
  | line (start : Word) (step : Int)
  | gather (start : Word) (k : Nat)
  | tensorRun (l : Int)
  | tensorIdx
  | seq (entry : Word)
deriving DecidableEq, Repr

/-- What is known of an element's address: `high` names the upper nibble of a byte, `scale` the address of its
block scale. -/
inductive Reach where
  | wait
  | poison
  | fail (t : Trap)
  | at_ (va : Word) (high : Bool) (scale : Option Word)
deriving DecidableEq, Repr

/-- The address of a tensor element (R169, R170). -/
def Tid.reach (t : Tid) (l : Int) : Reach :=
  match t.ofLinear l with
  | none => .fail { cause := 8 }
  | some c =>
    let a := t.addr c
    .at_ a.1 a.2 (if t.bsen then some (t.scaleAddr c) else none)

/-- The address of an element in the sequence-map form (R270): `o` is its byte offset. -/
def State.seqReach (s : State) (asid : Nat) (entry : Word) (o : Nat) : Reach :=
  match Tab.find s.smaps entry.toNat with
  | none => .fail { cause := 24 }
  | some m =>
    if m.asid ≠ asid then .fail { cause := 24 }
    else if o / m.rb < m.plen then .at_ (m.pbase + BitVec.ofNat 64 o) false none
    else
      let o2 := o - m.plen * m.rb
      if 2 ^ m.k * m.rb ≤ o2 then .fail { cause := 8 }
      else
        match m.grow with
        | some (fold, fprg) =>
          if o2 < 2 ^ (m.k - 1) * m.rb ∧ fprg ≤ o2 then .at_ (fold + BitVec.ofNat 64 o2) false none
          else .at_ (m.qbase + BitVec.ofNat 64 o2) false none
        | none => .at_ (m.qbase + BitVec.ofNat 64 o2) false none

/-- The address of element `i` (R256): `b` is the index operand, read at width `w`. A linear index is a signed number of
64 bits, and its sum wraps (R169). -/
def State.reach (s : State) (older : List Entry) (e : Entry) (way : Way) (b : BitVec 6) (w i : Nat) : Reach :=
  let index := fun (f : Nat → Reach) =>
    match s.elt older e b w i with
    | .empty => Reach.wait
    | .poison => .poison
    | .full x => f x
  match way with
  | .line start step => .at_ (start + BitVec.ofInt 64 (i * step)) false none
  | .gather start k => index fun x => .at_ (start + BitVec.ofNat 64 (x * k)) false none
  | .tensorRun l => e.tid.reach (BitVec.ofInt 64 (l + i)).toInt
  | .tensorIdx => index fun x => e.tid.reach (toSigned w x)
  | .seq entry => index fun x => s.seqReach s.me.asid entry (x * (w / 8))

/-- What a reached element touches, by address and width: its code and its block's scale. -/
def Reach.spans (r : Reach) (bytes : Nat) : List (Word × Nat) :=
  match r with
  | .at_ va _ sc => (va, bytes) :: sc.toList.map fun x => (x, 1)
  | .wait => []
  | .poison => []
  | .fail _ => []

/-- An element's address can be told, or it has none. -/
def Reach.known (r : Reach) : Bool := r != .wait

/-- What an inactive element would have read of its index (R325). -/
def Reach.spoilt (r : Reach) : List Elt := if r = .poison then [.poison] else []

/-! ### Tensor forms (R257) -/

/-- The identifier that a tensor form names is allotted and bound, and its format suits a read (R257). -/
def readCheck (td : Option (BitVec 6)) (ty : Ty) (s : State) : Option Trap :=
  match td with
  | none => none
  | some a =>
    let t := tidOf (Tab.get 0 s.me.td a.toNat)
    firstTrap [tidBound a.toNat s,
      require (if t.fmt.isInt then decide (t.fcode < 16) && tyOfNat t.fcode == ty
        else ty == .f32 || ty == .f16 || ty == .bf16) formatFault]

/-- The same for a write (R257). -/
def writeCheck (td : Option (BitVec 6)) (ty : Ty) (s : State) : Option Trap :=
  match td with
  | none => none
  | some a =>
    let t := tidOf (Tab.get 0 s.me.td a.toNat)
    firstTrap [tidBound a.toNat s, require (decide (t.fcode < 16) && tyOfNat t.fcode == ty && !t.bsen) formatFault]

/-- The names that a form's base operand reads. -/
def baseNames (td : Option (BitVec 6)) (a : BitVec 6) : List Name :=
  match td with
  | none => sname a
  | some t => [.td t.toNat]

/-- The entry with the identifier's copy, in a tensor form. -/
def Entry.forForm (e : Entry) (s : State) (td : Option (BitVec 6)) : Entry :=
  match td with
  | none => e
  | some t => e.withTid s t.toNat

/-- The bytes that one element takes in memory. -/
def Entry.eltBytes (e : Entry) (td : Option (BitVec 6)) (w : Nat) : Nat :=
  match td with
  | none => w / 8
  | some _ => e.tid.fmt.bytes

/-- The value of a read code (R257): raw, or decoded with its scale and rounded to ty. -/
def readValue (s : State) (e : Entry) (td : Option (BitVec 6)) (ty : Ty) (rm : Rm) (sat : Bool) (high : Bool)
    (code scale : Nat) : Fired :=
  match td with
  | none => .val code
  | some _ =>
    let t := e.tid
    if t.fmt.isInt then .val code
    else
      match t.value (codeOf t.fmt high code) scale with
      | none => .fault (reservedCode 0)
      | some v => encodeFired (fmtOfTy ty) (modeOf rm s.me.r.fctl) sat v

/-! ### Reads -/

/-- What a reached element of a read comes to. -/
inductive Outcome where
  | wait
  | held
  | fired (f : Fired)
deriving DecidableEq, Repr

/-- One element read (R247, R248), pages translated before. -/
def readElt (s : State) (older : List Entry) (m : Pages) (r : Reach) (bytes : Nat) (value : Bool → Nat → Nat → Fired) : Outcome :=
  match r with
  | .wait => .wait
  | .poison => .fired .poison
  | .fail t => .fired (.fault t)
  | .at_ va high sc =>
    let code := s.loadIn s.me older m .read va bytes
    let scale := match sc with
      | none => Got.val 0
      | some x => s.loadIn s.me older m .read x 1
    match code, scale with
    | .fail t, _ => .fired (.fault t)
    | _, .fail t => .fired (.fault t)
    | .held, _ => .held
    | _, .held => .held
    | .val c, .val k => .fired (value high c k)
    | _, _ => .fired .quiet

/-- A vector load as it goes: the fresh register, the done-mask, and what is missing. -/
structure Loading where
  reg   : VReg
  mask  : BitVec 2048
  open_ : Bool
  held  : Bool
  flt   : Option Trap
  bad   : Option Trap

/-- One element of a destination (R258, R317): an active element whose done bit is 0 fires; the others follow the
mask's policy and the tail rule. An element made POISON by its index or mask bit has not performed, and its done bit
stays 0 (R316). -/
def Loading.step (p : Loading) (w n : Nat) (zero : Bool) (q : Nat → Elt) (old : Nat → Elt) (out : Nat → Outcome)
    (i : Nat) : Loading :=
  let give := fun (x : Elt) => if x = .empty then { p with open_ := true } else { p with reg := p.reg.put w i x }
  let set := fun (x : Elt) => { p with reg := p.reg.put w i x, mask := putBits p.mask i 1 1 }
  let missing := { p with open_ := true }
  let eaten := fun k => { p with reg := p.reg.put w i .poison, bad := lowerTrap p.bad (some (poisonTrap k)) }
  if n ≤ i then (if p.reg.get w i = .empty then give (old i) else p)
  else if p.mask.getLsbD i then p
  else
    match q i with
    | .empty => missing
    | .poison => eaten i
    | .full 0 => if p.reg.get w i = .empty then (if zero then give (.full 0) else give (old i)) else p
    | .full _ =>
      match out i with
      | .wait => missing
      | .held => { missing with held := true }
      | .fired .wait => missing
      | .fired (.val v) => set (.full v)
      | .fired .poison => eaten i
      | .fired (.poisonAt k) => eaten k
      | .fired .quiet => set .poison
      | .fired (.copy x) => give x
      | .fired (.fault t) => { missing with flt := lowerTrap p.flt (some { t with elem := some i }) }

/-- A vector load of `n` elements goes on. -/
def loadGo (e : Entry) (d w n : Nat) (zero : Bool) (q old : Nat → Elt) (out : Nat → Outcome) : Entry :=
  let p := (List.range (16384 / w)).foldl (fun p i => p.step w n zero q old out i)
    (⟨e.freshV d, e.mask, false, false, none, e.bad⟩ : Loading)
  { e with
    vd := Tab.put e.vd d p.reg, mask := p.mask, begun := p.mask != 0, held := p.held, flt := p.flt, bad := p.bad, done := !p.open_ }

/-- The active elements below n whose done bit is 0, POISON mask bits among them. -/
def State.todo (s : State) (older : List Entry) (e : Entry) (v : VCtl) : List Nat :=
  (List.range (min e.n 2048)).filter fun i => !e.mask.getLsbD i && s.mask older v i != .full 0

/-- The operands of every such element are ready: the instruction's first event then performs as one (R276). -/
def State.ready (s : State) (older : List Entry) (v : VCtl) (todo : List Nat) (ok : Nat → Bool) : Bool :=
  todo.all fun i =>
    match s.mask older v i with
    | .empty => false
    | .poison => true
    | .full _ => ok i

/-- What the elements of an instruction that have still to come will touch (R276). -/
def State.restSpans (s : State) (older : List Entry) (e : Entry) (v : VCtl) (m : Pages) (acc : Acc) (r : Nat → Reach) (bytes : Nat) :
    List (Nat × Nat) :=
  let rest := (s.todo older e v).filter fun i => s.mask older v i != .poison
  s.laterSpans m acc (rest.all fun i => s.mask older v i != .empty && (r i).known) (rest.flatMap fun i => (r i).spans bytes)

/-- A vector load (R255–R258). -/
def readPlan (v : VCtl) (d a b : BitVec 6) (rm : Rm) (ty : Ty) (sat : BitVec 1) (td : Option (BitVec 6))
    (names : List Name) (way : Entry → Way) (form : Form := .data) : Plan where
  cls := .m
  lanes := true
  widths := some [ty.width]
  rereads := true
  reads := vnames v ++ baseNames td a ++ names
  writes := [.v d.toNat]
  w := ty.width
  len := some v.ls
  check := fun s => firstTrap [readCheck td ty s, lengthCheck v ty.width s]
  fire := fun s older e0 =>
    let e := e0.forForm s td
    let w := ty.width
    let todo := s.todo older e v
    let r := fun i => s.reach older e (way e) b w i
    if !e.begun && (!allBegun older || !s.ready older v todo fun i => (r i).known) then (s, e)
    else
      let bytes := e.eltBytes td w
      let spans := (todo.filter fun i => s.mask older v i != .empty && s.mask older v i != .poison).flatMap fun i => (r i).spans bytes
      let m := s.pagesOn e .read form (spans.map Prod.fst)
      if !e.begun && s.mustWait older m .read spans then (s, e)
      else
        let old := s.srcV older d.toNat
        let e1 := loadGo { e with pages := m } d.toNat w e.n (zeroed v) (fun i => s.mask older v i) (old.get w)
          fun i => readElt s older m (r i) bytes (readValue s e td ty rm (sat == 1))
        let e2 := { e1 with later := if e1.done then [] else s.restSpans older e1 v m .read r bytes }
        (((s.noteIn s.me older m .read spans).logBad m .read (spans.map Prod.fst)).noteLatent e2
          (latentAt s older e v (fun i => (r i).spoilt) w old), e2)

/-- The displacement of the contiguous and strided forms (R255). -/
def disp8 (disp : BitVec 8) : Word := disp.signExtend 64 * 64#64

/-- `vld` (R256). -/
def planVld (v : VCtl) (d a b : BitVec 6) (rm : Rm) (ty : Ty) (sat t : BitVec 1) (disp : BitVec 8) : Plan :=
  if t = 1 then readPlan v d a b rm ty sat (some a) (sname b) fun e => .tensorRun (e.arg b).toInt
  else readPlan v d a b rm ty sat none [] fun e => .line (e.arg a + disp8 disp) (ty.width / 8)

/-- `vlds` (R256). -/
def planVlds (v : VCtl) (d a b : BitVec 6) (ty : Ty) (disp : BitVec 8) : Plan :=
  readPlan v d a b .rne ty 0 none (sname b) fun e => .line (e.arg a + disp8 disp) (e.arg b).toInt

/-- The way of a gather or scatter by its MODE (R255). -/
def gatherWay (a : BitVec 6) (mode k : BitVec 2) (e : Entry) : Way :=
  match mode.toNat with
  | 0 => .gather (e.arg a) (2 ^ k.toNat)
  | 1 => .tensorIdx
  | _ => .seq (e.arg a)

/-- The identifier that a gather or scatter names, in MODE 1. -/
def modeTid (a : BitVec 6) (mode : BitVec 2) : Option (BitVec 6) := if mode = 1 then some a else none

/-- `vgat` (R256, R270). -/
def planVgat (v : VCtl) (d a b : BitVec 6) (rm : Rm) (ty : Ty) (sat : BitVec 1) (mode k : BitVec 2) : Plan :=
  readPlan v d a b rm ty sat (modeTid a mode) (bname b) (gatherWay a mode k)

/-! ### Writes -/

/-- The trap of a poisoned source (R247). -/
def poisonedSource (i : Nat) : Trap := poisonTrap i

/-- An element that is to be written, with its address. -/
structure Aim where
  i    : Nat
  va   : Word
  high : Bool

/-- The values of one event written: codes of the identifier's format, or raw. -/
def writeValues (s : State) (e : Entry) (td : Option (BitVec 6)) (w : Nat) (ws : List (Aim × Place × Nat)) : State :=
  match td with
  | none => s.writeAll (ws.map fun x => (x.2.1, toBytes (w / 8) x.2.2))
  | some _ => storeCodes s e.tid.fmt (ws.map fun x => (x.2.1, x.1.high, x.2.2))

/-- The elements of a store that fail singly (R249): bounds failures and poisoned sources. -/
def singleFault (q val : Elt) (r : Reach) (i : Nat) : Option Trap :=
  match q, r, val with
  | .poison, _, _ => some (poisonedSource i)
  | _, .poison, _ => some (poisonedSource i)
  | _, .fail t, _ => some { t with elem := some i }
  | _, _, .poison => some (poisonedSource i)
  | _, _, _ => none

/-- The lowest of many traps by element. -/
def lowestTrap (ts : List (Option Trap)) : Option Trap := ts.foldl lowerTrap none

/-- The checks that all elements of a store must pass before any is written (R249): the lowest that fails. -/
def wholeFault (s : State) (m : Pages) (acc : Acc) (bytes : Nat) (aims : List Aim) : Option Trap :=
  aims.findSome? fun a =>
    match s.checkOut m acc a.va bytes with
    | .error t => some { t with elem := some a.i }
    | .ok _ => none

/-- The elements with addresses among those to do. -/
def aimsOf (q : Nat → Elt) (r : Nat → Reach) (todo : List Nat) : List Aim :=
  todo.filterMap fun i =>
    match q i, r i with
    | .full _, .at_ va high _ => some ⟨i, va, high⟩
    | _, _ => none

/-- A vector store (R249, R250, R258). -/
def writePlan (v : VCtl) (a b c : BitVec 6) (ty : Ty) (td : Option (BitVec 6)) (names : List Name)
    (way : Entry → Way) : Plan where
  cls := .m
  lanes := true
  reads := vnames v ++ baseNames td a ++ names ++ bname c
  len := some v.ls
  check := fun s => firstTrap [writeCheck td ty s, lengthCheck v ty.width s]
  fire := fun s older e0 =>
    let e := e0.forForm s td
    let w := ty.width
    let todo := s.todo older e v
    let q := fun i => s.mask older v i
    let r := fun i => s.reach older e (way e) b w i
    let val := fun i => s.elt older e c w i
    if !allDone older || !s.ready older v todo fun i => (r i).known && val i != .empty then (s, e)
    else
      let bytes := e.eltBytes td w
      let aims := aimsOf q r todo
      let m := s.pagesOn e .write .data (aims.map Aim.va)
      let s0 := s.askHomes m .write 1 .i8 false (aims.map fun a => (a.va, bytes))
      match wholeFault s m .write bytes aims with
      | some t => (s0, { e with flt := some t })
      | none =>
        let writes := aims.filterMap fun a =>
          match val a.i, s.checkIn m .write a.va bytes with
          | .full x, .ok p => if s.stalled p then none else some (a, p, x)
          | _, _ => none
        let s1 := writeValues s0 e td w writes
        let flt := lowestTrap (todo.map fun i => singleFault (q i) (val i) (r i) i)
        let held := aims.any fun a =>
          match s.checkIn m .write a.va bytes with
          | .ok p => s.stalled p
          | .error _ => false
        let mask := writes.foldl (fun k x => putBits k x.1.i 1 1) e.mask
        let e1 := { e with
          mask := mask, begun := mask != 0, held := held, pages := m, flt := flt, done := flt.isNone && !held
          later := s.restSpans older { e with mask := mask } v m .write r bytes }
        (s1.noteLatent e1 (latentAt s older e v (fun i => val i :: (r i).spoilt) w VReg.zero), e1)

/-- `vst` (R256). -/
def planVst (v : VCtl) (a b c : BitVec 6) (ty : Ty) (t : BitVec 1) (disp : BitVec 8) : Plan :=
  if t = 1 then writePlan v a b c ty (some a) (sname b) fun e => .tensorRun (e.arg b).toInt
  else writePlan v a b c ty none [] fun e => .line (e.arg a + disp8 disp) (ty.width / 8)

/-- `vsts` (R256). -/
def planVsts (v : VCtl) (a b c : BitVec 6) (ty : Ty) (disp : BitVec 8) : Plan :=
  writePlan v a b c ty none (sname b) fun e => .line (e.arg a + disp8 disp) (e.arg b).toInt

/-- `vsca` (R256). -/
def planVsca (v : VCtl) (a b c : BitVec 6) (ty : Ty) (mode k : BitVec 2) : Plan :=
  writePlan v a b c ty (modeTid a mode) (bname b) (gatherWay a mode k)

/-! ### Pooled sums (R259) -/

/-- A sum in a type: the first term rounded, later ones added and rounded; integers wrap or saturate. -/
def poolAdd (ty : Ty) (mode : Mode) (sat : Bool) (acc : Option Nat) (x : Nat) : Nat :=
  match fmtOfTy ty with
  | .int _ _ =>
    (match acc with
      | none => x
      | some a => intAdd ty sat a x)
  | f =>
    let v := match acc with
      | none => tyVal ty x
      | some a => FVal.add (mode == .rdn) (tyVal ty a) (tyVal ty x)
    (f.encode mode sat v).getD 0

/-- What is known of one segment's terms: one is missing, one was read with an uncorrectable error (log 145), the lowest of
them that its index or its mask bit makes POISON, or their sum. -/
inductive Terms where
  | missing
  | spoilt
  | poison (i : Nat)
  | sum (acc : Option Nat)
deriving DecidableEq, Repr

/-- The terms of a segment in ascending element order. -/
def poolTerms (add : Option Nat → Nat → Nat) (x : Nat → Outcome) : List Nat → Terms → Terms
  | [], t => t
  | i :: rest, t =>
    let t1 := match t, x i with
      | .missing, _ => .missing
      | .sum a, .fired (.val v) => .sum (some (add a v))
      | t, .fired (.val _) => t
      | .poison k, .fired .poison => .poison k
      | _, .fired .poison => .poison i
      | .sum _, .fired .quiet => .spoilt
      | t, .fired .quiet => t
      | _, _ => .missing
    poolTerms add x rest t1

/-- `vgpool` (R259). Its done bits belong to segments, and a segment whose bit is 0 gathers anew (R317). -/
def planVgpool (v : VCtl) (d a b : BitVec 6) (rm : Rm) (c : BitVec 6) (ty : Ty) (sat : BitVec 1) (mode k : BitVec 2) :
    Plan where
  cls := .m
  lanes := true
  rereads := true
  reads := vnames v ++ baseNames (modeTid a mode) a ++ bname b ++ bname c
  writes := [.v d.toNat]
  w := ty.width
  len := some v.ls
  check := fun s => firstTrap [readCheck (modeTid a mode) ty s, lengthCheck v ty.width s]
  fire := fun s older e0 =>
    let td := modeTid a mode
    let e := e0.forForm s td
    let w := ty.width
    let all := List.range (min e.n 2048)
    let active := all.filter fun i => s.mask older v i != .full 0
    let r := fun i => s.reach older e (gatherWay a mode k e) b w i
    let seg := fun i => s.elt older e c w i
    let ready := all.all (fun i => seg i != .empty) && s.ready older v active fun i => (r i).known
    if !ready || (!e.begun && !allBegun older) then (s, e)
    else
      let beyond := active.find? fun i =>
        match seg i with
        | .full x => decide (e.n ≤ x)
        | .empty => false
        | .poison => false
      let spread := if active.any fun i => seg i == .poison then
          active.find? fun i => seg i == .poison || r i == .poison || s.mask older v i == .poison
        else none
      let needed := active.filter fun i =>
        match seg i with
        | .full x => decide (x < e.n) && !e.mask.getLsbD x
        | .empty => false
        | .poison => false
      let bytes := e.eltBytes td w
      let spans := (needed.filter fun i => s.mask older v i != .poison).flatMap fun i => (r i).spans bytes
      let m := s.pagesOn e .read .data (spans.map Prod.fst)
      if !e.begun && s.mustWait older m .read spans then (s, e)
      else
      let xs : Tab Outcome := needed.map fun i =>
        (i, if s.mask older v i == .poison then .fired .poison
          else readElt s older m (r i) bytes (readValue s e td ty rm (sat == 1)))
      let x := fun i => Tab.get Outcome.wait xs i
      let absent := lowestTrap (xs.map fun p =>
        match p.2 with
        | .fired (.fault t) => some { t with elem := some p.1 }
        | _ => none)
      let out := fun j =>
        if beyond.isSome then Outcome.wait
        else if let some i := spread then .fired (.poisonAt i)
        else
          match poolTerms (poolAdd ty (modeOf rm s.me.r.fctl) (sat == 1)) x (needed.filter fun i => seg i == .full j) (.sum none) with
          | .missing => .wait
          | .spoilt => .fired .quiet
          | .poison i => .fired (.poisonAt i)
          | .sum acc => .fired (.val (acc.getD 0))
      let e1 := loadGo { e with pages := m } d.toNat w e.n false (fun _ => .full 1) (fun i => (s.srcV older d.toNat).get w i) out
      let bounds : Option Trap := beyond.map fun i => { cause := 8, elem := some i }
      let e2 := { e1 with
        flt := lowerTrap bounds absent, held := xs.any fun p => p.2 == .held
        later := if e1.done then [] else
          s.laterSpans m .read true ((needed.filter fun i => s.mask older v i != .poison && (match seg i with
            | .full x => !e1.mask.getLsbD x
            | _ => true)).flatMap fun i => (r i).spans bytes) }
      (((s.noteIn s.me older m .read spans).logBad m .read (spans.map Prod.fst)).noteLatent e2
        (latentAt s older e v (fun i => seg i :: (r i).spoilt) w VReg.zero), e2)

/-! ### Scatter-add (R260) -/

/-- A group of elements that share an address: its leader, its members and the address. -/
structure Group where
  va   : Word
  list : List Nat

/-- The elements grouped by address, leaders ascending. -/
def groupAims (aims : List Aim) : List Group :=
  ((aims.map Aim.va).reverse.dedup.reverse).map fun va => ⟨va, (aims.filter fun a => a.va == va).map Aim.i⟩

/-- One add in this device's memory. -/
def addAt (s : State) (p : Place) (w : Nat) (ty : Ty) (sat : Bool) (x : Nat) : State :=
  s.storeAt p (w / 8) (poolAdd ty .rne sat (some (s.readNat p (w / 8))) x)

/-- The read of an add at memory meets an uncorrectable error (R260), here or at its home. -/
def State.addLost (s : State) (p : Place) (va : Word) (w : Nat) : Bool :=
  match p with
  | .peer d _ _ =>
    (match s.peerAnswer .atomic d va (w / 8) with
      | .bad _ => true
      | .val _ => false
      | .fail _ => false
      | .held => false)
  | _ => s.poisoned p

/-- `vsadd` (R260): each distinct address receives one add. Its reads are held by tide marks (R72). Every home is asked
first, and is sent its adds in one message (R253). -/
def planVsadd (v : VCtl) (a b c : BitVec 6) (ty : Ty) (sat : BitVec 1) (mode k : BitVec 2) : Plan where
  cls := .m
  lanes := true
  reads := vnames v ++ baseNames (modeTid a mode) a ++ bname b ++ bname c
  len := some v.ls
  check := fun s => firstTrap [writeCheck (modeTid a mode) ty s, lengthCheck v ty.width s]
  fire := fun s older e0 =>
    let td := modeTid a mode
    let e := e0.forForm s td
    let w := ty.width
    let todo := s.todo older e v
    let q := fun i => s.mask older v i
    let r := fun i => s.reach older e (gatherWay a mode k e) b w i
    let val := fun i => s.elt older e c w i
    if !allDone older || !s.ready older v todo fun i => (r i).known && val i != .empty then (s, e)
    else
      let aims := aimsOf q r todo
      let m := s.pagesOn e .atomic .data (aims.map Aim.va)
      let s0 := s.askHomes m .atomic 13 ty (sat == 1) (aims.map fun a => (a.va, w / 8))
      match wholeFault s m .atomic (w / 8) aims with
      | some t => (s0, { e with flt := some t })
      | none =>
        let value := fun i => match val i with
          | .full x => x
          | _ => 0
        let waits := fun va => match s.checkIn m .atomic va (w / 8) with
          | .ok p => s.tideHeld s.me va (w / 8) || s.stalled p
          | .error _ => false
        let groups := (groupAims (aims.filter fun a => val a.i != .poison)).filter fun g => !waits g.va
        let placed := groups.filterMap fun g => match s.checkIn m .atomic g.va (w / 8) with
          | .ok p => some (g, p)
          | .error _ => none
        let lost := placed.filter fun x => s.addLost x.2 x.1.va w
        let adds := placed.filterMap fun x => match x.1.list.map value with
          | [] => none
          | y :: ys => some (x.2, ys.foldl (fun acc z => poolAdd ty .rne (sat == 1) (some acc) z) y)
        let s1 := (adds.foldl (fun st x => if (x.1.peerElt 0 none 0 0).isSome || s.poisoned x.1 then st else
          addAt st x.1 w ty (sat == 1) x.2) s0).sendPeers 13 ty (sat == 1) (adds.filterMap fun x => x.1.peerElt (w / 8) none x.2 0)
        let bad := lost.foldl (fun t x => lowerTrap t (some { memoryError 3 x.1.va x.2 with elem := x.1.list.head? })) e.bad
        let flt := lowestTrap (todo.map fun i => singleFault (q i) (val i) (r i) i)
        let held := aims.any fun a => waits a.va
        let mask := groups.foldl (fun k g => g.list.foldl (fun k i => putBits k i 1 1) k) e.mask
        let e1 := { e with
          mask := mask, begun := mask != 0, held := held, pages := m, flt := flt, bad := bad, done := flt.isNone && !held
          later := s.restSpans older { e with mask := mask } v m .atomic r (w / 8) }
        (s1.noteLatent e1 (latentAt s older e v (fun i => val i :: (r i).spoilt) w VReg.zero), e1)

end Sys2Proof.Machine
end

