-- ==== Sys2Proof/Machine/Tlb.lean ====
section
/-!
DEFINITION. Translation control (11, R227, R228, R234–R236): `tlbinv`, `pprobe` and `asid.sw`.
-/

namespace Sys2Proof.Machine

/-- A translation-control trap (R305 cause 26). -/
def translationControl (reason : Nat) : Trap := { cause := 26, info := reason }

/-- Where a walk under an ASID may read an entry for an address (R217, R227): the physical places of every entry, from
a table at a level down, over all the versions it may meet. -/
def State.walkPlaces (s : State) (asid : Nat) (va : Word) : (level : Nat) → (table : Nat) → List Nat
  | 0, table => [(nearPhys 0 (table + 8 * field va 16 5)).getD 0]
  | l + 1, table =>
    let entry := table + 8 * field va (12 + 9 * (l + 1)) 9
    (nearPhys 0 entry).getD 0 :: (s.entryVersions asid entry).flatMap fun w =>
      if field w 0 1 = 1 ∧ field w 5 1 = 0 then s.walkPlaces asid va l (field w 8 40 * 256) else []

/-- Cached entries of an ASID dropped, where `hit` covers them (R234): translations under it read the tables as they
stand from now on. -/
def State.dropEntries (s : State) (asid : Nat) (hit : Nat → Bool) : State :=
  { s with stale := s.stale.map fun e => if hit e.addr then { e with dead := asid :: e.dead } else e }

/-- Every cached entry of an ASID dropped. -/
def State.dropAsid (s : State) (asid : Nat) : State := s.dropEntries asid fun _ => true

/-- Every cached entry of an ASID dropped that covers an address. -/
def State.dropPage (s : State) (asid : Nat) (va : Word) : State :=
  match Tab.find s.asids asid with
  | none => s
  | some a =>
    let places := s.walkPlaces asid va 4 (a.root * 4096)
    s.dropEntries asid fun p => places.contains p

/-- A meaning that takes effect once every older memory access of the strand has performed, and then completes. -/
def afterOlder (f : State → Entry → State) : State → List Entry → Entry → State × Entry :=
  fun s older e => if allDone older then (f s e, { e with done := true, pend := [] }) else (s, e)

/-- The page of an access was translated through an entry that covers an address (R234): the non-leaf entry of level 4
covers every page that shares bits [63:48] with it. -/
def coversPage (va : Word) (p : Nat × PageRes) : Bool :=
  match p.2 with
  | .ok _ => p.1 / 2 ^ 32 == va.toNat / 2 ^ 48
  | .bad _ => false

/-- Accesses of other strands that are translated and have not performed (R226), by core, slot, cycle of issue and place in
the convoy: those whose pages `hit` tells. -/
def State.heldBy (s : State) (hit : Strand → Nat × PageRes → Bool) : List (Nat × Nat × Nat × Nat) :=
  s.cores.flatMap fun c => c.2.slots.flatMap fun t =>
    if c.1 == s.cur.core && t.1 == s.cur.slot then []
    else ((t.2.flight.flatMap Convoy.entries).filter fun e => e.reaches (hit t.2)).map fun e =>
      (c.1, t.1, e.stamp, e.pos)

/-- Numbers four by four. -/
def quads : List Nat → List (Nat × Nat × Nat × Nat)
  | a :: b :: c :: d :: r => (a, b, c, d) :: quads r
  | _ => []

/-- `tlbinv` (R234): once every older access has performed it removes the entries, and it completes when every access that
was translated through one of them has performed. `aux` names those accesses. -/
def invFire (f : State → Entry → State) (hit : Entry → Strand → Nat × PageRes → Bool) :
    State → List Entry → Entry → State × Entry :=
  fun s older e =>
    match e.aux with
    | _ :: r =>
      let now := s.heldBy fun _ _ => true
      if (quads r).any now.contains then (s, { e with held := true }) else (s, { e with done := true, pend := [] })
    | [] =>
      if !allDone older then (s, e)
      else
        let open_ := s.heldBy (hit e)
        if open_.isEmpty then (f s e, { e with done := true, pend := [] })
        else (f s e, { e with held := true, aux := 1 :: open_.flatMap fun x => [x.1, x.2.1, x.2.2.1, x.2.2.2] })

/-- The check of an ASID operand (R234). -/
def asidCheck (a : BitVec 6) (s : State) : Option Trap := require (decide ((s.val a).toNat ≤ 255)) (translationControl 1)

/-- `tlbinv.pg` (R234). -/
def planTlbinvPg (a b : BitVec 6) : Plan where
  lvl := .s
  strict := true
  mem := true
  reads := sname a ++ sname b
  check := fun s => firstTrap [asidCheck a s, require (canonical (s.val b)) (translationControl 2)]
  fire := invFire (fun s e => (s.dropPage (e.arg a).toNat (e.arg b)).retryEngines)
    fun e t p => t.asid == (e.arg a).toNat && coversPage (e.arg b) p

/-- `tlbinv.as` (R234). -/
def planTlbinvAs (a : BitVec 6) : Plan where
  lvl := .s
  strict := true
  mem := true
  reads := sname a
  check := asidCheck a
  fire := invFire (fun s e => (s.dropAsid (e.arg a).toNat).retryEngines) fun e t _ => t.asid == (e.arg a).toNat

/-- `tlbinv.all` (R234). -/
def planTlbinvAll : Plan where
  lvl := .s
  mem := true
  fire := invFire (fun s _ => { s with stale := [] }.retryEngines) fun _ _ _ => true

/-- What `pprobe` answers for an address (R235): the reason as a number where it fails (log 44). -/
def State.probe (s : State) (core asid : Nat) (lvl : Level) (va : Word) : Word :=
  match s.leafFor (clusterOf core) asid lvl .read (.scalar64 false) va with
  | .error r => BitVec.ofNat 64 r
  | .ok l =>
    let w := (l.raw &&& ~~~0xC0#64) ||| BitVec.ofNat 64 (l.size * 64)
    if lvl = .u then w &&& ~~~0x01FFFFFFFFFF0000#64 else w

/-- `pprobe` (R235). -/
def planPprobe (d a : BitVec 6) : Plan where
  reads := sname a
  writes := sname d
  fire := Plan.scalar d fun s => s.probe s.cur.core s.me.asid s.me.lvl (s.val a)

/-- `asid.sw.set` (R236). Its checks are made at issue. The strand's ASID changes once every older convoy has retired, whose
accesses stay in the old address space; until then no younger convoy is fetched (log 42). -/
def planAsidSwSet (a : BitVec 6) : Plan where
  lvl := .s
  cls := .z
  strict := true
  mem := true
  reads := sname a
  check := fun s =>
    firstTrap [asidCheck a s, require (Tab.find s.asids (s.val a).toNat).isSome (translationControl 3)]
  fire := fun s older e =>
    if !older.isEmpty then (s, e)
    else (s.setMe { s.me with asid := (e.arg a).toNat }, { e with done := true, pend := [] })

/-- An address-space record (R228), or none where it is malformed. -/
def asidRecord (bs : List Byte) : Option Asid :=
  let d0 := dwordOf bs 0
  let d1 := dwordOf bs 1
  if field d0 0 12 = 0 ∧ field d0 48 16 = 0 ∧ field d1 16 48 = 0 ∧ field d0 12 36 * 4096 < nearBytes then
    some ⟨field d0 12 36, field d1 0 16⟩
  else none

/-- The sixteen bytes at any address that `asid.sw.bind` reads (R236): the dwords that hold them. -/
def State.recordRead (s : State) (r : Word) : Own :=
  let base := r - BitVec.ofNat 64 (r.toNat % 8)
  match s.ownRead s.me s.cur.core (fun why x => pageFault why .read (if x = base then r else x)) base
    (if r.toNat % 8 = 0 then 2 else 3) with
  | .ok bs => .ok ((bs.drop (r.toNat % 8)).take 16)
  | .held => .held
  | .trap f => .trap f

/-- `asid.sw.bind` (R236, R385). -/
def planAsidSwBind (d a b : BitVec 6) : Plan where
  lvl := .s
  cls := .z
  mem := true
  reads := sname a ++ sname b
  writes := sname d
  fire := fun s older e =>
    let n := (e.arg a).toNat
    let r := e.arg b
    if 255 < n then answer s e d (-32)
    else if (Tab.find s.asids n).isSome then answer s e d (-33)
    else if !allDone older then (s, e)
    else
      match s.recordRead r with
      | .held => (s, { e with held := true })
      | .trap f => (s, { e with flt := some f })
      | .ok bs =>
        if r.toNat % 16 ≠ 0 then answer s e d (-34)
        else
          let s1 := s.ownNote s.me s.cur.core r 2
          match asidRecord bs with
          | none => answer s1 e d (-34)
          | some x => answer { s1 with asids := Tab.put s1.asids n x } e d 0

/-- A strand, a queued or running launch or an engine context uses an ASID (R236). -/
def State.asidUsed (s : State) (n : Nat) : Bool :=
  (s.cores.any fun c => c.2.slots.any fun t => t.2.asid == n) ||
    (s.launches.any fun l => l.2.asid == n && !l.2.retired) ||
    s.cmds.any fun c => c.2.asid == n && !c.2.fin

/-- What `asid.sw.drop` answers. -/
def State.dropCode (s : State) (n : Nat) : Int :=
  if 255 < n then -32
  else if n = 0 then -38
  else if (Tab.find s.asids n).isNone then -36
  else if s.asidUsed n then -37
  else 0

/-- `asid.sw.drop` (R236). It drops cached entries as `tlbinv.as` does, after every older access. -/
def planAsidSwDrop (d a : BitVec 6) : Plan where
  lvl := .s
  cls := .z
  mem := true
  reads := sname a
  writes := sname d
  fire := fun s older e =>
    let n := (e.arg a).toNat
    if s.dropCode n ≠ 0 then answer s e d (s.dropCode n)
    else if !allDone older then (s, e)
    else answer { s.dropAsid n with asids := Tab.del s.asids n } e d 0

end Sys2Proof.Machine
end

