-- ==== Sys2Proof/Machine/Engines.lean ====
section
/-!
DEFINITION. Timeline counters and the copy engines (13, R262–R273; 11, R233; 16, R332): commands, bulk copies,
migration, sequence maps and slabs.
-/

namespace Sys2Proof.Machine

/-! ### Timeline counters (R262, R264) -/

/-- A counter of a core. -/
def State.ctr (s : State) (core n : Nat) : Ctr := Tab.get Ctr.free (s.core core).ctrs n

/-- A counter changed. -/
def State.setCtr (s : State) (core n : Nat) (c : Ctr) : State :=
  s.setCore core { s.core core with ctrs := Tab.set Ctr.free (s.core core).ctrs n c }

/-- The physical counter that a name of the strand stands for. -/
def State.tlPhys (s : State) (n : BitVec 6) : Nat := s.me.tl.getD n.toNat 0

/-- The counter that a name of the strand stands for. -/
def State.tl (s : State) (n : BitVec 6) : Ctr := s.ctr s.cur.core (s.tlPhys n)

/-- A timeline fault (R305 cause 20). -/
def timelineFault : Trap := { cause := 20 }

/-- A counter name within the allotment (R262). -/
def tlAllotted (n : BitVec 6) (s : State) : Option Trap := require (decide (n.toNat < s.me.tl.length)) timelineFault

/-- `wait.tl` (R264): it waits before it issues. It completes after every older access of the strand, and until then no
younger one performs (log 116). -/
def planWaitTl (a b : BitVec 6) : Plan where
  strict := true
  mem := true
  reads := sname b ++ [.tl a.toNat]
  waits := fun s =>
    if (tlAllotted a s).isNone && decide ((s.val b).toNat ≤ (s.tl a).iss) && decide ((s.tl a).done < (s.val b).toNat)
    then [4] else []
  check := fun s => firstTrap [tlAllotted a s, require (decide ((s.val b).toNat ≤ (s.tl a).iss)) timelineFault]
  fire := afterOlder fun s _ => s

/-- `tl.next` (R264). -/
def planTlNext (d a : BitVec 6) : Plan where
  reads := [.tl a.toNat]
  writes := sname d
  check := tlAllotted a
  fire := Plan.scalar d fun s => BitVec.ofNat 64 ((s.tl a).iss + 1)

/-! ### Commands (R263) -/

/-- A counter pinned for a saved strand is free again once its commands have completed (R262, R322). -/
def State.letGo (s : State) (core ctr : Nat) : State :=
  let k := s.ctr core ctr
  if k.mine.isSome && k.done == k.iss then s.setCtr core ctr (if k.pins = 0 then Ctr.free else { k with mine := none })
  else s

/-- A counter's DONE follows its completed commands: it rises over those that are finished (R263). -/
def State.advanceDone (s : State) (core ctr : Nat) : (fuel : Nat) → State
  | 0 => s.letGo core ctr
  | fuel + 1 =>
    let k := s.ctr core ctr
    match s.cmds.find? fun c => c.2.core == core && c.2.ctr == ctr && c.2.num == k.done + 1 && c.2.fin with
    | none => s.letGo core ctr
    | some c =>
      ({ s with cmds := Tab.del s.cmds c.1 }.setCtr core ctr { k with done := k.done + 1 }).advanceDone core ctr fuel

/-- A command has completed: its counter is pinned by one less, and DONE rises as far as it may. -/
def State.finishCmd (s : State) (id : Nat) : State :=
  match Tab.find s.cmds id with
  | none => s
  | some c =>
    if c.fin then s
    else
      let k := s.ctr c.core c.ctr
      ({ s with cmds := Tab.put s.cmds id { c with fin := true } }.setCtr c.core c.ctr { k with pins := k.pins - 1 }
        ).advanceDone c.core c.ctr (s.cmds.length + 1)

/-- Commands of a core that have not completed. -/
def State.outstanding (s : State) (core : Nat) : Nat := (s.cmds.filter fun c => c.2.core == core && !c.2.fin).length

/-- A convoy whose command would be one too many waits (R263). -/
def commandWaits (s : State) : List Nat := if 64 ≤ s.outstanding s.cur.core then [4] else []

/-- A command issued: it takes the next number of its counter. -/
def State.takeNumber (s : State) (c : Cmd) : State × Nat :=
  let k := s.ctr c.core c.ctr
  let s1 := s.setCtr c.core c.ctr { k with iss := k.iss + 1, pins := k.pins + 1 }
  ({ s1 with cmds := Tab.put s1.cmds s.nextCmd { c with num := k.iss + 1 }, nextCmd := s.nextCmd + 1 }, k.iss + 1)

/-- The command of a strand's counter with a number. -/
def State.cmdOf (s : State) (core ctr num : Nat) : Option (Nat × Cmd) :=
  s.cmds.find? fun c => c.2.core == core && c.2.ctr == ctr && c.2.num == num

/-- A new command of the strand that acts, on the counter of a name. -/
def State.newCmd (s : State) (n : BitVec 6) (kind : Nat) (dst src : Word) (len entry : Nat) : Cmd where
  kind := kind
  core := s.cur.core
  ctr := s.tlPhys n
  num := 0
  asid := s.me.asid
  lvl := s.me.lvl
  dst := dst
  src := src
  len := len
  entry := entry
  begun := false
  stop := none
  sent := false
  logged := false
  fin := false

/-- A command changed. -/
def State.putCmd (s : State) (id : Nat) (c : Cmd) : State := { s with cmds := Tab.put s.cmds id c }

/-- An event due. -/
def State.due (s : State) (e : Instr) : State := { s with agenda := s.agenda ++ [e] }

/-- A sequence-map entry of four dwords (R269). -/
def smapOf (pbase qbase d2 : Word) : Smap := ⟨pbase, qbase, field d2 0 32, field d2 32 5, field d2 40 8, field d2 48 16, none⟩

/-- A command begins, once: its strand's older accesses have performed (R265, R268, R272, R273). -/
def State.beginCmd (s : State) (id : Nat) (c : Cmd) : State :=
  if c.begun then s
  else
    let s1 := s.putCmd id { c with begun := true }
    match c.kind with
    | 1 => s1.due (if c.len = 0 then .commandComplete id else .tcopyChunk id)
    | 2 =>
      (match s.leafOf c.asid c.dst with
        | .error _ => s1.due (.commandComplete id)
        | .ok l =>
          ({ s1 with migs := ⟨l.cls, l.frame, c.src, 0, id⟩ :: s1.migs }).due (.migrationLineCopy id))
    | 3 =>
      (match Tab.find s.smaps c.entry with
        | none => s1.due (.commandComplete id)
        | some m =>
          ({ s1.putCmd id { c with begun := true, src := m.qbase, len := 2 ^ m.k * m.rb, asid := m.asid } with
              smaps := Tab.put s1.smaps c.entry { m with qbase := c.dst, k := m.k + 1, grow := some (m.qbase, 0) } }).due
            (.slabLineCopy id))
    | _ =>
      ({ s1 with smaps :=
          if c.len = 0 then Tab.del s1.smaps c.entry
          else Tab.put s1.smaps c.entry (smapOf c.dst c.src (BitVec.ofNat 64 c.len)) }).due (.commandComplete id)

/-- What an instruction that issues a command does: it takes a number at issue, and the command begins after every
older access of the strand (R263). `res` is the number. -/
def commandFire (n : BitVec 6) (make : State → Entry → Cmd) : State → List Entry → Entry → State × Entry :=
  fun s older e =>
    let (s1, num) := if e.res = 0 then s.takeNumber (make s e) else (s, e.res.toNat)
    let e1 := { e with res := BitVec.ofNat 64 num }
    if allDone older then
      (match s1.cmdOf s.cur.core (s.tlPhys n) num with
        | none => (s1, { e1 with done := true, pend := [] })
        | some (id, c) => (s1.beginCmd id c, { e1 with done := true, pend := [] }))
    else (s1, e1)

/-- A command whose instruction was saved before it could begin does so when its convoy retires. -/
def commandRetire (n : Nat) (s : State) (e : Entry) : State :=
  match s.cmdOf s.cur.core (s.me.tl.getD n 0) e.res.toNat with
  | none => s
  | some (id, c) => s.beginCmd id c


/-! ### Bulk copies (R265–R268) -/

/-- A copy fault (R305 cause 25). -/
def copyFault : Trap := { cause := 25 }

/-- Virtual ranges of n bytes that overlap. -/
def rangesOverlap (a b : Word) (n : Nat) : Bool := n != 0 && (decide ((a - b).toNat < n) || decide ((b - a).toNat < n))

/-- `tcopy` (R265). It names its counter as read alone (log 120). -/
def planTcopy (d a b c : BitVec 6) : Plan where
  cls := .m
  mem := false
  strict := true
  reads := sname a ++ sname b ++ sname c ++ [.tl d.toNat]
  waits := commandWaits
  check := fun s =>
    firstTrap [tlAllotted d s, require (!rangesOverlap (s.val a) (s.val b) (s.val c).toNat) copyFault]
  fire := commandFire d fun s e => s.newCmd d 1 (e.arg a) (e.arg b) (e.arg c).toNat 0
  ending := .command d.toNat

/-- The leaf of a page that `tcopy.mig` may migrate, with the old leaf's image (R268). -/
def State.migrates (s : State) (asid : Nat) (va old : Word) : Bool :=
  va.toNat % 65536 == 0 &&
    (match s.leafOf asid va with
      | .error _ => false
      | .ok l =>
        l.mig && l.size == 0 && l.cls ≤ 1 && skewOk l && field old 59 3 == l.cls && !s.leafBad old 0 &&
          skewOk { l with skew := field old 57 2, frame := field old 16 32 } &&
          !(s.migs.any fun m => m.cls == l.cls && m.frame == l.frame))

/-- `tcopy.mig` (R268). -/
def planTcopyMig (d a b : BitVec 6) : Plan where
  lvl := .s
  cls := .m
  mem := false
  strict := true
  reads := sname a ++ sname b ++ [.tl d.toNat]
  waits := commandWaits
  check := fun s => firstTrap [tlAllotted d s, require (s.migrates s.me.asid (s.val a) (s.val b)) copyFault]
  fire := commandFire d fun s e => s.newCmd d 2 (e.arg a) (e.arg b) 65536 0
  ending := .command d.toNat

/-- The dwords of a stopped command's progress record (R267). -/
def Cmd.record (c : Cmd) : List Word :=
  let (reason, va) := c.stop.getD (0, 0)
  [BitVec.ofNat 64 (c.kind + reason * 2 ^ 8 + c.asid * 2 ^ 16 + c.core * 2 ^ 24 + c.ctr * 2 ^ 33),
    BitVec.ofNat 64 c.num, c.dst, c.src, BitVec.ofNat 64 c.len, va, BitVec.ofNat 64 c.entry, 0]

/-- The stopped command that a progress record names, unchanged but for the source of the next chunk (R266). -/
def State.stoppedBy (s : State) (core ctr : Nat) (rec : List Word) : Option (Nat × Cmd) :=
  s.cmds.find? fun c =>
    c.2.stop.isSome && c.2.sent && c.2.core == core && c.2.ctr == ctr && (c.2.record.set 3 0) == (rec.set 3 0)

/-- The record at the address that `tcopy.res` names. -/
def State.resumeRecord (s : State) (va : Word) : Own :=
  match s.ownRead s.me s.cur.core (fun r x => pageFault r .read x) va 8 with
  | .ok bs => if va.toNat % 64 = 0 then .ok bs else .trap copyFault
  | .held => .held
  | .trap t => if va.toNat % 64 ≠ 0 ∧ t.cause ≠ 6 then .trap copyFault else .trap t

/-- The eight dwords of a record's bytes. -/
def recordOf (bs : List Byte) : List Word := (List.range 8).map (dwordOf bs)

/-- A stopped command goes on from its record (R266). -/
def State.resumeCmd (s : State) (id : Nat) (c : Cmd) (src : Word) : State :=
  (s.putCmd id { c with src := src, stop := none, sent := false, logged := false }).due
    (if c.kind = 3 then .slabLineCopy id else .tcopyChunk id)

/-- `tcopy.res` (R266). It takes no number. Its record is read, and checked, when it takes its place after the strand's
older accesses (R278). -/
def planTcopyRes (d a : BitVec 6) : Plan where
  lvl := .s
  cls := .m
  reads := sname a ++ [.tl d.toNat]
  check := tlAllotted d
  fire := fun s older e =>
    if !allDone older then (s, e)
    else
      match s.resumeRecord (e.arg a) with
      | .held => (s, { e with held := true })
      | .trap t => (s, { e with flt := some t })
      | .ok bs =>
        match s.stoppedBy s.cur.core (s.tlPhys d) (recordOf bs) with
        | none => (s, { e with flt := some copyFault })
        | some (id, c) =>
          ((s.ownNote s.me s.cur.core (e.arg a) 8).resumeCmd id c (dwordOf bs 3), { e with done := true, pend := [], mask := 1 })

/-! ### What the engines do -/

/-- A command stops (R266), and its record is to be written (R332). -/
def State.stopCmd (s : State) (id : Nat) (c : Cmd) (reason : Nat) (va : Word) : State :=
  (s.putCmd id { c with stop := some (reason, va), sent := false, logged := false }).due (.engineFaultQueueWrite id)

/-- Pages of a range translated for an engine (R221, R265): the first that fails gives reason and address. -/
def State.enginePages (s : State) (c : Cmd) (acc : Acc) (va : Word) (n : Nat) : Except (Nat × Word) (List (Nat × Leaf)) :=
  s.pages (clusterOf c.core) c.asid c.lvl acc .data va (pagesOf va n)

/-- What one read byte of a copy comes to. -/
inductive Copied where
  | byte (b : Byte)
  | stall
  | stop (reason : Nat)
deriving DecidableEq, Repr

/-- A byte read by an engine. -/
def State.engineByte (s : State) (ls : List (Nat × Leaf)) (va : Word) : Copied :=
  let p := s.spot ls va
  if s.reelLive p then .stop 9
  else if s.stalled p then .stall
  else if s.poisoned p then .stop 10
  else
    match p with
    | .peer d _ _ =>
      (match s.peerAnswer .read d va 1 with
        | .val v => .byte (BitVec.ofNat 8 v)
        | .fail t => .stop (t.info % 2 ^ 8)
        | .bad _ => .stop 10
        | .held => .stall)
    | _ => .byte (s.readByte p)

/-- A run of bytes read by an engine, or what ends it. -/
inductive CopiedRun where
  | ok (bs : List Byte)
  | stall
  | stop (reason : Nat) (va : Word)
deriving DecidableEq, Repr

/-- `n` bytes from an address on. -/
def State.engineRead (s : State) (ls : List (Nat × Leaf)) (va : Word) : (n : Nat) → (acc : List Byte) → CopiedRun
  | 0, acc => .ok acc.reverse
  | n + 1, acc =>
    match s.engineByte ls va with
    | .byte b => s.engineRead ls (va + 1#64) n (b :: acc)
    | .stall => .stall
    | .stop r => .stop r va

/-- Bytes cut where their addresses pass a 64-byte line of a virtual range. -/
def vaLines : (fuel : Nat) → (va : Word) → List Byte → List (Word × List Byte)
  | 0, _, _ => []
  | fuel + 1, va, bs =>
    let n := 64 - va.toNat % 64
    if bs.isEmpty then [] else (va, bs.take n) :: vaLines fuel (va + BitVec.ofNat 64 n) (bs.drop n)

/-- What keeps an engine from writing lines: the first that fails, with its address, or a stall. -/
def State.engineWriteStop (s : State) (ls : List (Nat × Leaf)) (lines : List (Word × List Byte)) : Option CopiedRun :=
  lines.findSome? fun l =>
    let p := s.spot ls l.1
    if s.reelLive p then some (.stop 9 l.1)
    else if s.stalled p then some .stall
    else
      match s.homeVerdict .write (.ok p) l.2.length with
      | .error t => some (.stop (t.info % 2 ^ 8) l.1)
      | .ok _ => none

/-- One piece of a copy: `n` bytes from src to dst, both wholly translated and readable before any is written. -/
def State.copyPiece (s : State) (c : Cmd) (n : Nat) : CopiedRun × State :=
  match s.enginePages c .write c.dst n, s.enginePages c .read c.src n with
  | .error (r, va), _ => (.stop r va, s)
  | _, .error (r, va) => (.stop r va, s)
  | .ok dls, .ok sls =>
    match s.engineRead sls c.src n [] with
    | .stall => (.stall, s)
    | .stop r va => (.stop r va, s)
    | .ok bs =>
      let lines := vaLines (n + 1) c.dst bs
      match s.engineWriteStop dls lines with
      | some x => (x, s)
      | none => (.ok bs, lines.foldl (fun st l => st.writeBytes (st.spot dls l.1) l.2) s)

/-- One chunk of a `tcopy` (R265): it ends at the next 64 KiB boundary of the destination. -/
def State.chunk (s : State) (id : Nat) : State :=
  match Tab.find s.cmds id with
  | none => s
  | some c =>
    if c.kind ≠ 1 ∨ !c.begun ∨ c.fin ∨ c.stop.isSome then s
    else
      let n := min c.len (65536 - c.dst.toNat % 65536)
      match s.copyPiece c n with
      | (.stall, _) => s.due (.tcopyChunk id)
      | (.stop r va, _) => s.stopCmd id c r va
      | (.ok _, s1) =>
        (s1.putCmd id { c with dst := c.dst + BitVec.ofNat 64 n, src := c.src + BitVec.ofNat 64 n, len := c.len - n }).due
          (if c.len = n then .commandComplete id else .tcopyChunk id)

/-- One line of a growing slab (R273). -/
def State.slabLine (s : State) (id : Nat) : State :=
  match Tab.find s.cmds id with
  | none => s
  | some c =>
    if c.kind ≠ 3 ∨ !c.begun ∨ c.fin ∨ c.stop.isSome then s
    else
      let n := min c.len 64
      match s.copyPiece c n with
      | (.stall, _) => s.due (.slabLineCopy id)
      | (.stop r va, _) => s.stopCmd id c r va
      | (.ok _, s1) =>
        let s2 := s1.putCmd id { c with dst := c.dst + 64#64, src := c.src + 64#64, len := c.len - n }
        let s3 := match Tab.find s2.smaps c.entry with
          | none => s2
          | some m =>
            let grow := if c.len = n then none else m.grow.map fun (g : Word × Nat) => (g.1, g.2 + 64)
            { s2 with smaps := Tab.put s2.smaps c.entry { m with grow := grow } }
        s3.due (if c.len = n then .commandComplete id else .slabLineCopy id)

/-- One line of a migrating page (R233): copied from the old home to the new, poison with it. The copy writes the block,
so that monitors and links on it end (R98, R275, R297). -/
def State.migrateLine (s : State) (id : Nat) : State :=
  match s.migs.find? fun m => m.cmd == id, Tab.find s.cmds id with
  | some m, some c =>
    (match s.leafOf c.asid c.dst with
      | .error _ => s.due (.migrationLineCopy id)
      | .ok l =>
        let off := 64 * m.copied
        let src := homeOf m.cls (field m.old 57 2) l.key (field m.old 16 32) off
        let dst := homeOf m.cls l.skew l.key m.frame off
        let bad := s.poisoned src
        let s1 := ((s.seeWrite src).writeBytes dst (s.readBytes src 64)).moveCode src dst
        let s2 := match bad, s.lineId dst with
          | true, some n => { s1 with poison := Tab.put s1.poison n true }
          | _, _ => s1
        let more := fun (x : Migration) => if x.cmd = id then { x with copied := x.copied + 1 } else x
        let rest := fun (x : Migration) => x.cmd != id
        if m.copied + 1 = 1024 then ({ s2 with migs := s2.migs.filter rest } : State).due (.commandComplete id)
        else ({ s2 with migs := s2.migs.map more } : State).due (.migrationLineCopy id))
  | _, _ => s

/-- The progress record of a stopped command written into the engine-fault queue, if it may be (R332). The location in the
error record is that of the slot, or its virtual address where it does not translate (log 99). -/
def State.faultQueueWrite (s : State) (id : Nat) : State :=
  match Tab.find s.cmds id with
  | none => s
  | some c =>
    if c.stop.isNone ∨ c.sent ∨ s.efqb = 0 ∨ (s.efqHead + 65536 - s.efqTail) % 65536 = 64 then s
    else
      let va := s.efqb + BitVec.ofNat 64 (64 * (s.efqHead % 64))
      let blocked := fun (loc : Nat) => if c.logged then s
        else (s.putCmd id { c with logged := true }).logErr 11 2 c.core 0 0 loc 0 0 0
      match s.xlate (clusterOf c.core) 0 .s .write .data va with
      | .error _ => blocked va.toNat
      | .ok p =>
        if s.poisoned p ∨ s.reelLive p then blocked (p.errRecord.elim va.toNat fun r => r.2.2)
        else
          { (s.putCmd id { c with sent := true }).writeBytes p (c.record.flatMap fun w => toBytes 8 w.toNat) with
            efqHead := (s.efqHead + 1) % 65536 }

/-! ### Sequence maps and slabs (R269–R273) -/

/-- A sequence-map fault (R305 cause 24). -/
def smapFault : Trap := { cause := 24 }

/-- A record of R269, well formed. -/
def smapRecordOk (bs : List Byte) : Bool :=
  let d2 := dwordOf bs 2
  (dwordOf bs 0).toNat % 64 == 0 && (dwordOf bs 1).toNat % 64 == 0 && field d2 32 5 ≤ 24 && field d2 37 3 == 0 &&
    field d2 48 16 != 0 && field d2 48 16 % 8 == 0 && dwordOf bs 3 == 0

/-- `smap.set` (R271, R385). -/
def planSmapSet (d a b : BitVec 6) : Plan where
  lvl := .s
  mem := true
  reads := sname a ++ sname b
  writes := sname d
  fire := fun s older e =>
    let n := (e.arg a).toNat
    let va := e.arg b
    let t := s.me
    if 16383 < n then answer s e d (-64)
    else if (Tab.find s.smaps n).isSome then answer s e d (-65)
    else if !allDone older then (s, e)
    else
      match s.pages (clusterOf s.cur.core) t.asid t.lvl .read .data va (pagesOf va 32) with
      | .error (why, x) => (s, { e with flt := some (pageFault why .read x) })
      | .ok _ =>
        if va.toNat % 32 ≠ 0 then answer s e d (-66)
        else
          match s.ownRead t s.cur.core (fun why x => pageFault why .read x) va 4 with
          | .held => (s, { e with held := true })
          | .trap f => (s, { e with flt := some f })
          | .ok bs =>
            let s1 := s.ownNote t s.cur.core va 4
            if smapRecordOk bs then
              answer { s1 with smaps := Tab.put s1.smaps n (smapOf (dwordOf bs 0) (dwordOf bs 1) (dwordOf bs 2)) } e d 0
            else answer s1 e d (-66)

/-- The record that `smap.inv` names: none asks for none (R272, R385). -/
def State.smapRecord (s : State) (va : Word) : Option Own :=
  if va = 0 then none
  else
    match s.pages (clusterOf s.cur.core) s.me.asid s.me.lvl .read .data va (pagesOf va 32) with
    | .error (why, x) => some (.trap (pageFault why .read x))
    | .ok _ =>
      if va.toNat % 32 ≠ 0 then some (.trap smapFault)
      else
        match s.ownRead s.me s.cur.core (fun why x => pageFault why .read x) va 4 with
        | .ok bs => if smapRecordOk bs then some (.ok bs) else some (.trap smapFault)
        | r => some r

/-- `smap.inv` takes its number at issue, and the entry changes after the strand's older accesses, as the record then
stands (R263, R272). -/
def smapInvFire (d a b : BitVec 6) (s : State) (older : List Entry) (e : Entry) : State × Entry :=
  let (s1, num) := if e.res = 0 then s.takeNumber (s.newCmd d 4 0 0 0 (e.arg a).toNat) else (s, e.res.toNat)
  let e1 := { e with res := BitVec.ofNat 64 num }
  if !allDone older then (s1, e1)
  else
    let begins := fun (s2 : State) (p q : Word) (len : Nat) =>
      match s2.cmdOf s.cur.core (s.tlPhys d) num with
      | none => (s2, { e1 with done := true, pend := [] })
      | some (id, c) =>
        let c := { c with dst := p, src := q, len := len }
        ((s2.putCmd id c).beginCmd id c, { e1 with done := true, pend := [] })
    match s.smapRecord (e.arg b) with
    | none => begins s1 0 0 0
    | some .held => (s1, { e1 with held := true })
    | some (.trap t) => (s1, { e1 with flt := some t })
    | some (.ok bs) => begins (s1.ownNote s.me s.cur.core (e.arg b) 4) (dwordOf bs 0) (dwordOf bs 1) (dwordOf bs 2).toNat

/-- `smap.inv` (R272). Its checks are made at issue; while older accesses have still to perform, its record, which they
may write, is read and checked after them (R278; log 42). -/
def planSmapInv (d a b : BitVec 6) : Plan where
  lvl := .s
  strict := true
  mem := true
  reads := sname a ++ sname b ++ [.tl d.toNat]
  waits := commandWaits
  check := fun s =>
    firstTrap [tlAllotted d s,
      require ((Tab.find s.smaps (s.val a).toNat).any fun m => m.grow.isNone) smapFault,
      (if allDone (s.me.flight.flatMap Convoy.entries) then
        match s.smapRecord (s.val b) with
        | some (.trap t) => some t
        | _ => none
      else none)]
  fire := smapInvFire d a b
  ending := .command d.toNat

/-- `slab.grow` (R273). -/
def planSlabGrow (d a b : BitVec 6) : Plan where
  lvl := .s
  strict := true
  reads := sname a ++ sname b ++ [.tl d.toNat]
  waits := commandWaits
  check := fun s =>
    firstTrap [tlAllotted d s,
      require (((Tab.find s.smaps (s.val a).toNat).any fun m => m.grow.isNone && decide (m.k < 24)) &&
        (s.val b).toNat % 64 == 0) smapFault]
  fire := commandFire d fun s e => s.newCmd d 3 (e.arg b) 0 0 (e.arg a).toNat
  ending := .command d.toNat

end Sys2Proof.Machine
end

