-- ==== Sys2Proof/Machine/Fences.lean ====
section
/-!
DEFINITION. The fences (14, R283–R287). Every instruction's events perform in an order that the device-scope axioms
allow, so that beside waiting for older accesses only the pool forms have an effect: write-back and discard of far
lines.
-/

namespace Sys2Proof.Machine

/-- A fence that no younger access passes: it completes after every older access (R286, full and acquire forms). -/
def fencePlan (f : State → State) : Plan where
  mem := true
  fire := afterOlder fun s _ => f s

/-- A release form without an access: it holds back younger writes only (R286, R287). -/
def releasePlan (f : State → State) : Plan where
  mem := true
  fire := fun s older e =>
    if allDone older then (f s, { e with done := true, pend := [] }) else (s, { e with begun := true })

def planFence : Plan := fencePlan id
def planFenceFab : Plan := fencePlan id
def planFenceFabAcq : Plan := fencePlan id
def planFenceFabRel : Plan := releasePlan id

/-- The full form for the pool (R283, R286). -/
def planFencePool : Plan := fencePlan fun s => s.writeBackAll.discardClean

/-- The acquire form for the pool discards clean far lines (R283, R286). -/
def planFencePoolAcq : Plan := fencePlan State.discardClean

/-- The release form for the pool writes dirty far lines back (R283, R286). -/
def planFencePoolRel : Plan := releasePlan State.writeBackAll

/-- A far line's next access goes to the pool: a cached copy is written back and discarded (R283). -/
def State.toPool (s : State) (p : Place) : State :=
  match p with
  | .far a k => s.evictFar (farKey a k)
  | .near _ _ _ => s
  | .peer _ _ _ => s
  | .scratch _ _ => s
  | .devreg _ _ => s

/-- An acquire read (R286). -/
def acquirePlan (pool : Bool) (d a : BitVec 6) : Plan where
  mem := true
  reads := sname a
  writes := sname d
  fire := fun s older e =>
    let va := e.arg a
    if !allDone older then (s, e)
    else
      let m := s.pagesOn e .read (.fence pool) [va]
      match s.checkIn m .read va 8 with
      | .error t => (s, { e with flt := some t })
      | .ok p =>
        if s.tideHeld s.me va 8 || s.stalled p then (s, { e with held := true, pages := m })
        else
          match p with
          | .peer dv _ _ =>
            let s := s.noteReads [(p, 8)]
            (match s.peerAnswer .read dv va 8 with
              | .val v => loaded s e d (BitVec.ofNat 64 v)
              | .fail t => (s, { e with flt := some t })
              | .bad q => (s, { e with flt := some (memoryError 2 va q) })
              | .held => (s, e))
          | _ =>
            if s.poisoned p then (s, { e with flt := some (memoryError 2 va p) })
            else
              let s1 := if pool then s.toPool p else s
              let s2 := if pool then s1.discardClean else s1
              loaded s2 e d (BitVec.ofNat 64 (s1.readNat p 8))

/-- A release write (R286, R287). Until it has performed, no younger access does: none may come before its event
(R278–R280). -/
def releaseStorePlan (pool : Bool) (a b : BitVec 6) : Plan where
  mem := true
  reads := sname a ++ sname b
  fire := fun s older e =>
    let va := e.arg a
    if !allDone older then (s, e)
    else
      let m := s.pagesOn e .write (.fence pool) [va]
      match s.checkIn m .write va 8 with
      | .error t => (s, { e with flt := some t })
      | .ok p =>
        if s.stalled p then (s, { e with held := true, pages := m })
        else
          let s1 := if pool then s.writeBackAll else s
          let s2 := s1.writeAll [(p, toBytes 8 (e.arg b).toNat)]
          match s.homeVerdict .write (.ok p) 8 with
          | .error t => (s2, { e with flt := some { t with addr := va } })
          | .ok _ => performed (if pool then s2.toPool p else s2) e

def planFenceFabAcqLoad (d a : BitVec 6) : Plan := acquirePlan false d a
def planFenceFabRelStore (a b : BitVec 6) : Plan := releaseStorePlan false a b
def planFencePoolAcqLoad (d a : BitVec 6) : Plan := acquirePlan true d a
def planFencePoolRelStore (a b : BitVec 6) : Plan := releaseStorePlan true a b

end Sys2Proof.Machine
end

