-- ==== Sys2Proof/Machine/Lanes.lean ====
section
/-!
DEFINITION. Acquiring and releasing the lanes (07, R125–R131) and spill frames (07, R139, R140).
-/

namespace Sys2Proof.Machine

/-! ### vsetl, vrel (R131) -/

/-- A `vsetl` of a strand that does not hold the lanes waits for the grant (R126, R131). -/
def vsetlWaits (s : State) : List Nat :=
  if s.holdsLanes || (s.me.vec.isNone && s.lanesFree s.cur.core s.cur.slot s.curCore.gvl) then [] else [9]

/-- `vsetl` (R126, R127, R131). -/
def planVsetl (d a : BitVec 6) (ty : Ty) : Plan where
  cls := .z
  reads := sname a
  writes := sname d
  waits := vsetlWaits
  onWait := fun s => s.joinLanes s.cur.core s.cur.slot
  fire := fun s _ e =>
    let s1 := if s.holdsLanes then s else s.giveLanes s.cur.core s.cur.slot s.curCore.gvl
    let v := BitVec.ofNat 64 (min (s.val a).toNat (vlmax ty.width s1.curCore.width))
    (s1.setVal d v, { e with done := true, pend := [], res := v })

/-- `vrel` (R131). While it waits it holds back every younger convoy. -/
def planVrel : Plan where
  cls := .z
  writes := [.spr]
  fire := fun s older e =>
    if !s.holdsLanes then (s, { e with done := true, pend := [] })
    else if !older.isEmpty || s.curCore.latching.isSome || s.curCore.tiles.any fun t => t.2.busy then (s, e)
    else (s.releaseLanes s.cur.core s.cur.slot, { e with done := true, pend := [] })

/-! ### Spill frames (R139, R140) -/

/-- The displacement of a spill frame. -/
def disp9 (disp : BitVec 9) : Word := disp.signExtend 64 * 64#64

/-- The code of a type (R40). -/
def Ty.code4 (t : Ty) : Nat := ((List.range 16).find? fun n => tyOfNat n == t).getD 0

/-- Dword 0 of a frame (R139). -/
def spillHeader (n : Nat) (ty : Ty) (width : Nat) : Nat := n % 4096 + Ty.code4 ty * 2 ^ 12 + width * 2 ^ 16 + 0xB7 * 2 ^ 24

/-- The bytes of a frame: the header, then the elements packed and filled up to a dword (R139). -/
def frameBytes (n w width : Nat) (ty : Ty) (vals : List Nat) : List Byte :=
  let data := vals.flatMap fun v => toBytes (w / 8) v
  toBytes 64 (spillHeader n ty width) ++ data ++ List.replicate ((8 - data.length % 8) % 8) 0#8

/-- An address on each page that `n` bytes touch, the first their own. -/
def pageAddrs (va : Word) (n : Nat) : List Word :=
  (pagesOf va n).map fun p => if p = va.toNat / 65536 then va else BitVec.ofNat 64 (p * 65536)

/-- The first page of a range that its translation has refused. -/
def Pages.refused (m : Pages) (acc : Acc) (va : Word) (n : Nat) : Option Trap :=
  (pageAddrs va n).findSome? fun a =>
    match Tab.find m (a.toNat / 65536) with
    | some (.bad r) => some (pageFault r acc a)
    | _ => none

/-- Pages that a read has translated, for a write of the same instruction: each page is translated once (R226). -/
def Pages.forWrite (m : Pages) (lvl : Level) : Pages :=
  m.map fun p => (p.1, match p.2 with
    | .ok l => if permitted l.raw lvl .write then .ok l else .bad 3
    | .bad r => .bad r)

/-- The place of an address on translated pages. -/
def State.spotIn (s : State) (m : Pages) (va : Word) : Place :=
  match Tab.find m (va.toNat / 65536) with
  | some (.ok l) => s.placeOf l va
  | _ => .devreg 0 0

/-- The lines of a frame by address. -/
def frameLines (va : Word) (bs : List Byte) : List (Word × List Byte) :=
  (List.range ((bs.length + 63) / 64)).map fun i => (va + BitVec.ofNat 64 (64 * i), (bs.drop (64 * i)).take 64)

/-- The frame's lines with their places, its pages translated before, or the first access that fails: the translation of
every page comes first, then alignment and reel storage (R140, R249). -/
def State.framePlaces (s : State) (m : Pages) (va : Word) (bs : List Byte) : Except Trap (List (Place × List Byte)) :=
  match m.refused .write va bs.length with
  | some t => .error t
  | none => (frameLines va bs).mapM fun l => (s.checkIn m .write l.1 64).map fun p => (p, l.2)

/-- `vspill` (R140): one event, after every older access of the strand, and at each home one message (R276). -/
def planVspill (v : VCtl) (a b : BitVec 6) (ty : Ty) (disp : BitVec 9) : Plan where
  cls := .m
  lanes := true
  reads := .s (40 + v.ls.toNat) :: sname a ++ bname b
  len := some v.ls
  check := lengthCheck v ty.width
  fire := fun s older e =>
    let va := e.arg a + disp9 disp
    let elts := (List.range e.n).map fun i => s.elt older e b ty.width i
    if elts.contains .empty then (s, e)
    else
      match (List.range e.n).find? fun i => elts.getD i .empty == .poison with
      | some i => (s, { e with flt := some { cause := 9, info := 5, elem := some i } })
      | none =>
        let vals := elts.map fun x => match x with
          | .full n => n
          | _ => 0
        let bs := frameBytes e.n ty.width s.curCore.width ty vals
        let m := s.pagesOn e .write .data (pageAddrs va bs.length)
        match s.framePlaces m va bs with
        | .error t => (s, { e with flt := some t, pages := m })
        | .ok ps =>
          if !allDone older then (s, { e with pages := m })
          else if ps.any fun p => s.stalled p.1 then (s, { e with held := true, pages := m })
          else
            let s1 := s.askPeers 1 .i8 false (ps.filterMap fun p => p.1.peerElt p.2.length none 0 0)
            match s.linesRefused ps with
            | some t => (s1, { e with flt := some t })
            | none => (s1.writeAll ps, { e with done := true, pend := [], mask := BitVec.allOnes 2048 })

/-- The checks of a frame's header (R140). -/
def fillCheck (h : Word) (ty : Ty) (width : Nat) : Option Trap :=
  firstTrap [require (field h 24 8 == 0xB7 && field h 12 4 == Ty.code4 ty && decide (field h 0 12 ≤ 2048)) { cause := 28 },
    require (decide (field h 0 12 ≤ vlmax ty.width width)) { cause := 13 }]

/-- `vfill` (R140). The pages of its data are translated once the header has given N (log 127). Data with an uncorrectable error gives POISON elements, as a load does (R248). -/
def planVfill (d a : BitVec 6) (ty : Ty) (disp : BitVec 9) : Plan where
  cls := .m
  lanes := true
  reads := sname a
  writes := [.v d.toNat]
  w := ty.width
  fire := fun s older e =>
    let va := e.arg a + disp9 disp
    let read := fun r x => pageFault r .read x
    if !allBegun older then (s, e)
    else
      match s.pages (clusterOf s.cur.core) s.me.asid s.me.lvl .read .data va (pagesOf va 64) with
      | .error (r, x) => (s, { e with flt := some (pageFault r .read x) })
      | .ok _ =>
        if va.toNat % 64 ≠ 0 then (s, { e with flt := some { cause := 7, addr := va } })
        else
          match s.ownRead s.me s.cur.core read va 1 with
          | .held => (s, { e with held := true })
          | .trap t => (s, { e with flt := some t })
          | .ok hb =>
            let h := dwordOf hb 0
            match fillCheck h ty s.curCore.width with
            | some t => (s, { e with flt := some t })
            | none =>
              let n := field h 0 12
              let w := ty.width
              let vas := (List.range n).map fun i => va + BitVec.ofNat 64 (64 + i * (w / 8))
              let m := s.pageMap (clusterOf s.cur.core) s.me.asid s.me.lvl .read .data (va :: vas) []
              let spans := (va, 8) :: vas.map fun x => (x, w / 8)
              let got := vas.map fun x => s.loadIn s.me older m .read x (w / 8)
              match got.findSome? fun g => match g with
                  | .fail t => some t
                  | _ => none with
              | some t => (s, { e with flt := some t })
              | none =>
                if s.mustWait older m .read spans then (s, e)
                else if got.contains .held then (s, { e with held := true })
                else
                  let reg := (List.range (16384 / w)).foldl (fun r i =>
                    match got.getD i (.val 0) with
                    | .val x => r.put w i (.full x)
                    | _ => r.put w i .poison) (e.freshV d.toNat)
                  ((s.noteIn s.me older m .read spans).logBad m .read vas,
                    { e with done := true, pend := [], vd := Tab.put e.vd d.toNat reg, mask := BitVec.allOnes 2048 })

end Sys2Proof.Machine
end

