-- ==== Sys2Proof/Machine/Reels.lean ====
section
/-!
DEFINITION. Reel tiles (10, R199–R216): handles, the lineage table, cutting and splicing, giving handles away, and
moving rows through them.
-/

namespace Sys2Proof.Machine

/-! ### The tile's shape (R199) -/

/-- The format of a root. -/
def Root.fmt (r : Root) : Fmt := fmtOfCode r.fcode r.record

/-- The storage width of a format: 4, 8 or its own. -/
def reelWidth (f : Fmt) : Nat := if f.width ≤ 4 then 4 else if f.width ≤ 8 then 8 else f.width

/-- The row pitch P in bytes. -/
def Root.pitch (r : Root) : Nat := r.cols * reelWidth r.fmt / 8

/-- The vector element width of a root's format (R206). -/
def Root.eltWidth (r : Root) : Nat := max 8 (reelWidth r.fmt)

/-! ### The lineage table (R204, R205) -/

/-- An entry of a cluster. -/
def State.lin (s : State) (cl e : Nat) : Lineage := Tab.get Lineage.start s.lineage (1024 * cl + e)

/-- Where the lineage table keeps what a freed entry was while accesses through it are open (R210): above the entries of
the clusters, by entry and generation. -/
def ghostKey (cl e gen : Nat) : Nat := 8192 + (1024 * cl + e) * 65536 + gen

/-- The cluster of a key of the table. -/
def linCluster (key : Nat) : Nat := if key < 8192 then key / 1024 else (key - 8192) / 65536 / 1024

/-- An entry changed. -/
def State.setLin (s : State) (cl e : Nat) (x : Lineage) : State :=
  { s with lineage := Tab.set Lineage.start s.lineage (1024 * cl + e) x }

/-- The image of a handle (R202). -/
def handleImage (e gen : Nat) : Word := BitVec.ofNat 64 (e + gen * 2 ^ 16 + 2 ^ 63)

/-- The entry that a handle's image named when it was bound, as it is or as it was when it was freed (R213). -/
def State.bound (s : State) (cl : Nat) (image : Word) : Lineage :=
  (Tab.find s.lineage (ghostKey cl (field image 0 10) (field image 16 16))).getD (s.lin cl (field image 0 10))

/-- That entry changed. A freed one is forgotten once no access is open through it. -/
def State.setBound (s : State) (cl : Nat) (image : Word) (x : Lineage) : State :=
  let k := ghostKey cl (field image 0 10) (field image 16 16)
  if (Tab.find s.lineage k).isNone then s.setLin cl (field image 0 10) x
  else if x.open_ = 0 then { s with lineage := Tab.del s.lineage k }
  else { s with lineage := Tab.put s.lineage k x }

/-- What a handle register holds. -/
inductive Handle where
  | blank
  /-- On its way: its mover has not delivered it (R211). -/
  | arriving
  | live (entry gen : Nat)
deriving DecidableEq, Repr

/-- A handle register read (R202): an image saved as arriving is live once its delivery is recorded. -/
def State.handle (s : State) (cl : Nat) (t : Strand) (n : Nat) : Handle :=
  let w := Tab.get 0 t.h n
  if !w.getLsbD 63 then .blank
  else if w.getLsbD 62 && (s.lin cl (field w 0 10)).move.isSome then .arriving
  else .live (field w 0 10) (field w 16 16)

/-- The handle of the strand that acts. -/
def State.myHandle (s : State) (x : BitVec 6) : Handle := s.handle (clusterOf s.cur.core) s.me x.toNat

/-- A handle register written. -/
def State.setHandle (s : State) (x : BitVec 6) (v : Word) : State :=
  s.setMe { s.me with h := Tab.set 0 s.me.h x.toNat v }

/-- A handle matches its entry (R204). -/
def State.matches_ (s : State) (cl e gen : Nat) : Bool := (s.lin cl e).st == 1 && (s.lin cl e).gen == gen

/-- A handle fault (R214). -/
def handleFault (reason : Nat) : Trap := { cause := 16, info := reason }

/-- A splice fault (R214). -/
def spliceFault (reason : Nat) : Trap := { cause := 17, info := reason }

/-- The checks of a handle named as a source: not blank, not stale. -/
def sourceCheck (x : BitVec 6) (s : State) : Option Trap :=
  match s.myHandle x with
  | .live e g => require (s.matches_ (clusterOf s.cur.core) e g) (handleFault 2)
  | .blank => some (handleFault 1)
  | .arriving => none

/-- A destination register is blank, or blanked by the same instruction. -/
def destCheck (x : BitVec 6) (blanked : List (BitVec 6)) (reason : Nat) (s : State) : Option Trap :=
  require (s.myHandle x == .blank || blanked.contains x) (handleFault reason)

/-- A convoy that names an arriving register waits (R211). -/
def arriveWaits (xs : List (BitVec 6)) (s : State) : List Nat :=
  if xs.any fun x => s.myHandle x == .arriving then [2] else []

/-- The entry that a handle of the strand names. -/
def State.entryOf (s : State) (x : BitVec 6) : Nat :=
  match s.myHandle x with
  | .live e _ => e
  | .blank => 0
  | .arriving => 0

/-- Lineage entries that running or saved work items of a cluster have reserved and not drawn. -/
def State.reserved (s : State) (cl : Nat) : Nat :=
  s.launches.foldl (fun n l => l.2.items.foldl (fun n i => if i.2.cluster = cl then n + i.2.nlin else n) n) 0

/-- The free entries of a cluster. -/
def State.freeEntries (s : State) (cl : Nat) : List Nat := (List.range 1024).filter fun e => (s.lin cl e).st == 0

/-- The unused reservation of the strand that acts. -/
def State.myReserve (s : State) : Nat :=
  match s.me.work with
  | none => 0
  | some w => ((Tab.find s.launches w.launch).bind fun l => Tab.find l.items w.linear).elim 0 Item.nlin

/-- `n` entries are to be had by the strand (R205): its own unused reservation first, then free entries that no strand
reserves. -/
def State.canDraw (s : State) (n : Nat) : Bool :=
  let cl := clusterOf s.cur.core
  decide (n ≤ min n s.myReserve + ((s.freeEntries cl).length - s.reserved cl))

/-- An item changed, if its launch and the item are there. -/
def State.mapItem (s : State) (launch linear : Nat) (f : Item → Item) : State :=
  match Tab.find s.launches launch with
  | none => s
  | some l =>
    match Tab.find l.items linear with
    | none => s
    | some i => { s with launches := Tab.put s.launches launch { l with items := Tab.put l.items linear (f i) } }

/-- One entry taken, drawn first on the strand's own reservation (R205). Which one is the device's choice (log 11). -/
def State.draw (s : State) : State × Nat × Option (Nat × Nat) :=
  let es := s.freeEntries (clusterOf s.cur.core)
  let e := es.getD (Config.pick s.choice es.length % es.length) 0
  if s.myReserve = 0 then (s, e, none)
  else
    match s.me.work with
    | none => (s, e, none)
    | some w => (s.mapItem w.launch w.linear fun i => { i with nlin := i.nlin - 1 }, e, some (w.launch, w.linear))

/-- An entry freed: its generation advances, and it goes back to the reservation it was drawn from if that is short
(R204, R205). What it was is kept for the accesses still open through it (R210, R213). -/
def State.freeEntry (s : State) (cl e : Nat) : State :=
  let x := s.lin cl e
  let s := if x.open_ = 0 then s
    else { s with lineage := Tab.put s.lineage (ghostKey cl e x.gen) { x with st := 0, drawn := none, move := none } }
  let s1 := s.setLin cl e { x with st := 0, gen := (x.gen + 1) % 2 ^ 16, drawn := none, move := none, open_ := 0 }
  match x.drawn with
  | none => s1
  | some (launch, linear) =>
    let full := (Tab.find s.launches launch).elim 0 Launch.nlin
    s1.mapItem launch linear fun i => { i with nlin := min full (i.nlin + 1) }

/-- Accesses are still open through entries of a root (R210). -/
def State.rootOpen (s : State) (cl : Nat) (r : Root) : Bool :=
  s.lineage.any fun x => linCluster x.1 == cl && x.2.root == r && x.2.open_ != 0

/-- A root's storage released, or releasing while accesses are open (R210). -/
def State.releaseRoot (s : State) (cl : Nat) (r : Root) : State :=
  if s.rootOpen cl r then
    { s with releasing := s.releasing ++ [(cl, r)], agenda := s.agenda ++ [.reelStorageRelease cl r.base.toNat] }
  else s

/-- `rfree` on an entry (R210): its ancestors without children go with it. -/
def State.freeTree (s : State) (cl : Nat) : (fuel : Nat) → (e : Nat) → State
  | 0, _ => s
  | fuel + 1, e =>
    let x := s.lin cl e
    let s1 := s.freeEntry cl e
    match x.parent with
    | none => s1.releaseRoot cl x.root
    | some p =>
      let y := s1.lin cl p
      let s2 := s1.setLin cl p { y with kids := y.kids - 1 }
      if y.kids ≤ 1 then s2.freeTree cl fuel p else s2

/-! ### rnew (R207) -/

/-- The geometry word's fields as a root without storage, or none where it is invalid. -/
def geometry (g : Word) (records : Tab Word) : Option Root :=
  let fc := field g 32 6
  let record := if 32 ≤ fc then Tab.get 0 records (fc - 32) else 0
  let r : Root := ⟨0, field g 0 16 + 1, field g 16 16 + 1, fc, record, []⟩
  let accepted := fc ≤ 16 || (32 ≤ fc && fc < 48 && record != 0 && recordOk record)
  if field g 38 26 = 0 && accepted && (reelWidth r.fmt != 4 || r.cols % 2 == 0) && decide (r.rows * r.pitch ≤ 2 ^ 20)
  then some r else none

/-- A root's range overlaps the storage of another root of the cluster. -/
def Root.overlaps (a b : Root) : Bool :=
  let span := fun (r : Root) => r.units.mapIdx fun i u =>
    (u, if i = 0 then r.base.toNat % 65536 else 0, min 65536 (r.base.toNat % 65536 + r.rows * r.pitch - 65536 * i))
  (span a).any fun x => (span b).any fun y => x.1 == y.1 && decide (x.2.1 < y.2.2) && decide (y.2.1 < x.2.2)

/-- The storage of a new tile, or the trap of a page that fails, or handle fault 7 (R200), which a page of another class
gives once every page has been translated (R207). -/
def State.reelStorage (s : State) (r : Root) (base : Word) : Except Trap Root :=
  let core := s.cur.core
  let t := s.me
  let pages := pagesOf base (r.rows * r.pitch)
  let bad := pages.findSome? fun p =>
    match s.pages (clusterOf core) t.asid t.lvl .write .reel base [p] with
    | .error (reason, va) => if reason = 5 then none else some (pageFault reason .write va)
    | .ok _ => none
  match bad, s.pages (clusterOf core) t.asid t.lvl .write .reel base pages with
  | some f, _ => .error f
  | none, .error _ => .error (handleFault 7)
  | none, .ok ls =>
    let root := { r with base := base, units := ls.map fun l => l.2.frame % 2048 }
    let mine := fun (u : Nat) =>
      t.lvl != .u ||
      match t.work with
      | none => true
      | some w => (s.bank (256 * clusterOf core + u / 8)).item == some (w.launch, w.linear)
    if base.toNat % 64 ≠ 0 ∨ !(root.units.all mine) then .error (handleFault 7)
    else if s.lineage.any fun x => x.1 / 1024 == clusterOf core && x.2.st != 0 && x.2.parent.isNone && x.2.root.overlaps root
    then .error (handleFault 7)
    else .ok root

/-- The range of a new tile overlaps storage that is being released (R210). -/
def State.overlapsReleasing (s : State) (r : Root) (base : Word) : Bool :=
  match s.reelStorage r base with
  | .error _ => false
  | .ok root => s.releasing.any fun x => x.1 == clusterOf s.cur.core && x.2.overlaps root

/-- The checks of `rnew` in their order. -/
def rnewCheck (d a b : BitVec 6) (nw : BitVec 1) (s : State) : Option Trap :=
  firstTrap [destCheck d [] 3 s,
    (match geometry (s.val a) s.me.fmt with
      | none => some (handleFault 6)
      | some r =>
        match s.reelStorage r (s.val b) with
        | .error t => some t
        | .ok _ => none),
    require (nw == 0 || s.canDraw 1) (handleFault 8)]

/-- `rnew` (R207). -/
def planRnew (d a b : BitVec 6) (nw : BitVec 1) : Plan where
  strict := true
  reads := sname a ++ sname b
  writes := [.h d.toNat]
  waits := fun s =>
    arriveWaits [d] s ++
      (match geometry (s.val a) s.me.fmt with
        | none => []
        | some r =>
          if s.overlapsReleasing r (s.val b) || ((rnewCheck d a b nw s).isNone && !s.canDraw 1) then [11] else [])
  check := rnewCheck d a b nw
  fire := fun s _ e =>
    match (geometry (s.val a) s.me.fmt).map fun r => s.reelStorage r (s.val b) with
    | some (.ok root) =>
      let (s1, n, drawn) := s.draw
      let cl := clusterOf s.cur.core
      let x := s1.lin cl n
      let s2 := s1.setLin cl n { x with
        st := 1, root := root, r0 := 0, c0 := 0, rows := root.rows, cols := root.cols, parent := none, side := 0, axis := 0
        cutAt := 0, kids := 0, drawn := drawn, move := none }
      (s2.setHandle d (handleImage n x.gen), { e with done := true, pend := [] })
    | some (.error t) => (s, { e with flt := some t })
    | none => (s, { e with flt := some (handleFault 6) })

/-! ### rcut (R208) -/

/-- The checks of `rcut` in their order. -/
def rcutCheck (d a b : BitVec 6) (nw axis : BitVec 1) (s : State) : Option Trap :=
  let v := s.lin (clusterOf s.cur.core) (s.entryOf a)
  let ext := if axis = 0 then v.rows else v.cols
  let at_ := (s.val b).toNat
  firstTrap [sourceCheck a s, destCheck d [a] 3 s, destCheck (d + 1) [a] 3 s,
    require (decide (0 < at_) && decide (at_ < ext) && !(axis == 1 && reelWidth v.root.fmt == 4 && at_ % 2 == 1)) (handleFault 5),
    require (nw == 0 || s.canDraw 2) (handleFault 8)]

/-- `rcut` (R208). -/
def planRcut (d a b : BitVec 6) (nw axis : BitVec 1) : Plan where
  strict := true
  reads := sname b ++ [.h a.toNat]
  writes := [.h a.toNat, .h d.toNat, .h (d.toNat + 1)].dedup
  waits := fun s =>
    arriveWaits [a, d, d + 1] s ++ (if (rcutCheck d a b nw axis s).isNone && !s.canDraw 2 then [11] else [])
  check := rcutCheck d a b nw axis
  fire := fun s _ e =>
    let cl := clusterOf s.cur.core
    let p := s.entryOf a
    let v := s.lin cl p
    let at_ := (s.val b).toNat
    let (s1, lo, drawnL) := s.draw
    let s1 := s1.setLin cl lo { s1.lin cl lo with st := 1 }
    let (s2, hi, drawnH) := s1.draw
    let genL := (s2.lin cl lo).gen
    let genH := (s2.lin cl hi).gen
    let child : Lineage := { v with
      st := 1, parent := some p, axis := axis.toNat, cutAt := at_, kids := 0, move := none, open_ := 0 }
    let low : Lineage := if axis = 0 then { child with rows := at_, side := 0, drawn := drawnL, gen := genL }
      else { child with cols := at_, side := 0, drawn := drawnL, gen := genL }
    let high : Lineage :=
      if axis = 0 then { child with r0 := v.r0 + at_, rows := v.rows - at_, side := 1, drawn := drawnH, gen := genH }
      else { child with c0 := v.c0 + at_, cols := v.cols - at_, side := 1, drawn := drawnH, gen := genH }
    let s3 := ((s2.setLin cl p { v with st := 2, kids := 2 }).setLin cl lo low).setLin cl hi high
    (((s3.setHandle a 0).setHandle d (handleImage lo genL)).setHandle (d + 1) (handleImage hi genH),
      { e with done := true, pend := [] })

/-! ### rsplc (R209) -/

/-- The checks of `rsplc` in their order. -/
def rsplcCheck (d a b : BitVec 6) (s : State) : Option Trap :=
  let cl := clusterOf s.cur.core
  let x := s.lin cl (s.entryOf a)
  let y := s.lin cl (s.entryOf b)
  firstTrap [sourceCheck a s, sourceCheck b s,
    require (a != b && x.parent.isSome && x.parent == y.parent) (spliceFault 1), require (x.side == 0) (spliceFault 2),
    destCheck d [a, b] 3 s]

/-- `rsplc` (R209): it waits for its sources. -/
def planRsplc (d a b : BitVec 6) : Plan where
  reads := [.h a.toNat, .h b.toNat]
  writes := [.h a.toNat, .h b.toNat, .h d.toNat].dedup
  waits := fun s => arriveWaits [a, b, d] s ++ (if s.myHandle a == .blank || s.myHandle b == .blank then [6] else [])
  check := rsplcCheck d a b
  fire := fun s _ e =>
    let cl := clusterOf s.cur.core
    let ea := s.entryOf a
    let p := (s.lin cl ea).parent.getD 0
    let s1 := (s.freeEntry cl ea).freeEntry cl (s.entryOf b)
    let y := s1.lin cl p
    let s2 := s1.setLin cl p { y with st := 1, kids := 0 }
    (((s2.setHandle a 0).setHandle b 0).setHandle d (handleImage p y.gen), { e with done := true, pend := [] })

/-- `rfree` (R210). -/
def planRfree (a : BitVec 6) : Plan where
  reads := [.h a.toNat]
  writes := [.h a.toNat]
  waits := arriveWaits [a]
  check := sourceCheck a
  fire := Plan.now fun s => (s.freeTree (clusterOf s.cur.core) 1024 (s.entryOf a)).setHandle a 0

/-! ### hmov (R211) -/

/-- The strand that runs a work item, if it is resident: its core and slot. -/
def State.resident (s : State) (launch linear : Nat) : Option (Nat × Nat) :=
  s.cores.findSome? fun c => (c.2.slots.find? fun t =>
    match t.2.work with
    | some w => w.launch == launch && w.linear == linear
    | none => false).map fun t => (c.1, t.1)

/-- The number of items of a launch (R62). -/
def Launch.count (l : Launch) : Nat := l.fields.foldl (fun n f => n * f.2.2) 1

/-- The product of the counts of some fields. -/
def countOf (fs : List (Nat × Nat × Nat)) : Nat := fs.foldl (fun n f => n * f.2.2) 1

/-- The number of co-resident levels: K + 1 (R63). -/
def Launch.levels (l : Launch) : Nat := (l.fields.takeWhile fun f => f.2.1 < 4).length

/-- The number of work items of a level-K group, 1 where no level is co-resident (R65). -/
def Launch.unit (l : Launch) : Nat := countOf (l.fields.take l.levels)

/-- The number of members of a launch's gang (R62, R302). -/
def Launch.members (l : Launch) : Nat := ((l.fields.find? fun f => f.2.1 == 4).map fun f => f.2.2).getD 1

/-- An item of a launch runs on this device: its place in the gang is this member's (R62, R75). -/
def Launch.mine (l : Launch) (linear : Nat) : Bool := linear / l.unit % l.members == l.member

/-- The receiver's launch and linear index, where the mover is a work item and the index names one. -/
def State.receiver (s : State) (index : Nat) : Option (Nat × Nat) :=
  s.me.work.bind fun w => (Tab.find s.launches w.launch).bind fun l =>
    if index < l.count then some (w.launch, index) else none

/-- The mover is its own receiver. -/
def State.toSelf (s : State) (index : Nat) : Bool := s.me.work.any fun w => w.linear == index

/-- The receiver has retired, or runs on another device, or it is resident in another cluster and its register is blank:
until it is there and blank the mover waits (R211). -/
def State.unreachable (s : State) (r : Nat × Nat) (reg : Nat) : Bool :=
  ((Tab.find s.launches r.1).any fun l => l.gone.contains r.2 || !l.mine r.2) ||
    (s.resident r.1 r.2).any fun p =>
      clusterOf p.1 != clusterOf s.cur.core && (s.strandAt p.1 p.2).any fun t => s.handle (clusterOf p.1) t reg == .blank

/-- The checks of `hmov` in their order. -/
def hmovCheck (d a b : BitVec 6) (s : State) : Option Trap :=
  let index := (s.val b).toNat
  match s.receiver index with
  | none => some (handleFault 4)
  | some r =>
    firstTrap [sourceCheck a s, (if s.toSelf index then destCheck d [a] 4 s else require (!s.unreachable r d.toNat) (handleFault 4))]

/-- Of the movers that wait for one register, the lowest is served first. -/
def firstMover (ms : List (Nat × Nat × Nat × Nat × Nat)) (launch linear reg core slot : Nat) : Bool :=
  ms.all fun m => !(m.1 == launch && m.2.1 == linear && m.2.2.1 == reg) ||
    decide (core < m.2.2.2.1) || (m.2.2.2.1 == core && decide (slot ≤ m.2.2.2.2))

/-- An `hmov` may issue: its receiver has started, is resident, and its register is blank. -/
def hmovReady (d b : BitVec 6) (s : State) : Bool :=
  let index := (s.val b).toNat
  s.toSelf index ||
    (match s.receiver index with
      | none => true
      | some r =>
        match s.resident r.1 r.2 with
        | none => false
        | some (c, sl) =>
          ((s.strandAt c sl).any fun t => s.handle (clusterOf c) t d.toNat == .blank) &&
            firstMover s.movers r.1 r.2 d.toNat s.cur.core s.cur.slot)

/-- `hmov` (R211). It is done from its issue; the delivery belongs to the lineage entry. Both handle registers that its
word names count as written (R203), hd whosever it is (log 121). -/
def planHmov (d a b : BitVec 6) : Plan where
  strict := true
  reads := sname b ++ [.h a.toNat]
  writes := [.h a.toNat, .h d.toNat].dedup
  waits := fun s =>
    arriveWaits [a] s ++ (if s.toSelf (s.val b).toNat then arriveWaits [d] s else []) ++
      (if (hmovCheck d a b s).isNone && !hmovReady d b s then [6] else [])
  onWait := fun s =>
    match s.receiver (s.val b).toNat with
    | none => s
    | some r =>
      let m := (r.1, r.2, d.toNat, s.cur.core, s.cur.slot)
      if (hmovCheck d a b s).isSome || s.movers.contains m then s else { s with movers := s.movers ++ [m] }
  check := hmovCheck d a b
  fire := fun s _ e =>
    let done : Entry := { e with done := true, pend := [] }
    let index := (s.val b).toNat
    let image := Tab.get 0 s.me.h a.toNat &&& ~~~0x4000000000000000#64
    if s.toSelf index then
      if a = d then (s, done) else ((s.setHandle a 0).setHandle d image, done)
    else
      match s.receiver index with
      | none => (s, { e with flt := some (handleFault 4) })
      | some r =>
        match s.resident r.1 r.2 with
        | none => (s, { e with flt := some (handleFault 4) })
        | some (c, sl) =>
          match s.strandAt c sl with
          | none => (s, e)
          | some t =>
            let cl := clusterOf s.cur.core
            let n := s.entryOf a
            let s1 := (s.setHandle a 0).setLin cl n { s.lin cl n with
              move := some (s.cur.core, s.cur.slot, r.1, r.2, d.toNat) }
            let s2 := s1.setStrand c sl { t with h := Tab.put t.h d.toNat (image ||| 0x4000000000000000#64) }
            ({ s2 with
                agenda := s2.agenda ++ [.hmovDelivery cl n]
                movers := s2.movers.filter fun m => m != (r.1, r.2, d.toNat, s.cur.core, s.cur.slot) }, done)

/-- A delivery (R211): the receiver's register becomes live, if it is resident; else the entry records it. It waits
for the mover's accesses through the handle. -/
def State.deliver (s : State) (cl n : Nat) : State :=
  let x := s.lin cl n
  match x.move with
  | none => s
  | some (_, _, launch, linear, reg) =>
    if x.open_ ≠ 0 then { s with agenda := s.agenda ++ [.hmovDelivery cl n] }
    else
      let s1 := s.setLin cl n { x with move := none }
      match s1.resident launch linear with
      | none => s1
      | some (c, sl) =>
        match s1.strandAt c sl with
        | none => s1
        | some t => s1.setStrand c sl { t with h := Tab.put t.h reg (handleImage n x.gen) }

/-- A word of `rld` or `rst`. -/
def isRow (w : Word) : Bool := !w.getLsbD 62 && field w 54 7 == 0x62

/-- A running strand other than the one at a slot has an access in flight through the lineage entry of an image. -/
def State.rowsRunning (s : State) (cl : Nat) (image : Word) (core slot : Nat) : Bool :=
  s.cores.any fun c => clusterOf c.1 == cl && c.2.slots.any fun t =>
    !(c.1 == core && t.1 == slot) && !t.2.stopped &&
      t.2.flight.any fun k => k.entries.any fun e => !e.done && isRow e.word && field e.res 0 32 == field image 0 32

/-- A page of the strand's trap frame lies in a bank that is switching: its image has to wait (R244, R307). -/
def State.frameStalls (s : State) (core : Nat) (t : Strand) : Bool :=
  (s.banks.any fun b => b.2.switch.isSome) &&
    (match s.pages (clusterOf core) 0 .s .write .data t.xtf (pagesOf t.xtf 0x100000) with
      | .error _ => false
      | .ok ls => (pageAddrs t.xtf 0x100000).any fun a => s.stalled (s.spot ls a))

/-- A handle is on its way to the strand at a slot and will be delivered before the strand stops (R318): its mover's
accesses have performed, or the mover is running. Or its trap frame cannot be written yet. -/
def State.awaited (s : State) (core slot : Nat) (t : Strand) : Bool :=
  let cl := clusterOf core
  (t.h.any fun h => s.handle cl t h.1 == .arriving &&
    ((s.lin cl (field h.2 0 10)).open_ == 0 || s.rowsRunning cl h.2 core slot)) || s.frameStalls core t

/-! ### hinfo (R212) -/

/-- The lineage word. -/
def lineageWord (x : Lineage) (e : Nat) : Nat :=
  e + x.gen * 2 ^ 10 +
    (match x.parent with
      | none => 2 ^ 54
      | some p => p * 2 ^ 26 + x.cutAt % 2 ^ 16 * 2 ^ 36 + x.axis * 2 ^ 52 + x.side * 2 ^ 53)

/-- The dword that `hinfo` gives. -/
def hinfoValue (x : Lineage) (e k : Nat) : Word :=
  match k with
  | 0 => BitVec.ofNat 64 (x.rows - 1 + (x.cols - 1) * 2 ^ 16 + x.root.fcode * 2 ^ 32)
  | 1 => x.root.base + BitVec.ofNat 64 (x.r0 * x.root.pitch + x.c0 * reelWidth x.root.fmt / 8)
  | 2 => BitVec.ofNat 64 (lineageWord x e)
  | _ => handleImage e x.gen

/-- `hinfo` (R212). -/
def planHinfo (d a : BitVec 6) (k : BitVec 2) : Plan where
  reads := [.h a.toNat]
  writes := sname d
  waits := arriveWaits [a]
  check := sourceCheck a
  fire := Plan.scalar d fun s =>
    hinfoValue (s.lin (clusterOf s.cur.core) (s.entryOf a)) (s.entryOf a) k.toNat

/-! ### rld, rst (R213) -/

/-- The place of view element (r, c), its virtual address, and whether it is the upper nibble of its byte. -/
def Lineage.place (x : Lineage) (cl r c : Nat) : Place × Word × Bool :=
  let w := reelWidth x.root.fmt
  let bit := (x.r0 + r) * x.root.pitch * 8 + (x.c0 + c) * w
  let off := x.root.base.toNat % 65536 + bit / 8
  let unit := x.root.units.getD (off / 65536) 0
  (.scratch (256 * cl + unit / 8) (unit % 8 * 65536 + off % 65536), x.root.base + BitVec.ofNat 64 (bit / 8), bit % 8 == 4)

/-- Another, freed entry of the same root has accesses open on bytes that the view covers: they perform first (R209). -/
def State.viewBusy (s : State) (cl : Nat) (image : Word) : Bool :=
  let x := s.bound cl image
  s.lineage.any fun p =>
    let y := p.2
    linCluster p.1 == cl && p.1 != ghostKey cl (field image 0 10) (field image 16 16) && y.st == 0 && y.open_ != 0 && y.root == x.root &&
      decide (y.r0 < x.r0 + x.rows) && decide (x.r0 < y.r0 + y.rows) &&
      decide (y.c0 < x.c0 + x.cols) && decide (x.c0 < y.c0 + y.cols)

/-- The handle bound at issue: the entry in flight keeps its image, and the lineage entry counts the access. -/
def bindHandle (s : State) (a : BitVec 6) (e : Entry) : State × Entry :=
  if e.res ≠ 0 then (s, e)
  else
    let cl := clusterOf s.cur.core
    let n := s.entryOf a
    let x := s.lin cl n
    (s.setLin cl n { x with open_ := x.open_ + 1 }, { e with res := handleImage n x.gen })

/-- The access complete: the lineage entry counts it no more. -/
def unbindHandle (p : State × Entry) : State × Entry :=
  if p.2.done then
    let cl := clusterOf p.1.cur.core
    let x := p.1.bound cl p.2.res
    (p.1.setBound cl p.2.res { x with open_ := x.open_ - 1 }, p.2)
  else p

/-- The checks of `rld` and `rst`: the length at 8 bits, the handle, the length at the tile's width. -/
def rowCheck (v : VCtl) (a : BitVec 6) (s : State) : Option Trap :=
  firstTrap [lengthCheck v 8 s, sourceCheck a s,
    lengthCheck v (s.lin (clusterOf s.cur.core) (s.entryOf a)).root.eltWidth s]

/-- The checks that a reissued `rld` or `rst` passes (R317): its handle is the one that it was bound to. -/
def rowRecheck (v : VCtl) (s : State) (e : Entry) : Option Trap :=
  firstTrap [lengthCheck v 8 s, lengthCheck v (s.bound (clusterOf s.cur.core) e.res).root.eltWidth s]

/-- Records of the lines of storage that elements read as POISON (R330), one for each bank. -/
def State.logRows (s : State) (ps : List Place) : State :=
  ((ps.filter s.poisoned).filterMap Place.errRecord).reverse.dedup.reverse.foldl
    (fun st r => st.logErr r.1 1 s.cur.core 0 s.cur.slot r.2.2 s.me.asid 0 0) s

/-- `rld` (R213). -/
def planRld (v : VCtl) (d a b : BitVec 6) : Plan where
  cls := .m
  widths := some []
  rereads := true
  lanes := true
  strict := true
  reads := vnames v ++ sname b ++ [.h a.toNat]
  writes := [.v d.toNat]
  len := some v.ls
  waits := arriveWaits [a]
  check := rowCheck v a
  recheck := rowRecheck v
  resumed := fun _ _ => true
  fire := fun s0 older e0 =>
    let (s, e1) := bindHandle s0 a e0
    let cl := clusterOf s.cur.core
    let x := s.bound cl e1.res
    let w := x.root.eltWidth
    let e := { e1 with w := w }
    let todo := s.todo older e v
    if !e.begun && (!allBegun older || s.viewBusy cl e1.res || !s.ready older v todo fun _ => true) then (s, e)
    else
      let r := field (e.arg b) 0 32
      let c0 := field (e.arg b) 32 32
      let out := fun i =>
        if x.rows ≤ r ∨ x.cols ≤ c0 + i then Outcome.fired (.fault { cause := 8 })
        else
          let (p, va, high) := x.place cl r (c0 + i)
          if s.tideHeld s.me va (w / 8) then .held
          else if s.poisoned p then .fired .quiet
          else
            let v := s.readNat p (w / 8)
            .fired (.val (if reelWidth x.root.fmt = 4 then (if high then v / 16 else v % 16) else v))
      let old := s.srcV older d.toNat
      let e2 := loadGo e d.toNat w e.n (zeroed v) (fun i => s.mask older v i) (old.get w) out
      let read := (todo.filter fun i => e2.mask.getLsbD i).map fun i => (x.place cl r (c0 + i)).1
      unbindHandle ((s.logRows read).noteLatent e2 (latentAt s older e v (fun _ => []) w old), e2)

/-- `rst` (R213). -/
def planRst (v : VCtl) (a b c : BitVec 6) : Plan where
  cls := .m
  lanes := true
  strict := true
  reads := vnames v ++ sname b ++ [.h a.toNat] ++ bname c
  len := some v.ls
  waits := arriveWaits [a]
  check := rowCheck v a
  recheck := rowRecheck v
  resumed := fun _ _ => true
  fire := fun s0 older e0 =>
    let (s, e1) := bindHandle s0 a e0
    let cl := clusterOf s.cur.core
    let x := s.bound cl e1.res
    let w := x.root.eltWidth
    let e := { e1 with w := w }
    let todo := s.todo older e v
    let q := fun i => s.mask older v i
    let val := fun i => s.elt older e c w i
    if !allDone older || s.viewBusy cl e1.res || !s.ready older v todo fun i => val i != .empty then (s, e)
    else
      let r := field (e.arg b) 0 32
      let c0 := field (e.arg b) 32 32
      let fault := fun i =>
        if x.rows ≤ r ∨ x.cols ≤ c0 + i then some ({ cause := 8, elem := some i } : Trap)
        else if q i == .poison || val i == .poison then some (poisonedSource i)
        else none
      let s1 := todo.foldl (fun (st : State) i =>
        match fault i, val i with
        | none, .full k =>
          let (p, _, high) := x.place cl r (c0 + i)
          if reelWidth x.root.fmt = 4 then
            let old := st.readNat p 1
            st.storeAt p 1 (if high then old % 16 + 16 * (k % 16) else old / 16 * 16 + k % 16)
          else st.storeAt p (w / 8) k
        | _, _ => st) s
      let flt := lowestTrap (todo.map fault)
      let wrote := todo.filter fun i => (fault i).isNone
      let mask := wrote.foldl (fun k i => putBits k i 1 1) e.mask
      let s2 := if reelWidth x.root.fmt = 4 then s1 else s1.clearWhole (wrote.map fun i => ((x.place cl r (c0 + i)).1, w / 8))
      let e2 := { e with mask := mask, begun := mask != 0, flt := flt, done := flt.isNone }
      unbindHandle (s2.noteLatent e2 (latentAt s older e v (fun i => [val i]) w VReg.zero), e2)

end Sys2Proof.Machine
end

