-- ==== Sys2Proof/Machine/Atomics.lean ====
section
/-!
DEFINITION. Atomics, links and reductions (15, R288–R303). Where an atomic executes (R289) changes nothing that a
program sees.
-/

namespace Sys2Proof.Machine

/-! ### What an atomic writes (R290) -/

/-- A type of floating point. -/
def floatTy (ty : Ty) : Bool :=
  match ty with
  | .f32 | .f16 | .bf16 => true
  | _ => false

/-- The new value for an old one: `op` is the function code, `b` the operand and `c` the compared value, all within
the width. -/
def amoNew (op : Nat) (ty : Ty) (old b c : Nat) : Nat :=
  match op with
  | 0 => b
  | 1 => if old = c then b else old
  | 2 => (old + b) % 2 ^ ty.width
  | 3 => feAdd ty .rne old b
  | 4 => Nat.land old b
  | 5 => Nat.lor old b
  | 6 => Nat.xor old b
  | 7 => if floatTy ty then feMin ty old b else intMin ty old b
  | 8 => if floatTy ty then feMax ty old b else intMax ty old b
  | 9 => intMin ty old b
  | _ => intMax ty old b

/-- What an atomic leaves in `sd` (R291). -/
def amoResult (ty : Ty) (old : Nat) : Word :=
  if ty = .i32 then BitVec.ofInt 64 (toSigned 32 old) else BitVec.ofNat 64 old

/-- The scope of a place is the pool (R274). -/
def Place.pooled (p : Place) : Bool :=
  match p with
  | .far _ _ => true
  | .near _ _ _ => false
  | .peer _ _ _ => false
  | .scratch _ _ => false
  | .devreg _ _ => false

/-- Dirty far lines are written back before an atomic that releases in the pool (R292). -/
def State.orderBefore (s : State) (ord : BitVec 2) (pooled : Bool) : State :=
  if pooled && ord.getLsbD 1 then s.writeBackAll else s

/-- Clean far lines are discarded after the read half of one that acquires there (R292). -/
def State.orderAfter (s : State) (ord : BitVec 2) (pooled : Bool) : State :=
  if pooled && ord.getLsbD 0 then s.discardClean else s

/-- The old value that an atomic finds at a place that passed its checks: memory's, what an element before it in the event
left at another device (`seen`, R294), or what the home answers. -/
def State.atomicOld (s : State) (seen : Tab Nat) (p : Place) (va : Word) (w : Nat) : Got :=
  match p with
  | .peer d _ _ =>
    (match Tab.find seen va.toNat with
      | some x => .val x
      | none => s.peerAnswer .atomic d va w)
  | _ => if s.poisoned p then .bad p else .val (s.readNat p w)

/-- The write half of one atomic: here, or in a message to the home (R288). -/
def State.atomicPut (s : State) (p : Place) (op : Nat) (ty : Ty) (old b c : Nat) : State :=
  match p.peerElt (ty.width / 8) none b c with
  | some x => s.sendPeers (op + 2) ty false [x]
  | none => s.storeAt p (ty.width / 8) (amoNew op ty old b c)

/-! ### amo (R290–R292) -/

/-- `amo` (R291): it performs after every older access of the strand. -/
def amoPlan (op : Nat) (d a b : BitVec 6) (c : Option (BitVec 6)) (ty : Ty) (ord : BitVec 2) : Plan where
  cls := .m
  reads := sname a ++ sname b ++ (match c with
    | some x => sname x
    | none => [])
  writes := sname d
  fire := fun s older e =>
    let va := e.arg a
    let low := fun (x : Word) => x.toNat % 2 ^ ty.width
    if e.mask.getLsbD 0 then (s, { e with done := true, pend := [] })
    else if !allDone older then (s, e)
    else
      let w := ty.width / 8
      let m := s.pagesOn e .atomic .data [va]
      match s.checkIn m .atomic va w with
      | .error t => (s, { e with flt := some t })
      | .ok p =>
        if s.tideHeld s.me va w || s.stalled p then (s, { e with held := true, pages := m })
        else
          let s1 := s.orderBefore ord p.pooled
          let put := fun old => s1.atomicPut p op ty old (low (e.arg b)) (low ((c.map e.arg).getD 0))
          let refused := if (p.peerElt w none 0 0).isSome then put 0 else s
          match s1.atomicOld [] p va w with
          | .bad q => (refused, { e with flt := some (memoryError 3 va q) })
          | .fail t => (refused, { e with flt := some { t with addr := va } })
          | .held => (s, e)
          | .val old => loaded ((put old).orderAfter ord p.pooled) e d (amoResult ty old)

def planAmoSwap (d a b : BitVec 6) (ty : Ty) (ord : BitVec 2) : Plan := amoPlan 0 d a b none ty ord
def planAmoCas (d a b c : BitVec 6) (ty : Ty) (ord : BitVec 2) : Plan := amoPlan 1 d a b (some c) ty ord
def planAmoAdd (d a b : BitVec 6) (ty : Ty) (ord : BitVec 2) : Plan := amoPlan 2 d a b none ty ord
def planAmoFadd (d a b : BitVec 6) (ty : Ty) (ord : BitVec 2) : Plan := amoPlan 3 d a b none ty ord
def planAmoAnd (d a b : BitVec 6) (ty : Ty) (ord : BitVec 2) : Plan := amoPlan 4 d a b none ty ord
def planAmoOr (d a b : BitVec 6) (ty : Ty) (ord : BitVec 2) : Plan := amoPlan 5 d a b none ty ord
def planAmoXor (d a b : BitVec 6) (ty : Ty) (ord : BitVec 2) : Plan := amoPlan 6 d a b none ty ord
def planAmoMin (d a b : BitVec 6) (ty : Ty) (ord : BitVec 2) : Plan := amoPlan 7 d a b none ty ord
def planAmoMax (d a b : BitVec 6) (ty : Ty) (ord : BitVec 2) : Plan := amoPlan 8 d a b none ty ord
def planAmoMinn (d a b : BitVec 6) (ty : Ty) (ord : BitVec 2) : Plan := amoPlan 9 d a b none ty ord
def planAmoMaxn (d a b : BitVec 6) (ty : Ty) (ord : BitVec 2) : Plan := amoPlan 10 d a b none ty ord

/-! ### vamo (R293–R295) -/

/-- A vector atomic as it goes: the state, what each element that fired has come to, the values that stand at addresses of
other devices now, and what goes to them. -/
structure Firing where
  s    : State
  outs : Tab Outcome
  seen : Tab Nat
  sent : List (Nat × PeerElt)

/-- One element's atomic, in ascending order of elements (R294): each reads what those before it left. -/
def Firing.step (f : Firing) (m : Pages) (t : Strand) (op : Nat) (ty : Ty) (b c : Nat → Elt) (a : Aim) : Firing :=
  let w := ty.width / 8
  let out := fun (o : Outcome) => { f with outs := Tab.put f.outs a.i o }
  match f.s.checkIn m .atomic a.va w, b a.i with
  | .ok p, .full x =>
    if f.s.tideHeld t a.va w || f.s.stalled p then out .held
    else
      let cmp := match c a.i with
        | .full y => y
        | _ => 0
      (match f.s.atomicOld f.seen p a.va w with
        | .bad _ => { out (.fired .quiet) with sent := f.sent ++ (p.peerElt w none x cmp).toList }
        | .fail tr => out (.fired (.fault tr))
        | .held => out .held
        | .val old =>
          match p.peerElt w none x cmp with
          | some y => { out (.fired (.val old)) with
              seen := Tab.put f.seen a.va.toNat (amoNew op ty old x cmp), sent := f.sent ++ [y] }
          | none => { out (.fired (.val old)) with s := f.s.storeAt p w (amoNew op ty old x cmp) })
  | _, _ => f

/-- `vamo` (R294). One that acquires is not begun, for younger accesses, before it is done (R292). Every home is asked
first, and performs its elements as one event (R253, R288). -/
def vamoPlan (op : Nat) (v : VCtl) (d a b c : BitVec 6) (ty : Ty) (mode : BitVec 2) (ret : Bool) (ord k : BitVec 2) :
    Plan where
  cls := .m
  lanes := true
  reads := vnames v ++ baseNames (modeTid a mode) a ++ bname b ++ bname c
  writes := if ret then [.v d.toNat] else []
  w := ty.width
  len := some v.ls
  check := fun s => firstTrap [writeCheck (modeTid a mode) ty s, lengthCheck v ty.width s]
  fire := fun s older e0 =>
    let td := modeTid a mode
    let e := e0.forForm s td
    let w := ty.width
    let todo := s.todo older e v
    let q := fun i => s.mask older v i
    let r := fun i => s.reach older e (gatherWay a mode k e) b w i
    let src := fun i => s.elt older e c w i
    let old := fun i => (s.srcV older d.toNat).get w i
    let cmp := fun i => if op = 1 then old i else .full 0
    let val := fun i => if src i == .empty || cmp i == .empty then Elt.empty
      else if src i == .poison || cmp i == .poison then .poison else src i
    if !allDone older || !s.ready older v todo fun i => (r i).known && val i != .empty then (s, e)
    else
      let aims := aimsOf q r todo
      let m := s.pagesOn e .atomic .data (aims.map Aim.va)
      let s0 := s.askHomes m .atomic (op + 2) ty false (aims.map fun a => (a.va, w / 8))
      match wholeFault s m .atomic (w / 8) aims with
      | some t => (s0, { e with flt := some t })
      | none =>
        let pooled := aims.any fun x => match s.checkIn m .atomic x.va (w / 8) with
          | .ok p => p.pooled
          | .error _ => false
        let go := (aims.filter fun x => val x.i != .poison).foldl (fun f x => f.step m s.me op ty val cmp x)
          (⟨s0.orderBefore ord pooled, [], [], []⟩ : Firing)
        let s1 := (go.s.sendPeers (op + 2) ty false go.sent).orderAfter ord pooled
        let singles := fun i => if q i == .full 0 then none else singleFault (q i) (val i) (r i) i
        let out := fun i => match singles i with
          | some t => Outcome.fired (.fault t)
          | none => Tab.get Outcome.wait go.outs i
        let lost := lowestTrap (aims.map fun x =>
          match Tab.get Outcome.wait go.outs x.i, s.checkIn m .atomic x.va (w / 8) with
          | .fired .quiet, .ok p => some { memoryError 3 x.va p with elem := some x.i }
          | _, _ => none)
        let active := fun i => if q i == .poison then Elt.full 1 else q i
        let e1 := if ret then loadGo { e with pages := m } d.toNat w e.n (zeroed v) active old out
          else
            let fired := todo.filter fun i => match out i with
              | .fired (.fault _) => false
              | .fired _ => true
              | _ => false
            { e with
              mask := fired.foldl (fun k i => putBits k i 1 1) e.mask, pages := m
              held := todo.any fun i => out i == .held
              flt := lowestTrap (todo.map fun i => match out i with
                | .fired (.fault t) => some { t with elem := some i }
                | _ => none)
              done := fired.length == todo.length }
        let e2 := { e1 with
          bad := lowerTrap e1.bad lost, begun := e1.mask != 0 && !ord.getLsbD 0
          later := if e1.done then [] else s.restSpans older e1 v m .atomic r (w / 8) }
        (s1.noteLatent e2 (latentAt s older e v (fun i => src i :: (r i).spoilt) w
          (if ret then s.srcV older d.toNat else VReg.zero)), e2)

def planVamoSwap (v : VCtl) (d a b c : BitVec 6) (ty : Ty) (mode : BitVec 2) (ret : BitVec 1) (ord k : BitVec 2) : Plan :=
  vamoPlan 0 v d a b c ty mode (ret == 1) ord k
def planVamoCas (v : VCtl) (d a b c : BitVec 6) (ty : Ty) (mode : BitVec 2) (ret : BitVec 1) (ord k : BitVec 2) : Plan :=
  vamoPlan 1 v d a b c ty mode (ret == 1) ord k
def planVamoAdd (v : VCtl) (d a b c : BitVec 6) (ty : Ty) (mode : BitVec 2) (ret : BitVec 1) (ord k : BitVec 2) : Plan :=
  vamoPlan 2 v d a b c ty mode (ret == 1) ord k
def planVamoFadd (v : VCtl) (d a b c : BitVec 6) (ty : Ty) (mode : BitVec 2) (ret : BitVec 1) (ord k : BitVec 2) : Plan :=
  vamoPlan 3 v d a b c ty mode (ret == 1) ord k
def planVamoAnd (v : VCtl) (d a b c : BitVec 6) (ty : Ty) (mode : BitVec 2) (ret : BitVec 1) (ord k : BitVec 2) : Plan :=
  vamoPlan 4 v d a b c ty mode (ret == 1) ord k
def planVamoOr (v : VCtl) (d a b c : BitVec 6) (ty : Ty) (mode : BitVec 2) (ret : BitVec 1) (ord k : BitVec 2) : Plan :=
  vamoPlan 5 v d a b c ty mode (ret == 1) ord k
def planVamoXor (v : VCtl) (d a b c : BitVec 6) (ty : Ty) (mode : BitVec 2) (ret : BitVec 1) (ord k : BitVec 2) : Plan :=
  vamoPlan 6 v d a b c ty mode (ret == 1) ord k
def planVamoMin (v : VCtl) (d a b c : BitVec 6) (ty : Ty) (mode : BitVec 2) (ret : BitVec 1) (ord k : BitVec 2) : Plan :=
  vamoPlan 7 v d a b c ty mode (ret == 1) ord k
def planVamoMax (v : VCtl) (d a b c : BitVec 6) (ty : Ty) (mode : BitVec 2) (ret : BitVec 1) (ord k : BitVec 2) : Plan :=
  vamoPlan 8 v d a b c ty mode (ret == 1) ord k
def planVamoMinn (v : VCtl) (d a b c : BitVec 6) (ty : Ty) (mode : BitVec 2) (ret : BitVec 1) (ord k : BitVec 2) : Plan :=
  vamoPlan 9 v d a b c ty mode (ret == 1) ord k
def planVamoMaxn (v : VCtl) (d a b c : BitVec 6) (ty : Ty) (mode : BitVec 2) (ret : BitVec 1) (ord k : BitVec 2) : Plan :=
  vamoPlan 10 v d a b c ty mode (ret == 1) ord k

/-! ### Links (R297–R299) -/

/-- Links added for lines, in order, while the table has room; a line that stands in it keeps its entry. -/
def addLinks : List (Nat × Nat) → List Link → List Link
  | [], t => t
  | (line, slot) :: rest, t =>
    if t.length = 64 ∨ t.any (fun l => l.line == line && l.slot == slot) then addLinks rest t
    else addLinks rest (t ++ [⟨line, slot, false⟩])

/-- The line and key slot of a place, as links name it. -/
def Place.link (p : Place) : Option (Nat × Nat) := p.block.map fun l => (l, p.slot)

/-- `vgl` (R298): a gather whose elements link their lines as they perform. -/
def planVgl (v : VCtl) (d a b : BitVec 6) (rm : Rm) (ty : Ty) (sat : BitVec 1) (mode k : BitVec 2) : Plan :=
  let td := modeTid a mode
  let base := readPlan v d a b rm ty sat td (bname b) (gatherWay a mode k) .link
  { base with
    fire := fun s older e0 =>
      let (s1, e1) := base.fire s older e0
      if !e1.begun && !e1.done then (s1, e1)
      else
        let e := e0.forForm s td
        let new := (List.range (min e.n 2048)).filter fun i => e1.mask.getLsbD i && !e0.mask.getLsbD i
        let vas := new.flatMap fun i => ((s.reach older e (gatherWay a mode k e) b ty.width i).spans 1).map Prod.fst |>.take 1
        let lines := vas.filterMap fun va => match s.checkIn e1.pages .read va 1 with
          | .ok p => p.link
          | .error _ => none
        (s1.setMe { s1.me with links := addLinks lines (if e0.begun then s1.me.links else []) }, e1) }

/-- A line holds an unbroken link. -/
def Strand.linked (t : Strand) (p : Place) : Bool :=
  t.links.any fun l => !l.broken && p.link == some (l.line, l.slot)

/-- The highest of the elements at an address. -/
def highest (aims : List Aim) (a : Aim) : Bool := aims.all fun x => x.va != a.va || x.high != a.high || decide (x.i ≤ a.i)

/-- `vscc` (R299). Its read half is held by tide marks (R72, R288). Its own writes break no link of its strand (R297). -/
def planVscc (v : VCtl) (d a b c : BitVec 6) (ty : Ty) (mode k : BitVec 2) : Plan where
  cls := .m
  lanes := true
  reads := vnames v ++ baseNames (modeTid a mode) a ++ bname b ++ bname c
  writes := [.q d.toNat]
  len := some v.ls
  check := fun s => firstTrap [writeCheck (modeTid a mode) ty s, lengthCheck v ty.width s]
  fire := fun s older e0 =>
    let td := modeTid a mode
    let e := e0.forForm s td
    let w := ty.width
    let bytes := e.eltBytes td w
    let todo := s.todo older e v
    let q := fun i => s.mask older v i
    let r := fun i => s.reach older e (gatherWay a mode k e) b w i
    let val := fun i => s.elt older e c w i
    if !allDone older || !s.ready older v todo fun i => (r i).known && val i != .empty then (s, e)
    else
      let everyone := aimsOf q r ((List.range (min e.n 2048)).filter fun i => q i != .full 0)
      let aims := everyone.filter fun x => !e.mask.getLsbD x.i
      let m := s.pagesOn e .write .data (aims.map Aim.va)
      let s0 := s.askHomes m .write 1 .i8 false (aims.map fun a => (a.va, bytes))
      match wholeFault s m .write bytes aims with
      | some t => (s0, { e with flt := some t })
      | none =>
        let waits := fun (x : Aim) => match s.checkIn m .write x.va bytes with
          | .ok p => s.tideHeld s.me x.va bytes || s.stalled p
          | .error _ => false
        let ready := aims.filterMap fun x =>
          match val x.i, s.checkIn m .write x.va bytes with
          | .full y, .ok p => if waits x then none else some (x, p, y)
          | _, _ => none
        let wins := fun (x : Aim × Place × Nat) => s.me.linked x.2.1 && highest everyone x.1
        let s1 := writeValues s0 e td w (ready.filter wins)
        let s1 := s1.setMe { s1.me with links := s.me.links }
        let bits : Tab Nat := ready.map fun x => (x.1.i, if wins x then 1 else 0)
        let flt := lowestTrap (todo.map fun i => singleFault (q i) (val i) (r i) i)
        let held := aims.any waits
        let mask := ready.foldl (fun k x => putBits k x.1.i 1 1) e.mask
        let e1 := ({ e with done := true, mask := mask, begun := mask != 0, pages := m } : Entry).passQ d.toNat fun i =>
            if e.n ≤ i then .copy ((s.srcQ older d.toNat).get i)
            else
              match q i, Tab.find bits i with
              | .full 0, _ => .val 0
              | _, some x => .val x
              | _, none => .wait
        let s2 := if e1.done then s1.setMe { s1.me with links := [] } else s1
        (s2.noteLatent e1 (latentAt s older e v (fun i => val i :: (r i).spoilt) w VReg.zero),
          { e1 with held := held, flt := flt, later := if e1.done then [] else s.restSpans older e1 v m .write r bytes })

/-! ### xred (R301–R303) -/

/-- A reduction fault (R305 cause 29). -/
def reductionFault (reason : Nat) : Trap := { cause := 29, info := reason }

/-- The launch and the item of the strand that acts. -/
def State.myLaunch (s : State) : Option Launch := s.me.work.bind fun w => Tab.find s.launches w.launch

/-- The gang of a launch is broken (R303, R378). -/
def State.gangBroken (s : State) (l : Launch) : Bool := l.gseq.any fun g => (Tab.find s.gangs g).any Gang.broken

/-- The elements of the registers that are ready and have not been contributed (R302): register m, element i at m·n + i,
2^64 for POISON. -/
def contribution (regs : List VReg) (w n : Nat) (sent : List (Nat × Nat)) : List (Nat × Nat) :=
  (List.range (regs.length * n)).filterMap fun j =>
    if (Tab.find sent j).isSome then none
    else
      match (regs.getD (j / n) VReg.zero).get w (j % n) with
      | .empty => none
      | .full x => some (j, x)
      | .poison => some (j, 2 ^ 64)

/-- The contributions to an `xred` of a work item (R302). -/
def State.matched (s : State) (w : WorkItem) (inst : Nat) : List Contribution :=
  s.xreds.filter fun c => c.launch == w.launch && c.linear == w.linear && c.inst == inst && c.terms != []

/-- A counterpart's work item has retired without all of its part (R303). -/
def State.leftOut (s : State) (w : WorkItem) (cs : List Contribution) (total : Nat) : Bool :=
  s.xreds.any fun c => c.launch == w.launch && c.linear == w.linear && c.terms == [] &&
    cs.all fun k => k.member != c.member || decide (k.vals.length < total)

/-- One element combined once it has come from all `d` members, in the order in which they stand; POISON spreads
(R302, R303). -/
def combineAt (o : RedOp) (ty : Ty) (d : Nat) (cs : List Contribution) (j : Nat) : Fired :=
  match cs.filterMap fun c => Tab.find c.vals j with
  | [] => .wait
  | x :: xs =>
    if xs.length + 1 < d then .wait
    else if (x :: xs).contains (2 ^ 64) then .poison
    else .val (xs.foldl (fun acc y => o.apply ty false .rne acc y) x)

/-- The vector destinations of an `xred` written with what `f` gives for register m and element i (R302, R134). -/
def xredWrite (s : State) (older : List Entry) (e : Entry) (d g w : Nat) (f : Nat → Nat → Fired) : Entry :=
  (List.range (g + 1)).foldl (fun e m => e.passV (d + m) w fun i =>
    if e.n ≤ i then .copy ((s.srcV older (d + m)).get w i) else f m i) { e with done := true }

/-- Elements added to what a member has contributed to an `xred`. -/
def addContribution (xs : List Contribution) (c : Contribution) : List Contribution :=
  let same := fun (k : Contribution) => k.launch == c.launch && k.linear == c.linear && k.inst == c.inst &&
    k.member == c.member && k.terms == c.terms
  if xs.any same then xs.map fun k => if same k then { k with vals := k.vals ++ c.vals } else k else xs ++ [c]

/-- This device's own contribution, here and to every counterpart. -/
def State.contribute (s : State) (l : Launch) (w : WorkItem) (inst : Nat) (terms : List Nat) (vals : List (Nat × Nat)) : State :=
  { s with
    xreds := addContribution s.xreds ⟨w.launch, w.linear, inst, l.member, terms, vals⟩
    out := s.out ++ [.xred (l.gseq.getD 0) w.linear inst terms vals] }

/-- An `xred` of a gang of several members goes on (R302, R303): each element is contributed when it is ready, and
combined when it has come from every member. -/
def xredGo (s : State) (older : List Entry) (e : Entry) (o : RedOp) (l : Launch) (item : WorkItem) (terms : List Nat)
    (d g w : Nat) (ty : Ty) : State × Entry :=
  let regs := (List.range (g + 1)).map fun m => s.srcV older (d + m)
  let inst := ((Tab.find l.items item.linear).map Item.nxred).getD 0
  let mine := (s.matched item inst).find? fun c => c.member == l.member
  let new := contribution regs w e.n ((mine.map Contribution.vals).getD [])
  let s1 := if mine.isSome && new.isEmpty then s else s.contribute l item inst terms new
  let cs := s1.matched item inst
  if cs.any fun c => c.terms != terms then (s1, { e with flt := some (reductionFault 2) })
  else
    let e1 := xredWrite s older e d g w fun m i => combineAt o ty l.members cs (m * e.n + i)
    if e1.done && decide (l.members ≤ cs.length) then
      let s2 := s1.mapItem item.launch item.linear fun i => { i with nxred := i.nxred + 1 }
      ({ s2 with xreds := s2.xreds.filter fun c =>
          !(c.launch == item.launch && c.linear == item.linear && c.inst == inst && c.terms != []) }, e1)
    else if s1.leftOut item cs ((g + 1) * e.n) then (s1, { e1 with done := false, flt := some (reductionFault 3) })
    else (s1, { e1 with done := false, held := true })

/-- `xred` (R302, R303). An `xred` follows the strand's older ones. What it sends another member cannot fire again (R329). -/
def xredPlan (o : RedOp) (fn : Nat) (v : VCtl) (d a : BitVec 6) (ty : Ty) (g : BitVec 3) : Plan where
  cls := .m
  mem := false
  lanes := true
  reads := vnames v ++ sname a
  writes := (List.range (g.toNat + 1)).map fun i => .v (d.toNat + i)
  w := ty.width
  len := some v.ls
  check := fun s => firstTrap [lengthCheck v ty.width s, require s.me.work.isSome (reductionFault 1)]
  fire := fun s older e =>
    let w := ty.width
    match s.me.work, s.myLaunch with
    | some item, some l =>
      if l.members ≤ 1 then
        (s, xredWrite s older e d.toNat g.toNat w fun m i =>
          match (s.srcV older (d.toNat + m)).get w i with
          | .full x => .val x
          | .poison => .poison
          | .empty => .wait)
      else if s.gangBroken l then (s, { e with flt := some { cause := 30 } })
      else if !settledFor older then (s, e)
      else if older.any fun x => !x.done && field x.word 54 7 == 0x73 && !x.word.getLsbD 62 then (s, e)
      else xredGo s older e o l item [(e.arg a).toNat, fn, Ty.code4 ty, g.toNat, e.n] d.toNat g.toNat w ty
    | _, _ => (s, { e with flt := some (reductionFault 1) })

def planXredAdd (v : VCtl) (d a : BitVec 6) (ty : Ty) (g : BitVec 3) : Plan := xredPlan .add 0 v d a ty g
def planXredMin (v : VCtl) (d a : BitVec 6) (ty : Ty) (g : BitVec 3) : Plan := xredPlan .min 1 v d a ty g
def planXredMax (v : VCtl) (d a : BitVec 6) (ty : Ty) (g : BitVec 3) : Plan := xredPlan .max 2 v d a ty g

end Sys2Proof.Machine
end

