-- ==== Sys2Proof/Machine/Legal.lean ====
section
/-!
DEFINITION. Which words are legal (03, R40 to R45, R50), said of their fields without building an instruction: what
`Decode` accepts. The portable set DQI-1 (04, R56) and the lifetime classes (R53) are parts of it.
-/

namespace Sys2Proof.Machine

/-- The element type of a code (R40). -/
def tyOfBits (c : BitVec 4) : Ty := Ty.ofCode c

/-- Primary opcode 0x01. -/
def legalOp01 (f : Full) (_rm : Rm) : Bool :=
  match f.fn.toNat with
  | 0 => f.d == 0 && f.a == 0 && f.b == 0 && f.ls == 0 && f.q == 0 && f.k == 0 && f.rm == 0
  | _ => false

/-- Primary opcode 0x02. -/
def legalOp02 (f : Full) (_rm : Rm) : Bool :=
  match f.fn.toNat with
  | 0 | 1 | 2 | 3 | 4 | 5 => f.d == 0 && f.ls == 0 && f.q == 0 && f.k == 0 && f.rm == 0 && Wf.sc f.a && Wf.sc f.b
  | _ => false

/-- Primary opcode 0x03. -/
def legalOp03 (f : Full) (_rm : Rm) : Bool :=
  match f.fn.toNat with
  | 0 | 1 => f.d == 0 && f.b == 0 && f.ls == 0 && f.q == 0 && f.k == 0 && f.rm == 0 && Wf.sc f.a
  | _ => false

/-- Primary opcode 0x04. -/
def legalOp04 (f : Full) (_rm : Rm) : Bool :=
  match f.fn.toNat with
  | 0 | 1 => f.x == 0 && f.d == 0 && f.b == 0 && f.ls == 0 && f.q == 0 && f.k == 0 && f.rm == 0 && Wf.sc f.a
  | 2 => f.x == 0 && f.d == 0 && f.a == 0 && f.b == 0 && f.ls == 0 && f.q == 0 && f.k == 0 && f.rm == 0
  | _ => false

/-- Primary opcode 0x05. -/
def legalOp05 (f : Full) (_rm : Rm) : Bool :=
  match f.fn.toNat with
  | 0 => f.d == 0 && f.a == 0 && f.b == 0 && f.ls == 0 && f.q == 0 && f.k == 0 && f.rm == 0
  | _ => false

/-- Primary opcode 0x06. -/
def legalOp06 (f : Full) (_rm : Rm) : Bool :=
  match f.fn.toNat with
  | 0 => (f.x.extractLsb' 0 14) == 0 && f.ls == 0 && f.q == 0 && f.k == 0 && f.rm == 0 && Wf.sc f.d && Wf.sc f.a && Wf.sc f.b && Wf.sc (f.x.extractLsb' 14 6)
  | 1 => f.x == 0 && f.d == 0 && f.a == 0 && f.b == 0 && f.ls == 0 && f.q == 0 && f.k == 0 && f.rm == 0
  | _ => false

/-- Primary opcode 0x07. -/
def legalOp07 (f : Full) (_rm : Rm) : Bool :=
  match f.fn.toNat with
  | 0 | 1 => f.x == 0 && f.b == 0 && f.ls == 0 && f.q == 0 && f.k == 0 && f.rm == 0 && Wf.sc f.d && Wf.sc f.a
  | _ => false

/-- Primary opcode 0x08. -/
def legalOp08 (f : Full) (_rm : Rm) : Bool :=
  match f.fn.toNat with
  | 0 => (f.x == 0 && f.a == 0 && f.b == 0 && f.ls == 0 && f.q == 0 && f.k == 0 && f.rm == 0 && Wf.sc f.d) || ((f.x.extractLsb' 4 16) == 0 && (f.x.extractLsb' 3 1) == 1 && f.a == 0 && f.b == 0 && f.ls == 0 && f.q == 0 && f.k == 0 && f.rm == 0 && Wf.sc f.d)
  | 1 => (f.x.extractLsb' 3 17) == 0 && f.d == 0 && f.a == 0 && f.b == 0 && f.ls == 0 && f.q == 0 && f.k == 0 && f.rm == 0 && decide ((f.x.extractLsb' 0 3).toNat < 6)
  | _ => false

/-- Primary opcode 0x09. -/
def legalOp09 (f : Full) (_rm : Rm) : Bool :=
  match f.fn.toNat with
  | 0 => (f.x.extractLsb' 4 10) == 0 && f.d == 0 && f.ls == 0 && f.q == 0 && f.k == 0 && f.rm == 0 && Wf.sc f.a && Wf.sc f.b && Wf.sc (f.x.extractLsb' 14 6)
  | 1 => (f.x.extractLsb' 4 16) == 0 && f.d == 0 && f.ls == 0 && f.q == 0 && f.k == 0 && f.rm == 0 && Wf.sc f.a && Wf.sc f.b
  | 2 => (f.x.extractLsb' 4 16) == 0 && f.a == 0 && f.b == 0 && f.ls == 0 && f.q == 0 && f.k == 0 && f.rm == 0 && Wf.sc f.d
  | _ => false

/-- Primary opcode 0x0A. -/
def legalOp0A (f : Full) (_rm : Rm) : Bool :=
  match f.fn.toNat with
  | 0 => (f.x == 0 && f.ls == 0 && f.q == 0 && f.k == 0 && f.rm == 0 && Wf.sc f.d && Wf.sc f.a && Wf.sc f.b) || ((f.x.extractLsb' 1 19) == 0 && (f.x.extractLsb' 0 1) == 1 && f.b == 0 && f.ls == 0 && f.q == 0 && f.k == 0 && f.rm == 0 && Wf.sc f.d && Wf.sc f.a)
  | _ => false

/-- Primary opcode 0x0B. -/
def legalOp0B (f : Full) (_rm : Rm) : Bool :=
  match f.fn.toNat with
  | 0 => f.d == 0 && f.a == 0 && f.b == 0 && f.ls == 0 && f.q == 0 && f.k == 0 && f.rm == 0
  | 1 => f.x == 0 && f.d == 0 && f.a == 0 && f.b == 0 && f.ls == 0 && f.q == 0 && f.k == 0 && f.rm == 0
  | _ => false

/-- Primary opcode 0x0C. -/
def legalOp0C (f : Full) (_rm : Rm) : Bool :=
  match f.fn.toNat with
  | 0 | 1 => f.x == 0 && f.ls == 0 && f.q == 0 && f.k == 0 && f.rm == 0 && Wf.sc f.d && Wf.sc f.a && Wf.sc f.b
  | _ => false

/-- Primary opcode 0x0D. -/
def legalOp0D (f : Full) (_rm : Rm) : Bool :=
  match f.fn.toNat with
  | 0 => (f.x.extractLsb' 3 17) == 0 && f.b == 0 && f.ls == 0 && f.q == 0 && f.k == 0 && f.rm == 0 && Wf.sc f.d && Wf.sc f.a
  | _ => false

/-- Primary opcode 0x10. -/
def legalOp10 (f : Full) (_rm : Rm) : Bool :=
  match f.fn.toNat with
  | 0 | 1 | 2 | 3 | 4 | 5 | 6 | 7 | 8 | 9 | 10 | 11 | 12 | 13 | 14 | 15 | 16 | 17 | 18 => f.x == 0 && f.ls == 0 && f.q == 0 && f.k == 0 && f.rm == 0 && Wf.sc f.d && Wf.sc f.a && Wf.sc f.b
  | 32 | 33 | 34 | 35 | 36 | 37 | 38 | 39 | 40 | 45 | 46 | 47 | 48 | 49 | 50 => f.b == 0 && f.ls == 0 && f.q == 0 && f.k == 0 && f.rm == 0 && Wf.sc f.d && Wf.sc f.a
  | 41 | 42 | 43 | 44 => f.b == 0 && f.ls == 0 && f.q == 0 && f.k == 0 && f.rm == 0 && Wf.sc f.d && Wf.sc f.a && decide (f.x.toNat < 64)
  | _ => false

/-- Primary opcode 0x11. -/
def legalOp11 (f : Full) (_rm : Rm) : Bool :=
  match f.fn.toNat with
  | 0 | 1 | 2 | 3 => f.x == 0 && f.ls == 0 && f.q == 0 && f.k == 0 && f.rm == 0 && Wf.sc f.d && Wf.sc f.a && Wf.sc f.b
  | _ => false

/-- Primary opcode 0x12. -/
def legalOp12 (f : Full) (_rm : Rm) : Bool :=
  match f.fn.toNat with
  | 0 | 1 | 2 => f.x == 0 && f.b == 0 && f.ls == 0 && f.q == 0 && f.k == 0 && f.rm == 0 && Wf.sc f.d && Wf.sc f.a
  | _ => false

/-- Primary opcode 0x13. -/
def legalOp13 (f : Full) (_rm : Rm) : Bool :=
  match f.fn.toNat with
  | 0 => (f.x.extractLsb' 0 14) == 0 && f.ls == 0 && f.q == 0 && f.k == 0 && f.rm == 0 && Wf.sc f.d && Wf.sc f.a && Wf.sc f.b && Wf.sc (f.x.extractLsb' 14 6)
  | _ => false

/-- Primary opcode 0x14. -/
def legalOp14 (f : Full) (_rm : Rm) : Bool :=
  match f.fn.toNat with
  | 0 | 1 => f.a == 0 && f.b == 0 && f.ls == 0 && f.q == 0 && f.k == 0 && f.rm == 0 && Wf.sc f.d
  | _ => false

/-- Primary opcode 0x15. -/
def legalOp15 (f : Full) (_rm : Rm) : Bool :=
  match f.fn.toNat with
  | 0 => f.a == 0 && f.b == 0 && f.ls == 0 && f.q == 0 && f.k == 0 && f.rm == 0 && Wf.sc f.d
  | 1 => (f.x.extractLsb' 2 18) == 0 && f.ls == 0 && f.q == 0 && f.k == 0 && f.rm == 0 && Wf.sc f.d && Wf.sc f.a && Wf.sc f.b
  | _ => false

/-- Primary opcode 0x16. -/
def legalOp16 (f : Full) (_rm : Rm) : Bool :=
  match f.fn.toNat with
  | 0 => ((f.x.extractLsb' 7 7) == 0 && (f.x.extractLsb' 6 1) == 0 && f.b == 0 && f.ls == 0 && f.q == 0 && f.k == 0 && f.rm == 0 && Wf.sc f.d && Wf.sc f.a && decide ((f.x.extractLsb' 14 6).toNat + (f.x.extractLsb' 0 6).toNat < 64)) || ((f.x.extractLsb' 7 7) == 0 && (f.x.extractLsb' 6 1) == 1 && f.b == 0 && f.ls == 0 && f.q == 0 && f.k == 0 && f.rm == 0 && Wf.sc f.d && Wf.sc f.a && decide ((f.x.extractLsb' 14 6).toNat + (f.x.extractLsb' 0 6).toNat < 64))
  | 1 => (f.x.extractLsb' 7 7) == 0 && (f.x.extractLsb' 6 1) == 0 && f.b == 0 && f.ls == 0 && f.q == 0 && f.k == 0 && f.rm == 0 && Wf.sc f.d && Wf.sc f.a && decide ((f.x.extractLsb' 14 6).toNat + (f.x.extractLsb' 0 6).toNat < 64)
  | _ => false

/-- Primary opcode 0x17. -/
def legalOp17 (f : Full) (_rm : Rm) : Bool :=
  match f.fn.toNat with
  | 0 => (f.x.extractLsb' 6 14) == 0 && f.d == 0 && f.a == 0 && f.b == 0 && f.ls == 0 && f.q == 0 && f.k == 0 && f.rm == 0 && decide ((f.x.extractLsb' 0 6).toNat ≤ 32)
  | _ => false

/-- Primary opcode 0x20. -/
def legalOp20 (f : Full) (_rm : Rm) : Bool :=
  match f.fn.toNat with
  | 0 | 1 | 2 | 4 => f.x == 0 && f.ls == 0 && f.q == 0 && f.k == 0 && Wf.sc f.d && Wf.sc f.a && Wf.sc f.b
  | 3 => (f.x.extractLsb' 0 14) == 0 && f.ls == 0 && f.q == 0 && f.k == 0 && Wf.sc f.d && Wf.sc f.a && Wf.sc f.b && Wf.sc (f.x.extractLsb' 14 6)
  | 5 => f.x == 0 && f.b == 0 && f.ls == 0 && f.q == 0 && f.k == 0 && Wf.sc f.d && Wf.sc f.a
  | _ => false

/-- Primary opcode 0x21. -/
def legalOp21 (f : Full) (_rm : Rm) : Bool :=
  match f.fn.toNat with
  | 0 | 1 | 2 | 3 => f.x == 0 && f.ls == 0 && f.q == 0 && f.k == 0 && f.rm == 0 && Wf.sc f.d && Wf.sc f.a && Wf.sc f.b
  | _ => false

/-- Primary opcode 0x22. -/
def legalOp22 (f : Full) (_rm : Rm) : Bool :=
  match f.fn.toNat with
  | 0 | 1 | 2 | 3 => f.x == 0 && f.b == 0 && f.ls == 0 && f.q == 0 && f.k == 0 && Wf.sc f.d && Wf.sc f.a
  | _ => false

/-- Primary opcode 0x23. -/
def legalOp23 (f : Full) (_rm : Rm) : Bool :=
  match f.fn.toNat with
  | 0 => (f.x.extractLsb' 12 8) == 0 && f.a == 0 && f.b == 0 && f.ls == 0 && f.q == 0 && f.k == 0 && f.rm == 0 && Wf.sc f.d && Wf.spr (f.x.extractLsb' 0 12)
  | 1 => ((f.x.extractLsb' 12 8) == 0 && f.d == 0 && f.b == 0 && f.ls == 0 && f.q == 0 && f.k == 0 && f.rm == 0 && Wf.sc f.a && Wf.spr (f.x.extractLsb' 0 12))
  | _ => false

/-- Primary opcode 0x28. -/
def legalOp28 (f : Full) (_rm : Rm) : Bool :=
  match f.fn.toNat with
  | 0 => (f.x.extractLsb' 14 6) == 0 && (f.x.extractLsb' 0 10) == 0 && f.b == 0 && f.ls == 0 && f.q == 0 && f.k == 0 && f.rm == 0 && Wf.lenReg f.d && Wf.sc f.a
  | 1 => f.x == 0 && f.d == 0 && f.a == 0 && f.b == 0 && f.ls == 0 && f.q == 0 && f.k == 0 && f.rm == 0
  | _ => false

/-- Primary opcode 0x29. -/
def legalOp29 (f : Full) (_rm : Rm) : Bool :=
  match f.fn.toNat with
  | 0 => (f.x.extractLsb' 14 6) == 0 && (f.x.extractLsb' 9 1) == 0 && f.d == 0 && f.rm == 0 && Wf.onlyLs ⟨f.ls, f.q, f.k⟩ && Wf.sc f.a && Wf.vd f.b
  | 1 => (f.x.extractLsb' 14 6) == 0 && (f.x.extractLsb' 9 1) == 0 && f.b == 0 && f.ls == 0 && f.q == 0 && f.k == 0 && f.rm == 0 && Wf.vd f.d && Wf.sc f.a
  | _ => false

/-- Primary opcode 0x2A. -/
def legalOp2A (f : Full) (_rm : Rm) : Bool :=
  let ty := tyOfBits (f.x.extractLsb' 10 4)
  match f.fn.toNat with
  | 0 | 1 | 2 => (f.x.extractLsb' 14 6) == 0 && (f.x.extractLsb' 0 9) == 0 && f.rm == 0 && Wf.vd f.d && ty.isInt
  | 3 | 4 | 5 => (f.x.extractLsb' 14 6) == 0 && (f.x.extractLsb' 0 10) == 0 && f.rm == 0 && Wf.vd f.d && ty.isInt
  | _ => false

/-- Primary opcode 0x2B. -/
def legalOp2B (f : Full) (_rm : Rm) : Bool :=
  let ty := tyOfBits (f.x.extractLsb' 10 4)
  match f.fn.toNat with
  | 0 | 1 | 2 | 3 | 4 | 5 => (f.x.extractLsb' 14 6) == 0 && (f.x.extractLsb' 0 10) == 0 && f.rm == 0 && Wf.vd f.d && ty.isInt
  | _ => false

/-- Primary opcode 0x2C. -/
def legalOp2C (f : Full) (_rm : Rm) : Bool :=
  let ty := tyOfBits (f.x.extractLsb' 10 4)
  match f.fn.toNat with
  | 0 | 1 | 2 | 3 => (f.x.extractLsb' 14 6) == 0 && (f.x.extractLsb' 0 10) == 0 && f.rm == 0 && Wf.mk1 f.d && ty.isInt
  | _ => false

/-- Primary opcode 0x2D. -/
def legalOp2D (f : Full) (rm : Rm) : Bool :=
  let ty := tyOfBits (f.x.extractLsb' 10 4)
  match f.fn.toNat with
  | 0 | 1 => (f.x.extractLsb' 14 6) == 0 && (f.x.extractLsb' 2 8) == 0 && Wf.vd f.d && Wf.widen ty (f.x.extractLsb' 0 2) && Wf.rmFloat ty rm
  | 2 => (f.x.extractLsb' 2 7) == 0 && Wf.vd f.d && Wf.widen ty (f.x.extractLsb' 0 2) && Wf.rmFloat ty rm && Wf.satInt ty (f.x.extractLsb' 9 1)
  | _ => false

/-- Primary opcode 0x2E. -/
def legalOp2E (f : Full) (_rm : Rm) : Bool :=
  let ty := tyOfBits (f.x.extractLsb' 10 4)
  match f.fn.toNat with
  | 0 => (f.x.extractLsb' 14 6) == 0 && (f.x.extractLsb' 0 10) == 0 && f.b == 0 && f.rm == 0 && Wf.vd f.d
  | 1 => (f.x.extractLsb' 14 6) == 0 && (f.x.extractLsb' 0 10) == 0 && f.a == 0 && f.b == 0 && f.rm == 0 && Wf.vd f.d && ty.isInt
  | 2 => (f.x.extractLsb' 14 6) == 0 && (f.x.extractLsb' 0 10) == 0 && f.rm == 0 && Wf.vd f.d && Wf.noPol ⟨f.ls, f.q, f.k⟩
  | _ => false

/-- Primary opcode 0x2F. -/
def legalOp2F (f : Full) (_rm : Rm) : Bool :=
  match f.fn.toNat with
  | 0 => (f.x.extractLsb' 14 6) == 0 && (f.x.extractLsb' 0 10) == 0 && f.rm == 0 && Wf.vd f.d && Wf.sc f.b
  | _ => false

/-- Primary opcode 0x30. -/
def legalOp30 (f : Full) (_rm : Rm) : Bool :=
  match f.fn.toNat with
  | 0 => (f.x.extractLsb' 14 6) == 0 && (f.x.extractLsb' 0 10) == 0 && f.rm == 0 && Wf.vd f.d
  | 1 | 2 => (f.x.extractLsb' 14 6) == 0 && (f.x.extractLsb' 0 10) == 0 && f.rm == 0 && Wf.vd f.d && Wf.sc f.b
  | 3 => (f.x.extractLsb' 14 6) == 0 && (f.x.extractLsb' 0 10) == 0 && f.b == 0 && f.rm == 0 && Wf.vd f.d && Wf.noPol ⟨f.ls, f.q, f.k⟩
  | 4 => (f.x.extractLsb' 14 6) == 0 && (f.x.extractLsb' 0 10) == 0 && f.b == 0 && f.rm == 0 && Wf.vd f.d
  | _ => false

/-- Primary opcode 0x31. -/
def legalOp31 (f : Full) (_rm : Rm) : Bool :=
  match f.fn.toNat with
  | 0 | 1 | 2 => f.x == 0 && f.rm == 0 && Wf.mk1 f.d && Wf.mk f.a && Wf.mk f.b && Wf.onlyLs ⟨f.ls, f.q, f.k⟩
  | 3 => f.x == 0 && f.b == 0 && f.rm == 0 && Wf.mk1 f.d && Wf.mk f.a && Wf.onlyLs ⟨f.ls, f.q, f.k⟩
  | 4 | 5 => f.x == 0 && f.b == 0 && f.rm == 0 && Wf.sc f.d && Wf.mk f.a && Wf.onlyLs ⟨f.ls, f.q, f.k⟩
  | _ => false

/-- Primary opcode 0x32. -/
def legalOp32 (f : Full) (_rm : Rm) : Bool :=
  let ty := tyOfBits (f.x.extractLsb' 10 4)
  match f.fn.toNat with
  | 0 | 2 => (f.x.extractLsb' 14 6) == 0 && (f.x.extractLsb' 0 10) == 0 && f.rm == 0 && Wf.vd f.d && ty.isN
  | 1 => (f.x.extractLsb' 14 6) == 0 && (f.x.extractLsb' 0 10) == 0 && f.b == 0 && f.rm == 0 && Wf.vd f.d && ty.isN
  | _ => false

/-- Primary opcode 0x33. -/
def legalOp33 (f : Full) (_rm : Rm) : Bool :=
  let ty := tyOfBits (f.x.extractLsb' 10 4)
  match f.fn.toNat with
  | 0 => (f.x.extractLsb' 14 6) == 0 && (f.x.extractLsb' 3 7) == 0 && f.b == 0 && f.rm == 0 && Wf.vd f.d && ty.isInt
  | _ => false

/-- Primary opcode 0x40. -/
def legalOp40 (f : Full) (_rm : Rm) : Bool :=
  let ty := tyOfBits (f.x.extractLsb' 10 4)
  match f.fn.toNat with
  | 0 | 1 | 2 => (f.x.extractLsb' 14 6) == 0 && (f.x.extractLsb' 0 10) == 0 && Wf.vd f.d && ty.isF3
  | 3 | 4 => (f.x.extractLsb' 14 6) == 0 && (f.x.extractLsb' 0 10) == 0 && f.rm == 0 && Wf.vd f.d && ty.isF3
  | _ => false

/-- Primary opcode 0x41. -/
def legalOp41 (f : Full) (_rm : Rm) : Bool :=
  let ty := tyOfBits (f.x.extractLsb' 10 4)
  match f.fn.toNat with
  | 0 | 1 | 2 => (f.x.extractLsb' 0 10) == 0 && Wf.vd f.d && ty.isF3
  | _ => false

/-- Primary opcode 0x42. -/
def legalOp42 (f : Full) (_rm : Rm) : Bool :=
  let ty := tyOfBits (f.x.extractLsb' 10 4)
  match f.fn.toNat with
  | 0 => (f.x.extractLsb' 14 6) == 0 && (f.x.extractLsb' 0 10) == 0 && Wf.vd f.d && ty.isF3
  | 1 | 2 | 3 | 4 => (f.x.extractLsb' 14 6) == 0 && (f.x.extractLsb' 0 10) == 0 && f.b == 0 && Wf.vd f.d && ty.isF3
  | _ => false

/-- Primary opcode 0x43. -/
def legalOp43 (f : Full) (_rm : Rm) : Bool :=
  let ty := tyOfBits (f.x.extractLsb' 10 4)
  match f.fn.toNat with
  | 0 | 1 | 2 | 3 => (f.x.extractLsb' 14 6) == 0 && (f.x.extractLsb' 0 10) == 0 && f.rm == 0 && Wf.mk1 f.d && ty.isF3
  | _ => false

/-- Primary opcode 0x44. -/
def legalOp44 (f : Full) (rm : Rm) : Bool :=
  let ty := tyOfBits (f.x.extractLsb' 10 4)
  match f.fn.toNat with
  | 0 => (f.x.extractLsb' 14 6) == 0 && (f.x.extractLsb' 0 9) == 0 && Wf.vd f.d && ty.isRed && Wf.rmFloat ty rm && Wf.satInt ty (f.x.extractLsb' 9 1) && Wf.noPol ⟨f.ls, f.q, f.k⟩
  | 1 | 2 => (f.x.extractLsb' 14 6) == 0 && (f.x.extractLsb' 0 10) == 0 && f.rm == 0 && Wf.vd f.d && ty.isRed && Wf.noPol ⟨f.ls, f.q, f.k⟩
  | 3 | 4 | 5 => (f.x.extractLsb' 14 6) == 0 && (f.x.extractLsb' 0 10) == 0 && f.rm == 0 && Wf.vd f.d && ty.isInt && Wf.noPol ⟨f.ls, f.q, f.k⟩
  | _ => false

/-- Primary opcode 0x45. -/
def legalOp45 (f : Full) (rm : Rm) : Bool :=
  let ty := tyOfBits (f.x.extractLsb' 10 4)
  match f.fn.toNat with
  | 0 => (f.x.extractLsb' 14 6) == 0 && (f.x.extractLsb' 0 9) == 0 && Wf.vd f.d && ty.isRed && Wf.rmFloat ty rm && Wf.satInt ty (f.x.extractLsb' 9 1) && Wf.noPol ⟨f.ls, f.q, f.k⟩
  | 1 | 2 => (f.x.extractLsb' 14 6) == 0 && (f.x.extractLsb' 0 10) == 0 && f.rm == 0 && Wf.vd f.d && ty.isRed && Wf.noPol ⟨f.ls, f.q, f.k⟩
  | 3 | 4 | 5 => (f.x.extractLsb' 14 6) == 0 && (f.x.extractLsb' 0 10) == 0 && f.rm == 0 && Wf.vd f.d && ty.isInt && Wf.noPol ⟨f.ls, f.q, f.k⟩
  | _ => false

/-- Primary opcode 0x46. -/
def legalOp46 (f : Full) (rm : Rm) : Bool :=
  let ty := tyOfBits (f.x.extractLsb' 10 4)
  match f.fn.toNat with
  | 0 => (f.x.extractLsb' 14 6) == 0 && (f.x.extractLsb' 0 9) == 0 && Wf.vd f.d && ty.isRed && Wf.rmFloat ty rm && Wf.satInt ty (f.x.extractLsb' 9 1)
  | 1 | 2 => (f.x.extractLsb' 14 6) == 0 && (f.x.extractLsb' 0 10) == 0 && f.rm == 0 && Wf.vd f.d && ty.isRed
  | 3 | 4 | 5 => (f.x.extractLsb' 14 6) == 0 && (f.x.extractLsb' 0 10) == 0 && f.rm == 0 && Wf.vd f.d && ty.isInt
  | _ => false

/-- Primary opcode 0x50. -/
def legalOp50 (f : Full) (_rm : Rm) : Bool :=
  match f.fn.toNat with
  | 0 => f.x == 0 && f.b == 0 && f.ls == 0 && f.q == 0 && f.k == 0 && f.rm == 0 && Wf.fmtNo f.d && Wf.sc f.a
  | 1 => f.x == 0 && f.b == 0 && f.ls == 0 && f.q == 0 && f.k == 0 && f.rm == 0 && Wf.sc f.a
  | 2 => (f.x.extractLsb' 3 17) == 0 && f.b == 0 && f.ls == 0 && f.q == 0 && f.k == 0 && f.rm == 0 && Wf.sc f.d
  | _ => false

/-- Primary opcode 0x51. -/
def legalOp51 (f : Full) (_rm : Rm) : Bool :=
  let ty := tyOfBits (f.x.extractLsb' 10 4)
  match f.fn.toNat with
  | 0 => ((f.x.extractLsb' 14 6) == 0 && (f.x.extractLsb' 2 1) == 0 && (f.x.extractLsb' 0 2) == 0 && f.b == 0 && Wf.vd f.d && Wf.fcAny (f.x.extractLsb' 3 6)) || ((f.x.extractLsb' 14 6) == 0 && (f.x.extractLsb' 2 1) == 1 && (f.x.extractLsb' 0 2) == 0 && f.b == 0 && Wf.vd f.d && Wf.fcAny (f.x.extractLsb' 3 6))
  | 1 | 2 => (f.x.extractLsb' 14 6) == 0 && (f.x.extractLsb' 9 1) == 0 && (f.x.extractLsb' 0 3) == 0 && f.b == 0 && f.rm == 0 && Wf.vd f.d && Wf.onlyLs ⟨f.ls, f.q, f.k⟩ && ty == .n8 && Wf.fcPack (f.x.extractLsb' 3 6)
  | 3 => (f.x.extractLsb' 14 6) == 0 && (f.x.extractLsb' 0 3) == 0 && Wf.vd f.d && ty.isF3 && Wf.fcScl (f.x.extractLsb' 3 6)
  | 4 => (f.x.extractLsb' 14 6) == 0 && (f.x.extractLsb' 9 1) == 0 && (f.x.extractLsb' 0 3) == 0 && Wf.vd f.d && Wf.vd f.b && ty.isF3 && Wf.fcScl (f.x.extractLsb' 3 6) && f.d != f.b
  | _ => false

/-- Primary opcode 0x58. -/
def legalOp58 (f : Full) (_rm : Rm) : Bool :=
  match f.fn.toNat with
  | 0 | 1 => (f.x.extractLsb' 0 14) == 0 && f.ls == 0 && f.q == 0 && f.k == 0 && f.rm == 0 && Wf.tile f.d && Wf.sc f.b && Wf.sc (f.x.extractLsb' 14 6)
  | 2 => (f.x.extractLsb' 0 14) == 0 && f.ls == 0 && f.q == 0 && f.k == 0 && f.rm == 0 && Wf.tile f.a && Wf.sc f.b && Wf.sc (f.x.extractLsb' 14 6)
  | 3 => f.x == 0 && f.b == 0 && f.ls == 0 && f.q == 0 && f.k == 0 && f.rm == 0 && Wf.tile f.d
  | _ => false

/-- Primary opcode 0x59. -/
def legalOp59 (f : Full) (_rm : Rm) : Bool :=
  match f.fn.toNat with
  | 0 => f.x == 0 && f.d == 0 && f.ls == 0 && f.q == 0 && f.k == 0 && f.rm == 0 && Wf.tile f.a
  | _ => false

/-- Primary opcode 0x5A. -/
def legalOp5A (f : Full) (_rm : Rm) : Bool :=
  match f.fn.toNat with
  | 0 => (f.x.extractLsb' 14 6) == 0 && (f.x.extractLsb' 10 4) == 8 && (f.x.extractLsb' 4 6) == 0 && (f.x.extractLsb' 0 3) == 0 && f.rm == 0 && Wf.vd f.d && Wf.vd f.a
  | 1 => (f.x.extractLsb' 10 4) == 8 && (f.x.extractLsb' 4 6) == 0 && (f.x.extractLsb' 0 3) == 0 && f.rm == 0 && Wf.vd f.d && Wf.tile f.a && Wf.sc (f.x.extractLsb' 14 6)
  | 2 => (f.x.extractLsb' 14 6) == 0 && (f.x.extractLsb' 10 4) == 8 && (f.x.extractLsb' 4 6) == 0 && f.rm == 0 && Wf.vd f.d && Wf.vd f.a && Wf.rep f.d f.a f.b (f.x.extractLsb' 0 3)
  | 3 => (f.x.extractLsb' 10 4) == 8 && (f.x.extractLsb' 4 6) == 0 && (f.x.extractLsb' 0 3) == 0 && f.rm == 0 && Wf.vd f.d && Wf.vd f.a && Wf.mk1 (f.x.extractLsb' 14 6)
  | _ => false

/-- Primary opcode 0x60. -/
def legalOp60 (f : Full) (_rm : Rm) : Bool :=
  match f.fn.toNat with
  | 0 => (f.x.extractLsb' 2 18) == 0 && (f.x.extractLsb' 0 1) == 0 && f.ls == 0 && f.q == 0 && f.k == 0 && f.rm == 0 && Wf.hnd f.d && Wf.sc f.a && Wf.sc f.b
  | 1 => (f.x.extractLsb' 2 18) == 0 && f.ls == 0 && f.q == 0 && f.k == 0 && f.rm == 0 && Wf.hnd14 f.d && Wf.hnd f.a && Wf.sc f.b
  | 2 => f.x == 0 && f.ls == 0 && f.q == 0 && f.k == 0 && f.rm == 0 && Wf.hnd f.d && Wf.hnd f.a && Wf.hnd f.b
  | 3 => f.x == 0 && f.d == 0 && f.b == 0 && f.ls == 0 && f.q == 0 && f.k == 0 && f.rm == 0 && Wf.hnd f.a
  | _ => false

/-- Primary opcode 0x61. -/
def legalOp61 (f : Full) (_rm : Rm) : Bool :=
  match f.fn.toNat with
  | 0 => f.x == 0 && f.ls == 0 && f.q == 0 && f.k == 0 && f.rm == 0 && Wf.hnd f.d && Wf.hnd f.a && Wf.sc f.b
  | 1 => (f.x.extractLsb' 2 18) == 0 && f.b == 0 && f.ls == 0 && f.q == 0 && f.k == 0 && f.rm == 0 && Wf.sc f.d && Wf.hnd f.a
  | _ => false

/-- Primary opcode 0x62. -/
def legalOp62 (f : Full) (_rm : Rm) : Bool :=
  match f.fn.toNat with
  | 0 => f.x == 0 && f.rm == 0 && Wf.vd f.d && Wf.hnd f.a && Wf.sc f.b
  | 1 => (f.x.extractLsb' 0 14) == 0 && f.d == 0 && f.rm == 0 && Wf.noPol ⟨f.ls, f.q, f.k⟩ && Wf.hnd f.a && Wf.sc f.b
  | _ => false

/-- Primary opcode 0x64. -/
def legalOp64 (f : Full) (_rm : Rm) : Bool :=
  match f.fn.toNat with
  | 0 | 1 | 2 | 3 | 4 | 5 | 6 => f.b == 0 && f.ls == 0 && f.q == 0 && f.k == 0 && f.rm == 0 && Wf.sc f.d && Wf.sc f.a
  | _ => false

/-- Primary opcode 0x65. -/
def legalOp65 (f : Full) (_rm : Rm) : Bool :=
  match f.fn.toNat with
  | 0 | 1 | 2 | 3 => f.b == 0 && f.ls == 0 && f.q == 0 && f.k == 0 && f.rm == 0 && Wf.sc f.d && Wf.sc f.a
  | _ => false

/-- Primary opcode 0x66. -/
def legalOp66 (f : Full) (rm : Rm) : Bool :=
  match f.fn.toNat with
  | 0 => (f.x.extractLsb' 14 6) == 0 && Wf.vd f.d && Wf.vldBase (f.x.extractLsb' 8 1) f.a f.b (f.x.extractLsb' 0 8) && Wf.rawForm ((f.x.extractLsb' 8 1) == 0) rm (f.x.extractLsb' 9 1)
  | 1 => (f.x.extractLsb' 9 1) == 0 && f.d == 0 && f.rm == 0 && Wf.noPol ⟨f.ls, f.q, f.k⟩ && Wf.vldBase (f.x.extractLsb' 8 1) f.a f.b (f.x.extractLsb' 0 8)
  | 2 => (f.x.extractLsb' 14 6) == 0 && (f.x.extractLsb' 8 2) == 0 && f.rm == 0 && Wf.vd f.d && Wf.sc f.a && Wf.sc f.b
  | 3 => (f.x.extractLsb' 8 2) == 0 && f.d == 0 && f.rm == 0 && Wf.noPol ⟨f.ls, f.q, f.k⟩ && Wf.sc f.a && Wf.sc f.b
  | _ => false

/-- Primary opcode 0x67. -/
def legalOp67 (f : Full) (rm : Rm) : Bool :=
  match f.fn.toNat with
  | 0 => (f.x.extractLsb' 14 6) == 0 && (f.x.extractLsb' 2 5) == 0 && Wf.vd f.d && Wf.mode3 (f.x.extractLsb' 7 2) f.a (f.x.extractLsb' 0 2) && Wf.rawForm ((f.x.extractLsb' 7 2).toNat != 1) rm (f.x.extractLsb' 9 1)
  | 1 => (f.x.extractLsb' 9 1) == 0 && (f.x.extractLsb' 2 5) == 0 && f.d == 0 && f.rm == 0 && Wf.noPol ⟨f.ls, f.q, f.k⟩ && Wf.mode2 (f.x.extractLsb' 7 2) f.a (f.x.extractLsb' 0 2)
  | _ => false

/-- Primary opcode 0x68. -/
def legalOp68 (f : Full) (_rm : Rm) : Bool :=
  let ty := tyOfBits (f.x.extractLsb' 10 4)
  match f.fn.toNat with
  | 0 => (f.x.extractLsb' 2 5) == 0 && Wf.vd f.d && Wf.noPol ⟨f.ls, f.q, f.k⟩ && Wf.mode2 (f.x.extractLsb' 7 2) f.a (f.x.extractLsb' 0 2)
  | 1 => (f.x.extractLsb' 2 5) == 0 && f.d == 0 && f.rm == 0 && Wf.noPol ⟨f.ls, f.q, f.k⟩ && Wf.mode2 (f.x.extractLsb' 7 2) f.a (f.x.extractLsb' 0 2) && ty.isRed && Wf.satInt ty (f.x.extractLsb' 9 1)
  | _ => false

/-- Primary opcode 0x69. -/
def legalOp69 (f : Full) (_rm : Rm) : Bool :=
  match f.fn.toNat with
  | 0 => ((f.x.extractLsb' 2 12) == 0 && (f.x.extractLsb' 0 2) == 0 && f.ls == 0 && f.q == 0 && f.k == 0 && f.rm == 0 && Wf.tl f.d && Wf.sc f.a && Wf.sc f.b && Wf.sc (f.x.extractLsb' 14 6)) || ((f.x.extractLsb' 14 6) == 0 && (f.x.extractLsb' 2 12) == 0 && (f.x.extractLsb' 0 2) == 1 && f.ls == 0 && f.q == 0 && f.k == 0 && f.rm == 0 && Wf.tl f.d && Wf.sc f.a && Wf.sc f.b) || ((f.x.extractLsb' 14 6) == 0 && (f.x.extractLsb' 2 12) == 0 && (f.x.extractLsb' 0 2) == 2 && f.b == 0 && f.ls == 0 && f.q == 0 && f.k == 0 && f.rm == 0 && Wf.tl f.d && Wf.sc f.a)
  | _ => false

/-- Primary opcode 0x6A. -/
def legalOp6A (f : Full) (_rm : Rm) : Bool :=
  match f.fn.toNat with
  | 0 | 2 => f.x == 0 && f.ls == 0 && f.q == 0 && f.k == 0 && f.rm == 0 && Wf.tl f.d && Wf.sc f.a && Wf.sc f.b
  | 1 => f.x == 0 && f.ls == 0 && f.q == 0 && f.k == 0 && f.rm == 0 && Wf.sc f.d && Wf.sc f.a && Wf.sc f.b
  | _ => false

/-- Primary opcode 0x6B. -/
def legalOp6B (f : Full) (_rm : Rm) : Bool :=
  match f.fn.toNat with
  | 0 => f.x == 0 && f.ls == 0 && f.q == 0 && f.k == 0 && f.rm == 0 && Wf.sc f.d && Wf.sc f.a && Wf.sc f.b
  | _ => false

/-- Primary opcode 0x6C. -/
def legalOp6C (f : Full) (_rm : Rm) : Bool :=
  match f.fn.toNat with
  | 0 => (f.x == 0 && f.d == 0 && f.ls == 0 && f.q == 0 && f.k == 0 && f.rm == 0 && Wf.sc f.a && Wf.sc f.b) || ((f.x.extractLsb' 2 18) == 0 && (f.x.extractLsb' 0 2) == 1 && f.d == 0 && f.b == 0 && f.ls == 0 && f.q == 0 && f.k == 0 && f.rm == 0 && Wf.sc f.a) || ((f.x.extractLsb' 2 18) == 0 && (f.x.extractLsb' 0 2) == 2 && f.d == 0 && f.a == 0 && f.b == 0 && f.ls == 0 && f.q == 0 && f.k == 0 && f.rm == 0)
  | 1 => f.x == 0 && f.b == 0 && f.ls == 0 && f.q == 0 && f.k == 0 && f.rm == 0 && Wf.sc f.d && Wf.sc f.a
  | _ => false

/-- Primary opcode 0x6D. -/
def legalOp6D (f : Full) (_rm : Rm) : Bool :=
  match f.fn.toNat with
  | 0 => (f.x == 0 && f.d == 0 && f.b == 0 && f.ls == 0 && f.q == 0 && f.k == 0 && f.rm == 0 && Wf.sc f.a) || ((f.x.extractLsb' 2 18) == 0 && (f.x.extractLsb' 0 2) == 1 && f.ls == 0 && f.q == 0 && f.k == 0 && f.rm == 0 && Wf.sc f.d && Wf.sc f.a && Wf.sc f.b) || ((f.x.extractLsb' 2 18) == 0 && (f.x.extractLsb' 0 2) == 2 && f.b == 0 && f.ls == 0 && f.q == 0 && f.k == 0 && f.rm == 0 && Wf.sc f.d && Wf.sc f.a)
  | _ => false

/-- Primary opcode 0x70. -/
def legalOp70 (f : Full) (_rm : Rm) : Bool :=
  let ty := tyOfBits (f.x.extractLsb' 10 4)
  match f.fn.toNat with
  | 0 => (f.x.extractLsb' 14 6) == 0 && (f.x.extractLsb' 2 8) == 0 && f.ls == 0 && f.q == 0 && f.k == 0 && f.rm == 0 && Wf.sc f.d && Wf.sc f.a && Wf.sc f.b && Wf.amoTy 0 ty
  | 1 => (f.x.extractLsb' 2 8) == 0 && f.ls == 0 && f.q == 0 && f.k == 0 && f.rm == 0 && Wf.sc f.d && Wf.sc f.a && Wf.sc f.b && Wf.sc (f.x.extractLsb' 14 6) && Wf.amoTy 1 ty
  | 2 => (f.x.extractLsb' 14 6) == 0 && (f.x.extractLsb' 2 8) == 0 && f.ls == 0 && f.q == 0 && f.k == 0 && f.rm == 0 && Wf.sc f.d && Wf.sc f.a && Wf.sc f.b && Wf.amoTy 2 ty
  | 3 => (f.x.extractLsb' 14 6) == 0 && (f.x.extractLsb' 2 8) == 0 && f.ls == 0 && f.q == 0 && f.k == 0 && f.rm == 0 && Wf.sc f.d && Wf.sc f.a && Wf.sc f.b && Wf.amoTy 3 ty
  | 4 => (f.x.extractLsb' 14 6) == 0 && (f.x.extractLsb' 2 8) == 0 && f.ls == 0 && f.q == 0 && f.k == 0 && f.rm == 0 && Wf.sc f.d && Wf.sc f.a && Wf.sc f.b && Wf.amoTy 4 ty
  | 5 => (f.x.extractLsb' 14 6) == 0 && (f.x.extractLsb' 2 8) == 0 && f.ls == 0 && f.q == 0 && f.k == 0 && f.rm == 0 && Wf.sc f.d && Wf.sc f.a && Wf.sc f.b && Wf.amoTy 5 ty
  | 6 => (f.x.extractLsb' 14 6) == 0 && (f.x.extractLsb' 2 8) == 0 && f.ls == 0 && f.q == 0 && f.k == 0 && f.rm == 0 && Wf.sc f.d && Wf.sc f.a && Wf.sc f.b && Wf.amoTy 6 ty
  | 7 => (f.x.extractLsb' 14 6) == 0 && (f.x.extractLsb' 2 8) == 0 && f.ls == 0 && f.q == 0 && f.k == 0 && f.rm == 0 && Wf.sc f.d && Wf.sc f.a && Wf.sc f.b && Wf.amoTy 7 ty
  | 8 => (f.x.extractLsb' 14 6) == 0 && (f.x.extractLsb' 2 8) == 0 && f.ls == 0 && f.q == 0 && f.k == 0 && f.rm == 0 && Wf.sc f.d && Wf.sc f.a && Wf.sc f.b && Wf.amoTy 8 ty
  | 9 => (f.x.extractLsb' 14 6) == 0 && (f.x.extractLsb' 2 8) == 0 && f.ls == 0 && f.q == 0 && f.k == 0 && f.rm == 0 && Wf.sc f.d && Wf.sc f.a && Wf.sc f.b && Wf.amoTy 9 ty
  | 10 => (f.x.extractLsb' 14 6) == 0 && (f.x.extractLsb' 2 8) == 0 && f.ls == 0 && f.q == 0 && f.k == 0 && f.rm == 0 && Wf.sc f.d && Wf.sc f.a && Wf.sc f.b && Wf.amoTy 10 ty
  | _ => false

/-- Primary opcode 0x71. -/
def legalOp71 (f : Full) (_rm : Rm) : Bool :=
  let ty := tyOfBits (f.x.extractLsb' 10 4)
  match f.fn.toNat with
  | 0 => (f.x.extractLsb' 9 1) == 0 && (f.x.extractLsb' 2 2) == 0 && f.rm == 0 && Wf.vamoTy 0 ty && Wf.vamoDst f.d ⟨f.ls, f.q, f.k⟩ (f.x.extractLsb' 6 1) && Wf.mode2 (f.x.extractLsb' 7 2) f.a (f.x.extractLsb' 0 2)
  | 1 => (f.x.extractLsb' 9 1) == 0 && (f.x.extractLsb' 2 2) == 0 && f.rm == 0 && Wf.vamoTy 1 ty && Wf.vamoDst f.d ⟨f.ls, f.q, f.k⟩ (f.x.extractLsb' 6 1) && Wf.mode2 (f.x.extractLsb' 7 2) f.a (f.x.extractLsb' 0 2) && (f.x.extractLsb' 6 1) == 1
  | 2 => (f.x.extractLsb' 9 1) == 0 && (f.x.extractLsb' 2 2) == 0 && f.rm == 0 && Wf.vamoTy 2 ty && Wf.vamoDst f.d ⟨f.ls, f.q, f.k⟩ (f.x.extractLsb' 6 1) && Wf.mode2 (f.x.extractLsb' 7 2) f.a (f.x.extractLsb' 0 2)
  | 3 => (f.x.extractLsb' 9 1) == 0 && (f.x.extractLsb' 2 2) == 0 && f.rm == 0 && Wf.vamoTy 3 ty && Wf.vamoDst f.d ⟨f.ls, f.q, f.k⟩ (f.x.extractLsb' 6 1) && Wf.mode2 (f.x.extractLsb' 7 2) f.a (f.x.extractLsb' 0 2)
  | 4 => (f.x.extractLsb' 9 1) == 0 && (f.x.extractLsb' 2 2) == 0 && f.rm == 0 && Wf.vamoTy 4 ty && Wf.vamoDst f.d ⟨f.ls, f.q, f.k⟩ (f.x.extractLsb' 6 1) && Wf.mode2 (f.x.extractLsb' 7 2) f.a (f.x.extractLsb' 0 2)
  | 5 => (f.x.extractLsb' 9 1) == 0 && (f.x.extractLsb' 2 2) == 0 && f.rm == 0 && Wf.vamoTy 5 ty && Wf.vamoDst f.d ⟨f.ls, f.q, f.k⟩ (f.x.extractLsb' 6 1) && Wf.mode2 (f.x.extractLsb' 7 2) f.a (f.x.extractLsb' 0 2)
  | 6 => (f.x.extractLsb' 9 1) == 0 && (f.x.extractLsb' 2 2) == 0 && f.rm == 0 && Wf.vamoTy 6 ty && Wf.vamoDst f.d ⟨f.ls, f.q, f.k⟩ (f.x.extractLsb' 6 1) && Wf.mode2 (f.x.extractLsb' 7 2) f.a (f.x.extractLsb' 0 2)
  | 7 => (f.x.extractLsb' 9 1) == 0 && (f.x.extractLsb' 2 2) == 0 && f.rm == 0 && Wf.vamoTy 7 ty && Wf.vamoDst f.d ⟨f.ls, f.q, f.k⟩ (f.x.extractLsb' 6 1) && Wf.mode2 (f.x.extractLsb' 7 2) f.a (f.x.extractLsb' 0 2)
  | 8 => (f.x.extractLsb' 9 1) == 0 && (f.x.extractLsb' 2 2) == 0 && f.rm == 0 && Wf.vamoTy 8 ty && Wf.vamoDst f.d ⟨f.ls, f.q, f.k⟩ (f.x.extractLsb' 6 1) && Wf.mode2 (f.x.extractLsb' 7 2) f.a (f.x.extractLsb' 0 2)
  | 9 => (f.x.extractLsb' 9 1) == 0 && (f.x.extractLsb' 2 2) == 0 && f.rm == 0 && Wf.vamoTy 9 ty && Wf.vamoDst f.d ⟨f.ls, f.q, f.k⟩ (f.x.extractLsb' 6 1) && Wf.mode2 (f.x.extractLsb' 7 2) f.a (f.x.extractLsb' 0 2)
  | 10 => (f.x.extractLsb' 9 1) == 0 && (f.x.extractLsb' 2 2) == 0 && f.rm == 0 && Wf.vamoTy 10 ty && Wf.vamoDst f.d ⟨f.ls, f.q, f.k⟩ (f.x.extractLsb' 6 1) && Wf.mode2 (f.x.extractLsb' 7 2) f.a (f.x.extractLsb' 0 2)
  | _ => false

/-- Primary opcode 0x72. -/
def legalOp72 (f : Full) (rm : Rm) : Bool :=
  match f.fn.toNat with
  | 0 => (f.x.extractLsb' 14 6) == 0 && (f.x.extractLsb' 2 5) == 0 && Wf.vd f.d && Wf.mode2 (f.x.extractLsb' 7 2) f.a (f.x.extractLsb' 0 2) && Wf.rawForm ((f.x.extractLsb' 7 2).toNat != 1) rm (f.x.extractLsb' 9 1)
  | 1 => (f.x.extractLsb' 9 1) == 0 && (f.x.extractLsb' 2 5) == 0 && f.rm == 0 && Wf.mk1 f.d && Wf.noPol ⟨f.ls, f.q, f.k⟩ && Wf.mode2 (f.x.extractLsb' 7 2) f.a (f.x.extractLsb' 0 2)
  | _ => false

/-- Primary opcode 0x73. -/
def legalOp73 (f : Full) (_rm : Rm) : Bool :=
  let ty := tyOfBits (f.x.extractLsb' 10 4)
  match f.fn.toNat with
  | 0 | 1 | 2 => (f.x.extractLsb' 14 6) == 0 && (f.x.extractLsb' 3 7) == 0 && f.b == 0 && f.rm == 0 && Wf.onlyLs ⟨f.ls, f.q, f.k⟩ && Wf.sc f.a && decide (f.d.toNat + (f.x.extractLsb' 0 3).toNat ≤ 31) && ty.isXred
  | _ => false

/-- Primary opcode 0x74. -/
def legalOp74 (f : Full) (_rm : Rm) : Bool :=
  match f.fn.toNat with
  | 0 => f.x == 0 && f.d == 0 && f.a == 0 && f.b == 0 && f.ls == 0 && f.q == 0 && f.k == 0 && f.rm == 0
  | 1 | 2 => ((f.x.extractLsb' 3 17) == 0 && (f.x.extractLsb' 2 1) == 0 && (f.x.extractLsb' 0 2) == 0 && f.d == 0 && f.a == 0 && f.b == 0 && f.ls == 0 && f.q == 0 && f.k == 0 && f.rm == 0) || ((f.x.extractLsb' 3 17) == 0 && (f.x.extractLsb' 2 1) == 0 && (f.x.extractLsb' 0 2) == 1 && f.d == 0 && f.a == 0 && f.b == 0 && f.ls == 0 && f.q == 0 && f.k == 0 && f.rm == 0) || ((f.x.extractLsb' 3 17) == 0 && (f.x.extractLsb' 2 1) == 0 && (f.x.extractLsb' 0 2) == 2 && f.d == 0 && f.a == 0 && f.b == 0 && f.ls == 0 && f.q == 0 && f.k == 0 && f.rm == 0) || ((f.x.extractLsb' 3 17) == 0 && (f.x.extractLsb' 2 1) == 1 && (f.x.extractLsb' 0 2) == 1 && f.b == 0 && f.ls == 0 && f.q == 0 && f.k == 0 && f.rm == 0 && Wf.sc f.d && Wf.sc f.a) || ((f.x.extractLsb' 3 17) == 0 && (f.x.extractLsb' 2 1) == 1 && (f.x.extractLsb' 0 2) == 2 && f.d == 0 && f.ls == 0 && f.q == 0 && f.k == 0 && f.rm == 0 && Wf.sc f.a && Wf.sc f.b)
  | _ => false

/-- Primary opcode 0x75. -/
def legalOp75 (f : Full) (_rm : Rm) : Bool :=
  match f.fn.toNat with
  | 0 => f.x == 0 && f.d == 0 && f.ls == 0 && f.q == 0 && f.k == 0 && f.rm == 0 && Wf.tl f.a && Wf.sc f.b
  | 1 => f.x == 0 && f.b == 0 && f.ls == 0 && f.q == 0 && f.k == 0 && f.rm == 0 && Wf.sc f.d && Wf.tl f.a
  | _ => false

/-- Primary opcode 0x78. -/
def legalOp78 (f : Full) (_rm : Rm) : Bool :=
  let ty := tyOfBits (f.x.extractLsb' 10 4)
  match f.fn.toNat with
  | 0 => ((f.x.extractLsb' 5 5) == 0 && (f.x.extractLsb' 4 1) == 0 && f.rm == 0 && Wf.onlyLs ⟨f.ls, f.q, f.k⟩ && Wf.vd f.d && Wf.vd f.a && Wf.sc f.b && Wf.vd (f.x.extractLsb' 14 6) && ty.isTw && f.d != (f.x.extractLsb' 14 6)) || ((f.x.extractLsb' 5 5) == 0 && (f.x.extractLsb' 4 1) == 1 && f.rm == 0 && Wf.onlyLs ⟨f.ls, f.q, f.k⟩ && Wf.vd f.d && Wf.vd f.a && Wf.sc f.b && Wf.vd (f.x.extractLsb' 14 6) && ty.isTw && f.d != (f.x.extractLsb' 14 6))
  | 1 => (f.x.extractLsb' 0 10) == 0 && f.ls == 0 && f.q == 0 && f.k == 0 && f.rm == 0 && Wf.sc f.d && Wf.vd f.a && Wf.sc f.b && Wf.vd (f.x.extractLsb' 14 6) && ty.isTw
  | 2 => (f.x.extractLsb' 14 6) == 0 && (f.x.extractLsb' 10 4) == 8 && (f.x.extractLsb' 2 8) == 0 && f.b == 0 && f.rm == 0 && Wf.vd f.d && Wf.sc f.a
  | _ => false

/-- Primary opcode 0x79. -/
def legalOp79 (f : Full) (_rm : Rm) : Bool :=
  let ty := tyOfBits (f.x.extractLsb' 10 4)
  match f.fn.toNat with
  | 0 => (f.x.extractLsb' 0 10) == 0 && f.ls == 0 && f.q == 0 && f.k == 0 && f.rm == 0 && Wf.sc f.d && Wf.sc f.a && Wf.sc f.b && Wf.sc (f.x.extractLsb' 14 6) && ty.isTw
  | _ => false

/-- Primary opcode 0x7F. -/
def legalOp7F (f : Full) (_rm : Rm) : Bool :=
  match f.fn.toNat with
  | 0 => (f.x == 0 && f.d == 0 && f.a == 0 && f.b == 0 && f.ls == 0 && f.q == 0 && f.k == 0 && f.rm == 0)
  | 1 => (f.x == 0 && f.d == 0 && f.a == 0 && f.b == 0 && f.ls == 0 && f.q == 0 && f.k == 0 && f.rm == 0)
  | 2 => ((f.x.extractLsb' 11 9) == 0 && (f.x.extractLsb' 10 1) == 0 && (f.x.extractLsb' 9 1) == 0 && f.d == 0 && f.b == 0 && f.ls == 0 && f.q == 0 && f.k == 0 && f.rm == 0 && Wf.sc f.a) || ((f.x.extractLsb' 11 9) == 0 && (f.x.extractLsb' 10 1) == 1 && (f.x.extractLsb' 9 1) == 0 && f.d == 0 && f.b == 0 && f.ls == 0 && f.q == 0 && f.k == 0 && f.rm == 0 && Wf.sc f.a)
  | _ => true

/-- The fields of a full-form word are those of a legal instruction (R50). -/
def legalFull (f : Full) : Bool :=
  match Rm.ofCode f.rm with
  | none => false
  | some rm =>
    match f.op.toNat with
    | 0x01 => legalOp01 f rm
    | 0x02 => legalOp02 f rm
    | 0x03 => legalOp03 f rm
    | 0x04 => legalOp04 f rm
    | 0x05 => legalOp05 f rm
    | 0x06 => legalOp06 f rm
    | 0x07 => legalOp07 f rm
    | 0x08 => legalOp08 f rm
    | 0x09 => legalOp09 f rm
    | 0x0A => legalOp0A f rm
    | 0x0B => legalOp0B f rm
    | 0x0C => legalOp0C f rm
    | 0x0D => legalOp0D f rm
    | 0x10 => legalOp10 f rm
    | 0x11 => legalOp11 f rm
    | 0x12 => legalOp12 f rm
    | 0x13 => legalOp13 f rm
    | 0x14 => legalOp14 f rm
    | 0x15 => legalOp15 f rm
    | 0x16 => legalOp16 f rm
    | 0x17 => legalOp17 f rm
    | 0x20 => legalOp20 f rm
    | 0x21 => legalOp21 f rm
    | 0x22 => legalOp22 f rm
    | 0x23 => legalOp23 f rm
    | 0x28 => legalOp28 f rm
    | 0x29 => legalOp29 f rm
    | 0x2A => legalOp2A f rm
    | 0x2B => legalOp2B f rm
    | 0x2C => legalOp2C f rm
    | 0x2D => legalOp2D f rm
    | 0x2E => legalOp2E f rm
    | 0x2F => legalOp2F f rm
    | 0x30 => legalOp30 f rm
    | 0x31 => legalOp31 f rm
    | 0x32 => legalOp32 f rm
    | 0x33 => legalOp33 f rm
    | 0x40 => legalOp40 f rm
    | 0x41 => legalOp41 f rm
    | 0x42 => legalOp42 f rm
    | 0x43 => legalOp43 f rm
    | 0x44 => legalOp44 f rm
    | 0x45 => legalOp45 f rm
    | 0x46 => legalOp46 f rm
    | 0x50 => legalOp50 f rm
    | 0x51 => legalOp51 f rm
    | 0x58 => legalOp58 f rm
    | 0x59 => legalOp59 f rm
    | 0x5A => legalOp5A f rm
    | 0x60 => legalOp60 f rm
    | 0x61 => legalOp61 f rm
    | 0x62 => legalOp62 f rm
    | 0x64 => legalOp64 f rm
    | 0x65 => legalOp65 f rm
    | 0x66 => legalOp66 f rm
    | 0x67 => legalOp67 f rm
    | 0x68 => legalOp68 f rm
    | 0x69 => legalOp69 f rm
    | 0x6A => legalOp6A f rm
    | 0x6B => legalOp6B f rm
    | 0x6C => legalOp6C f rm
    | 0x6D => legalOp6D f rm
    | 0x70 => legalOp70 f rm
    | 0x71 => legalOp71 f rm
    | 0x72 => legalOp72 f rm
    | 0x73 => legalOp73 f rm
    | 0x74 => legalOp74 f rm
    | 0x75 => legalOp75 f rm
    | 0x78 => legalOp78 f rm
    | 0x79 => legalOp79 f rm
    | 0x7F => legalOp7F f rm
    | _ => false

/-- The primary opcodes of DQI-1 (R56). -/
def portableOps : List Nat :=
  [0x01, 0x02, 0x03, 0x04, 0x05, 0x06, 0x08, 0x0B, 0x10, 0x11, 0x12, 0x13, 0x14, 0x15, 0x16, 0x17, 0x20, 0x21,
   0x22, 0x23, 0x28, 0x29, 0x2A, 0x2B, 0x2C, 0x2D, 0x2E, 0x30, 0x31, 0x32, 0x33, 0x40, 0x41, 0x42, 0x43, 0x44,
   0x45, 0x46, 0x50, 0x51, 0x64, 0x65, 0x66, 0x67, 0x68, 0x70, 0x71, 0x74, 0x75, 0x7F]

/-- The fields are those of a DQI-1 instruction (R56): of op 0x0B, `trap` alone. -/
def portable (f : Full) : Bool :=
  portableOps.contains f.op.toNat && !(f.op == 0x0B#7 && f.fn != 0) && legalFull f

/-- A legal full-form word of the deprecated opcode (R51, R53: `vdup`). -/
def deprecatedWord (f : Full) : Bool := f.op == 0x2F#7 && legalFull f

/-- A legal full-form word of the experimental opcode (R51, R53: `twbuild`). -/
def experimentalWord (f : Full) : Bool := f.op == 0x79#7 && legalFull f

/-- A legal compact slot (R43, R44). -/
def legalSlot (s : BitVec 30) : Bool :=
  let o := CArg.ofBits (s.extractLsb' 0 20)
  match (s.extractLsb' 25 5).toNat with
  | 0 => s == 0
  | 8 | 9 | 10 => o.bits == s.extractLsb' 0 20 && Wf.shiftArg o
  | 15 => o.bits == s.extractLsb' 0 20 && Wf.immArg o
  | 27 | 28 | 29 | 30 | 31 => o.bits == s.extractLsb' 0 20 && Wf.regArg o
  | _ => o.bits == s.extractLsb' 0 20

/-- A legal word, but for L (R50). -/
def legalWord (w : Word) : Bool :=
  if w.getLsbD 62 then
    let a := w.extractLsb' 31 30
    let b := w.extractLsb' 1 30
    !w.getLsbD 0 && legalSlot a && legalSlot b && bankOk a b
  else legalFull (Full.unpack (w.extractLsb' 0 61))

end Sys2Proof.Machine
end

