-- ==== Sys2Proof/Machine/Work.lean ====
section
/-!
DEFINITION. Code objects, launches, work items and levels (04, R54–R79; 05, R99; 11, R232): loading, accepting a
launch, placing its groups, barriers and tide marks, and the retirement of a work item.
-/

namespace Sys2Proof.Machine

/-! ### Code objects (R54–R59) -/

/-- The dwords of a run of bytes. -/
def wordList : List Byte → List Word
  | a :: b :: c :: d :: e :: f :: g :: h :: rest => BitVec.ofNat 64 (ofBytes [a, b, c, d, e, f, g, h]) :: wordList rest
  | _ => []

/-- A code object's header (R54), and whether it is well formed. -/
structure CodeHeader where
  maj   : Nat
  min   : Nat
  life  : Nat
  /-- STEPN and STEPL, as PARTID holds them (R18). -/
  step  : Nat
  off   : Word
  size  : Nat
  ok    : Bool

/-- The header's fields (R54). LIFE 3 is reserved, but in an object of version 1 it is another LIFE than 0 (R56; log 77). -/
def codeHeader (ws : List Word) : CodeHeader :=
  let d := ws.headD 0
  let life := field d 48 2
  let step := field d 56 4 + field d 52 4 * 16
  let off := ws.getD 1 0
  let size := (ws.getD 2 0).toNat
  { maj := field d 32 8, min := field d 40 8, life := life, step := step, off := off, size := size
    ok := field d 0 32 == 0x4F435144 && field d 50 2 == 0 && field d 60 4 == 0 && (life != 3 || field d 32 8 == 1) && (life == 2 || step == 0) &&
      off.toNat % 8 == 0 && size % 8 == 0 && size != 0 }

/-- The end mark stands last and nowhere else (R54). -/
def endMarkOk (ws : List Word) : Bool := ws.getLast? == some 0 && ws.dropLast.all fun w => w != 0

/-- Words with whether each is the first of its convoy (R46). -/
def firsts : Bool → List Word → List (Word × Bool)
  | _, [] => []
  | first, w :: ws => (w, first) :: firsts (w.getLsbD 63) ws

/-- The word offsets at which a convoy with L = 1 begins (R76). -/
def landings (ws : List Word) : List Nat :=
  ((firsts true ws).mapIdx fun i p => (i, p)).filterMap fun p => if p.2.2 && p.2.1.getLsbD 61 then some p.1 else none

/-- The lifetime check of a native object (R57): 0, −2 or −3. Words that are illegal are not judged. -/
def lifetimeCode (h : CodeHeader) (ws : List Word) : Int :=
  let legal := fun (p : Word × Bool) => !p.1.getLsbD 62 && (p.2 || !p.1.getLsbD 61)
  let bad := (firsts true ws).any fun p =>
    legal p &&
      ((h.life == 0 && deprecatedWord (Full.unpack (p.1.extractLsb' 0 61))) ||
        (h.life != 2 && experimentalWord (Full.unpack (p.1.extractLsb' 0 61))))
  if h.life = 2 ∧ h.step ≠ field partid 0 8 then -3 else if bad then -2 else 0

/-- A DQI-1 word translated (R56). -/
def translateWord (w : Word) : Word :=
  if w = 0 then 0
  else if !w.getLsbD 63 && !w.getLsbD 62 && portable (Full.unpack (w.extractLsb' 0 61)) then w ||| 0x8000000000000000#64
  else 0x9F00000000000000#64 ||| (w &&& 0x2000000000000000#64)

/-- What R55 to R57 answer for an object whose words have been read: 0 or a negative code. -/
def CodeHeader.verdict (h : CodeHeader) (ws : List Word) : Int :=
  if !endMarkOk ws then -4
  else if h.maj = 1 then (if h.life ≠ 0 then -2 else 0)
  else if h.maj = 3 ∧ h.min ≤ 1 then lifetimeCode h ws
  else -1

/-- The lowest free entry of the loaded-code table (R58). -/
def State.freeCode (s : State) : Option Nat := (List.range 1024).find? fun n => (Tab.find s.codes n).isNone

/-- A launch names a loaded-code entry and has not retired (R58). -/
def State.codeUsed (s : State) (n : Nat) : Bool := s.launches.any fun l => l.2.code == n && !l.2.retired

/-- What `ldco` has read of an image. -/
inductive Image where
  | malformed
  | object (h : CodeHeader) (words : List Word)
  | held
  | trap (t : Trap)

/-- The image's header and code section read (R59, R385). -/
def State.readObject (s : State) (va : Word) : Image :=
  let page := fun r x => pageFault r .read x
  if va.toNat % 8 ≠ 0 then .malformed
  else
    match s.ownRead s.me s.cur.core page va 8 with
    | .held => .held
    | .trap t => .trap t
    | .ok hb =>
      let h := codeHeader (wordList hb)
      if !h.ok then .malformed
      else
        match s.ownRead s.me s.cur.core page (va + h.off) (h.size / 8) with
        | .held => .held
        | .trap t => .trap t
        | .ok bs => .object h (wordList bs)

/-- The homes among the places of `n` dwords from an address on are asked for their verdicts (R253), if every page has
been translated. -/
def State.ownAsk (s : State) (va : Word) (n : Nat) : State :=
  match s.pages (clusterOf s.cur.core) s.me.asid s.me.lvl .write .data va (pagesOf va (8 * n)) with
  | .error _ => s
  | .ok ls => s.askPeers 1 .i8 false ((List.range n).filterMap fun i => (s.spot ls (va + BitVec.ofNat 64 (8 * i))).peerElt 8 none 0 0)

/-- Dwords written from an aligned address on under the strand's ASID and level, every page translated first, or what
keeps them from being written. They are one event, and at each home one message (R276). -/
def State.ownWrite (s : State) (va : Word) (ws : List Word) : Except (Option Trap) State :=
  match s.pages (clusterOf s.cur.core) s.me.asid s.me.lvl .write .data va (pagesOf va (8 * ws.length)) with
  | .error (r, x) => .error (some (pageFault r .write x))
  | .ok ls =>
    let placed := ws.mapIdx fun i w => (va + BitVec.ofNat 64 (8 * i), w)
    match placed.findSome? fun p =>
        if s.reelLive (s.spot ls p.1) then some (pageFault 9 .write p.1)
        else
          match s.homeVerdict .write (.ok (s.spot ls p.1)) 8 with
          | .error t => some { t with addr := p.1 }
          | .ok _ => none with
    | some t => .error (some t)
    | none =>
      if placed.any fun p => s.stalled (s.spot ls p.1) then .error none
      else .ok (s.writeAll (placed.map fun p => (s.spot ls p.1, toBytes 8 p.2.toNat)))

/-- `ldco` (R59). -/
def planLdco (d a b : BitVec 6) : Plan where
  lvl := .s
  mem := true
  reads := sname a ++ sname b
  writes := sname d
  fire := fun s older e =>
    if !allDone older then (s, e)
    else
      match s.readObject (e.arg a) with
      | .malformed => answer s e d (-4)
      | .held => (s, { e with held := true })
      | .trap t => (s, { e with flt := some t })
      | .object h ws =>
        let s1 := s.ownNote s.me s.cur.core (e.arg a + h.off) ws.length
        let v := h.verdict ws
        if v ≠ 0 then answer s1 e d v
        else
          match s.freeCode with
          | none => answer s1 e d (-5)
          | some n =>
            if h.maj ≠ 1 then
              answer { s1 with codes := Tab.put s1.codes n ⟨e.arg a + h.off, h.size, landings ws,
                s1.linesAt s.me s.cur.core (e.arg a + h.off) (8 * ws.length)⟩ } e d n
            else if (e.arg b).toNat % 65536 ≠ 0 then answer s1 e d (-6)
            else
              let out := ws.map translateWord
              match (s1.ownAsk (e.arg b) out.length).ownWrite (e.arg b) out with
              | .error (some t) => (s1.ownAsk (e.arg b) out.length, { e with flt := some t })
              | .error none => (s, { e with held := true })
              | .ok s2 => answer { s2 with codes := Tab.put s2.codes n ⟨e.arg b, h.size, landings out,
                  s2.linesAt s.me s.cur.core (e.arg b) (8 * out.length)⟩ } e d n

/-- An entry of the loaded-code table freed: what its words once were is forgotten (R58, R91). -/
def State.dropCodeEntry (s : State) (n : Nat) : State :=
  let codes := Tab.del s.codes n
  { s with codes := codes, oldCode := s.oldCode.filter fun w => codes.any fun c => c.2.lines.contains (w.1 / 8) }

/-- `ldco.drop` (R59). -/
def planLdcoDrop (d a : BitVec 6) : Plan where
  lvl := .s
  reads := sname a
  writes := sname d
  fire := fun s _ e =>
    let n := (e.arg a).toNat
    if 1023 < n ∨ (Tab.find s.codes n).isNone then answer s e d (-6)
    else if s.codeUsed n then answer s e d (-7)
    else answer (s.dropCodeEntry n) e d 0

/-! ### Levels and identifiers (R62, R63) -/

/-- The number of work items of a level-k group (R63). -/
def Launch.groupSize (l : Launch) (k : Nat) : Nat := countOf (l.fields.take (k + 1))

/-- The number of level-K groups that run on this device: those of its member, one for each value of the time fields. -/
def Launch.groups (l : Launch) : Nat :=
  if l.member < l.members then countOf (l.fields.filter fun f => f.2.1 == 5) else 0

/-- The linear index of the first item of the t-th level-K group here. -/
def Launch.groupBase (l : Launch) (t : Nat) : Nat := (l.member + l.members * t) * l.unit

/-- Field values of a linear index, lowest first (R62). -/
def fieldValues : List (Nat × Nat × Nat) → Nat → List Nat
  | [], _ => []
  | (_, _, c) :: fs, n => n % c :: fieldValues fs (n / c)

/-- The work identifier that field values pack (R62). -/
def packWid : List (Nat × Nat × Nat) → List Nat → Nat
  | (w, _, _) :: fs, v :: vs => v + 2 ^ w * packWid fs vs
  | _, _ => 0

/-- The combined index of the fields at a placement (R62), none where no field is so placed. -/
def placedIndex (p : Nat) (fs : List (Nat × Nat × Nat)) (vs : List Nat) : Option Nat :=
  let here := (fs.zip vs).filter fun x => x.1.2.1 == p
  if here.isEmpty then none
  else some (here.foldr (fun x n => x.2 + x.1.2.2 * n) 0)

/-- `wid.get` (R77). -/
def planWidGet (d : BitVec 6) : Plan where
  writes := sname d
  fire := Plan.scalar d fun s =>
    match s.me.work with
    | none => 0
    | some w => w.wid

/-- `wid.get` of a field (R77). -/
def planWidGetField (d : BitVec 6) (f : BitVec 3) : Plan where
  writes := sname d
  fire := Plan.scalar d fun s =>
    match s.me.work, s.myLaunch with
    | some w, some l => BitVec.ofNat 64 ((fieldValues l.fields w.linear).getD f.toNat 0)
    | _, _ => 0

/-! ### bar.k (R78) -/

/-- Half-steps of the barriers of a level that an item has behind it. -/
def Item.steps (i : Item) (k : Nat) : Nat := Tab.get 0 i.arr k

/-- Every item of the level-k group of an item that has not retired has made `n` half-steps. -/
def Launch.arrived (l : Launch) (k linear n : Nat) : Bool :=
  l.items.all fun i => i.1 / l.groupSize k != linear / l.groupSize k || decide (n ≤ i.2.steps k)

/-- `bar.k` (R78). The strand arrives once everything older has completed; younger convoys wait (R81 reason 7). -/
def planBarK (k : BitVec 3) : Plan where
  mem := true
  check := fun s =>
    require ((s.myLaunch.map fun l => decide (k.toNat < l.levels)).getD false) { cause := 19 }
  fire := fun s older e =>
    match s.me.work, s.myLaunch with
    | some w, some l =>
      (match Tab.find l.items w.linear with
        | none => (s, e)
        | some i =>
          let n := i.steps k.toNat
          let set := fun (st : State) v => st.mapItem w.launch w.linear fun x => { x with arr := Tab.put x.arr k.toNat v }
          if n % 2 = 1 ∨ s.oldest older then
            let m := if n % 2 = 1 then n else n + 1
            let l1 := { l with items := Tab.put l.items w.linear { i with arr := Tab.put i.arr k.toNat m } }
            if l1.arrived k.toNat w.linear m then
              (set s (m + 1), { e with done := true, pend := [] })
            else (set s m, e)
          else (s, e))
    | _, _ => (s, { e with flt := some { cause := 19 } })

/-! ### Tide marks (R71–R74) -/

/-- A tide-mark fault (R305 cause 18). -/
def tideFault : Trap := { cause := 18 }

/-- A mark of the strand's own launch. -/
def State.ownMark (s : State) (n : Nat) : Option Mark :=
  s.myLaunch.bind fun l => if n < l.ntm then some (Tab.get ⟨0, none⟩ l.marks n) else none

/-- A mark of it changed. -/
def State.setMark (s : State) (n : Nat) (m : Mark) : State :=
  match s.me.work, s.myLaunch with
  | some w, some l => { s with launches := Tab.put s.launches w.launch { l with marks := Tab.put l.marks n m } }
  | _, _ => s

/-- M of a name of the strand: its own mark or an alias; 2^64 − 1 once the producer has retired (R67, R74). -/
def State.markValue (s : State) (n : Nat) : Option Nat :=
  match s.ownMark n with
  | some m => some m.m
  | none =>
    s.myLaunch.bind fun l => (l.links.find? fun k => k.1 == n).bind fun k =>
      (Tab.find s.launches k.2.1).map fun p => if p.retired then 2 ^ 64 - 1 else (Tab.get ⟨0, none⟩ p.marks k.2.2).m

/-- A range may be bound (R74). -/
def bindable (base usz cnt : Word) : Bool :=
  let last := base.toNat + usz.toNat * cnt.toNat - 1
  usz != 0 && cnt != 0 && decide (last < 2 ^ 64) && canonical (BitVec.ofNat 64 last)

/-- `tm.bind` (R74). -/
def planTmBind (a b c : BitVec 6) (n : BitVec 4) : Plan where
  strict := true
  reads := sname a ++ sname b ++ sname c
  check := fun s =>
    require ((s.ownMark n.toNat).any (fun m => m.bound.isNone) && bindable (s.val a) (s.val b) (s.val c)) tideFault
  fire := Plan.now fun s =>
    match s.ownMark n.toNat with
    | none => s
    | some m => s.setMark n.toNat { m with bound := some (s.val a, (s.val b).toNat, (s.val c).toNat) }

/-- `tm.adv` (R73, R74): it waits at issue for M to reach `from`, and raises M after the strand's older accesses. The rise
is an event of its own, which a younger read takes its place after (R275, R278). -/
def planTmAdv (a b : BitVec 6) (n : BitVec 4) : Plan where
  strict := true
  mem := true
  reads := sname a ++ sname b
  waits := fun s =>
    match s.ownMark n.toNat with
    | some m => if m.bound.isSome && decide (m.m < (s.val a).toNat) then [5] else []
    | none => []
  check := fun s => require ((s.ownMark n.toNat).any fun m => m.bound.isSome) tideFault
  fire := fun s older e =>
    if !allDone older then (s, e)
    else
      match s.ownMark n.toNat with
      | none => (s, { e with flt := some tideFault })
      | some m => (s.setMark n.toNat { m with m := max m.m (e.arg b).toNat }, { e with done := true, pend := [] })

/-- `tm.rd` (R74): its return is an event (R275), after the strand's older ones and its own advances, and before any
younger read (R278, R282). -/
def planTmRd (d : BitVec 6) (n : BitVec 4) : Plan where
  mem := true
  writes := sname d
  check := fun s => require (s.markValue n.toNat).isSome tideFault
  fire := fun s older e =>
    if !allBegun older then (s, e)
    else
      match s.markValue n.toNat with
      | none => (s, { e with flt := some tideFault })
      | some m => answer s e d m

/-! ### Accepting a launch (R60–R62, R70, R76) -/

/-- A launch header's fields (R60). -/
structure Header where
  ws     : List Word
  nfld   : Nat
  /-- Width, placement and count of the six fields, in use or not. -/
  fields : List (Nat × Nat × Nat)

/-- The header of its sixteen dwords. -/
def launchHeader (ws : List Word) : Header :=
  let d2 := ws.getD 2 0
  { ws := ws, nfld := field (ws.getD 0 0) 44 3
    fields := (List.range 6).map fun k =>
      (field d2 (7 * k) 7, field d2 (42 + 3 * k) 3, (ws.getD (3 + k) 0).toNat + 1) }

/-- A field of a dword of the header. -/
def Header.get (h : Header) (i lo n : Nat) : Nat := field (h.ws.getD i 0) lo n

/-- The fields in use. -/
def Header.used (h : Header) : List (Nat × Nat × Nat) := h.fields.take h.nfld

/-- HVER is 1 and every reserved bit is zero (−17). -/
def Header.versionOk (h : Header) : Bool :=
  h.get 0 0 16 == 1 && h.get 0 26 6 == 0 && h.get 0 48 16 == 0 && h.get 1 32 32 == 0 && h.get 2 60 4 == 0 &&
    h.get 9 49 15 == 0 && h.get 11 32 32 == 0

/-- Placements do not decrease. -/
def rising : List Nat → Bool
  | a :: b :: rest => decide (a ≤ b) && rising (b :: rest)
  | _ => true

/-- The field rules of R60 and R62 (−20). -/
def Header.fieldsOk (h : Header) : Bool :=
  decide (1 ≤ h.nfld) && decide (h.nfld ≤ 6) && (h.used.foldl (fun n f => n + f.1) 0 ≤ 64) &&
    h.used.all (fun f => decide (f.1 ≤ 64) && decide (f.2.1 ≤ 5) && decide (f.2.2 ≤ 2 ^ f.1)) &&
    rising (h.used.map fun f => f.2.1) && (h.fields.drop h.nfld).all fun f => f == (0, 0, 1)

/-- The product of the counts at a placement. -/
def Header.at_ (h : Header) (p : Nat) : Nat := countOf (h.used.filter fun f => f.2.1 == p)

/-- In-service cores of a cluster, ascending (R10, R64). -/
def State.serving (s : State) (cl : Nat) : List Nat :=
  ((List.range 64).map fun j => 64 * cl + j).filter fun c => !s.outCores.contains c

/-- The on-device capacities of R62 (−21): a cluster has the in-service cores that the emptiest one has. -/
def Header.capacityOk (h : Header) (s : State) : Bool :=
  decide (h.at_ 0 ≤ 8) && ((List.range 8).all fun cl => decide (h.at_ 1 ≤ (s.serving cl).length)) &&
    decide (h.at_ 2 ≤ 2) && decide (h.at_ 3 ≤ 4)

/-- NTM, NDEP and NLINK. -/
def Header.ntm (h : Header) : Nat := h.get 9 32 5
def Header.ndep (h : Header) : Nat := h.get 9 41 3
def Header.nlink (h : Header) : Nat := h.get 9 37 4

/-- LNKADDR and GLIST. -/
def Header.lnkaddr (h : Header) : Word := h.ws.getD 13 0
def Header.glist (h : Header) : Word := h.ws.getD 15 0

/-- The resource fields within their ranges (−22), as far as the header alone tells. -/
def Header.resourcesOk (h : Header) : Bool :=
  decide (h.get 9 0 7 ≤ 64) && decide (h.get 9 7 5 ≤ 16) && decide (h.get 9 12 9 ≤ 256) && decide (h.get 9 21 11 ≤ 1024) &&
    decide (h.ntm ≤ 16) && decide (h.ndep ≤ 4) && h.get 11 0 32 % 512 == 0 &&
    (h.ndep == 0 || h.lnkaddr.toNat % 8 == 0)

/-- Dependence entries (R61): counter name and value, of a strand that holds `ntl` counters; none if one is not bound. -/
def depsOf (ntl : Nat) : List Word → Option (List (Nat × Nat))
  | a :: b :: rest =>
    if a.toNat < 16 ∧ a.toNat < ntl then (depsOf ntl rest).map fun l => (a.toNat, b.toNat) :: l else none
  | _ => some []

/-- Link entries (R61): alias, producer and its mark; none if one is invalid (−23). An ID that the device issued before
its last reset names no launch any more, and its link is invalid (log 139). -/
def State.linksOf (s : State) (ntm : Nat) : List Word → List Nat → Option (List (Nat × Nat × Nat))
  | a :: b :: rest, seen =>
    let mark := field b 0 4
    let name := field b 4 4
    let ok := b.toNat < 256 && decide (ntm ≤ name) && !seen.contains name &&
      (Tab.find s.launches a.toNat).any fun p => decide (mark < p.ntm)
    if ok then (s.linksOf ntm rest (name :: seen)).map fun l => (name, a.toNat, mark) :: l else none
  | _, _ => some []

/-- Launches in the queue: not wholly started (R69). -/
def State.queued (s : State) : List (Nat × Launch) :=
  s.launches.filter fun l => !l.2.retired && decide (l.2.group < l.2.groups)

/-- GANG, GSEQ, GLIST and placement 4 agree (−26). -/
def Header.gangOk (h : Header) (gang : Bool) : Bool :=
  let fours := h.used.filter fun f => f.2.1 == 4
  (h.get 0 47 1 == 1) == gang &&
    (if gang then fours.length == 1 && h.glist.toNat % 8 == 0
      else h.ws.getD 14 0 == 0 && h.glist == 0 && h.at_ 4 == 1)

/-- What a launch comes to when it is read: a code, the entries it names, a hold or a trap. -/
inductive Reading where
  | code (v : Int)
  | ok (h : Header) (deps : List (Nat × Nat)) (links : List (Nat × Nat × Nat)) (members : List Nat)
  | held
  | trap (t : Trap)

/-- Dwords read on the launching strand's behalf. -/
def State.headerDwords (s : State) (va : Word) (n : Nat) : Own :=
  s.ownRead s.me s.cur.core (fun r x => pageFault r .read x) va n

/-- The last checks of R76, once the entries are read; the member list of a gang is read here (R75), of each
dword the device ID alone (log 122). -/
def State.readMembers (s : State) (h : Header) (gang : Bool) (deps : List (Nat × Nat)) (links : List (Nat × Nat × Nat)) :
    Reading :=
  if (Tab.find s.asids (h.get 0 36 8)).isNone then .code (-24)
  else if 1024 ≤ s.queued.length then .code (-25)
  else if !h.gangOk gang then .code (-26)
  else if !gang then .ok h deps links []
  else
    match s.headerDwords h.glist (h.at_ 4) with
    | .held => .held
    | .trap t => .trap t
    | .ok bs => .ok h deps links ((wordList bs).map fun w => field w 0 19)

/-- The dependence and link entries at LNKADDR (R61, R76). -/
def State.readEntries (s : State) (h : Header) (gang : Bool) : Reading :=
  let ntl := s.me.tl.length
  match s.headerDwords h.lnkaddr (2 * h.ndep) with
  | .held => .held
  | .trap t => .trap t
  | .ok db =>
    match depsOf ntl (wordList db) with
    | none => .code (-22)
    | some deps =>
      if h.get 9 48 1 = 1 ∧ ntl ≤ h.get 9 44 4 then .code (-22)
      else if 8 < h.nlink ∨ (h.nlink ≠ 0 ∧ h.lnkaddr.toNat % 8 ≠ 0) then .code (-23)
      else
        match s.headerDwords (h.lnkaddr + BitVec.ofNat 64 (16 * h.ndep)) (2 * h.nlink) with
        | .held => .held
        | .trap t => .trap t
        | .ok lb =>
          match s.linksOf h.ntm (wordList lb) [] with
          | none => .code (-23)
          | some links => s.readMembers h gang deps links

/-- The header and what it names, read and checked in the order of R76. -/
def State.readLaunch (s : State) (va : Word) (gang : Bool) : Reading :=
  if va.toNat % 8 ≠ 0 then .code (-16)
  else
    match s.headerDwords va 16 with
    | .held => .held
    | .trap t => .trap t
    | .ok hb =>
      let h := launchHeader (wordList hb)
      if !h.versionOk then .code (-17)
      else
        match Tab.find s.codes (h.get 0 16 10) with
        | none => .code (-18)
        | some c =>
          if !c.entries.contains (h.get 1 0 32) then .code (-19)
          else if !h.fieldsOk then .code (-20)
          else if !h.capacityOk s then .code (-21)
          else if !h.resourcesOk then .code (-22)
          else s.readEntries h gang

/-- The launch of a header (R60). -/
def Header.launch (h : Header) (member : Nat) (deps : List (Nat × Nat × Nat)) (links : List (Nat × Nat × Nat)) : Launch where
  code := h.get 0 16 10
  entry := h.get 1 0 32
  prio := h.get 0 32 4
  asid := h.get 0 36 8
  fields := h.used
  ntd := h.get 9 0 7
  ntl := h.get 9 7 5
  nbank := h.get 9 12 9
  nlin := h.get 9 21 11
  ntm := h.ntm
  bsbase := h.ws.getD 10 0
  frd := h.get 11 0 32
  arg := h.ws.getD 12 0
  ctl := none
  deps := deps
  links := links
  marks := []
  armed := false
  marked := false
  member := member
  gseq := if h.get 0 47 1 = 1 then some (h.ws.getD 14 0).toNat else none
  group := 0
  items := []
  gone := []
  since := none
  begun := h.get 0 47 1 == 0
  retired := false

/-- A counter pinned once more, or once less (R70). -/
def State.pin (s : State) (core ctr : Nat) : State :=
  let k := s.ctr core ctr
  s.setCtr core ctr { k with pins := k.pins + 1 }
def State.unpin (s : State) (core ctr : Nat) : State :=
  let k := s.ctr core ctr
  s.setCtr core ctr { k with pins := k.pins - 1 }

/-- The placer has work: it looks again. -/
def State.placerDue (s : State) : State := if s.agenda.contains .launchGroupStart then s else s.due .launchGroupStart

/-- A launch enters the queue under the next ID, with its dependence counters pinned (R69, R70). -/
def State.accept (s : State) (h : Header) (member : Nat) (deps : List (Nat × Nat × Nat)) (links : List (Nat × Nat × Nat))
    (ctl : Option (Nat × Nat × Nat)) : State :=
  let s1 := deps.foldl (fun st d => st.pin d.1 d.2.1) s
  { s1 with
    launches := Tab.put s1.launches s1.nextLaunch { h.launch member deps links with ctl := ctl }
    nextLaunch := s1.nextLaunch + 1 }.placerDue

/-- Dependence counters resolved to the physical counters of the launching strand (R70). -/
def State.physDeps (s : State) (deps : List (Nat × Nat)) : List (Nat × Nat × Nat) :=
  deps.map fun d => (s.cur.core, s.me.tl.getD d.1 0, d.2)

/-- A launch accepted: its completion counter gives its number (R70, R263), and it enters the queue; its ID. -/
def State.enqueue (s : State) (h : Header) (member : Nat) (deps : List (Nat × Nat)) (links : List (Nat × Nat × Nat)) :
    State × Nat :=
  let core := s.cur.core
  let id := s.nextLaunch
  if h.get 9 48 1 = 0 then (s.accept h member (s.physDeps deps) links none, id)
  else
    let ctr := s.me.tl.getD (h.get 9 44 4) 0
    let c : Cmd := { kind := 5, core := core, ctr := ctr, num := 0, asid := s.me.asid, lvl := s.me.lvl, dst := 0, src := 0
                     len := 0, entry := id, begun := true, stop := none, sent := false, logged := false, fin := false }
    let (s1, n) := s.takeNumber c
    (s1.accept h member (s.physDeps deps) links (some (core, ctr, n)), id)

/-- The names that a launch holds back while its header is unread (R263). -/
def counterNames : List Name := (List.range 16).map Name.tl

/-! ### Gangs (R75, R378) -/

/-- The members' device IDs of a gang. -/
def Gang.members (g : Gang) : List Nat := (g.header.drop 16).map fun w => field w 0 19

/-- Every member of a gang is in a list. -/
def Gang.all (g : Gang) (l : List Nat) : Bool := (List.range g.members.length).all fun m => l.contains m

/-- A number added to a list of numbers, once. -/
def addOnce (l : List Nat) (n : Nat) : List Nat := if l.contains n then l else l ++ [n]

/-- A gang changed. -/
def State.putGang (s : State) (gseq : Nat) (g : Gang) : State := { s with gangs := Tab.put s.gangs gseq g }

/-- The journal entry of a gang as a device writes it (R374, R378): with RERUN where it has a part, which it relaunches
after a reset (log 118). -/
def gangEntry (gseq : Nat) (part : Bool) : List Nat := [0, 1 + (if part then 2 ^ 8 else 0) + 2 ^ 9, 0, 0, gseq, 0, 0, 0]

/-- The gang of a number, unless it was aborted before its parts here began. -/
def State.liveGang (s : State) (gseq : Nat) : Option Gang := (Tab.find s.gangs gseq).filter fun g => g.begun || !g.broken

/-- The tide marks of retired launches that no queued or running launch links go back (R67). -/
def State.returnMarks (s : State) : State :=
  let live := s.launches.filter fun l => !l.2.retired
  let free := fun (id : Nat) (l : Launch) => l.retired && live.all fun c => c.2.links.all fun k => k.2.1 != id
  { s with launches := s.launches.map fun l => (l.1, if free l.1 l.2 then { l.2 with marked := false } else l.2) }

/-- A launch is over: nothing of it needs its dependence counters (R70) or, of the launches that it linked, their tide
marks any more (R67). -/
def State.endLaunch (s : State) (id : Nat) : State :=
  match Tab.find s.launches id with
  | none => s
  | some l =>
    let s1 := l.deps.foldl (fun st d => st.unpin d.1 d.2.1) s
    ({ s1 with launches := Tab.put s1.launches id { l with retired := true, deps := [] } } : State).returnMarks

/-- A launch's completion is published into its counter (R67, R70). -/
def State.publish (s : State) (l : Launch) : State :=
  match l.ctl with
  | none => s
  | some (core, ctr, n) =>
    match s.cmdOf core ctr n with
    | none => s
    | some (id, _) => s.finishCmd id

/-- The launches that the issuer accepted under a gang are published (R75); one with no part here ends. -/
def State.publishGang (s : State) (gseq : Nat) : State :=
  match Tab.find s.gangs gseq with
  | none => s
  | some g =>
    g.issued.foldl (fun st id =>
      match Tab.find st.launches id with
      | none => st
      | some l =>
        let st1 := st.publish l
        if g.parts.any fun p => p.2 == id then st1 else st1.endLaunch id) (s.putGang gseq { g with issued := [] })

/-- The parts of a gang on this device that have retired. -/
def Gang.ended (g : Gang) : List Nat := (g.parts.map Prod.fst).filter g.retired.contains

/-- The journal entry of a gang completes on a device once its parts there have retired, and, on the issuer, once every
member has reported (R374, R377; log 118). -/
def State.completeParts (s : State) (gseq : Nat) : State :=
  match Tab.find s.gangs gseq with
  | none => s
  | some g =>
    if g.begun && !g.broken && decide (g.ended.length = g.parts.length) && (!g.issuer || g.all g.retired) then
      s.journalStat g.jseq 3
    else s

/-- A gang all of whose members have reported is published, and its entry completes (R75, R377). -/
def State.settleGang (s : State) (gseq : Nat) : State :=
  match Tab.find s.gangs gseq with
  | none => s
  | some g =>
    let s1 := s.completeParts gseq
    if g.all g.retired then s1.publishGang gseq else s1

/-- A part of a gang reported retired to its issuer (R75): CTL is published when every member has reported. -/
def State.partRetired (s : State) (gseq member : Nat) : State :=
  match Tab.find s.gangs gseq with
  | none => s
  | some g => (s.putGang gseq { g with retired := addOnce g.retired member }).settleGang gseq

/-- The parts of this device begin, once for each number (R75, R378), and the journal entry is started. -/
def State.beginParts (s : State) (gseq : Nat) : State :=
  match Tab.find s.gangs gseq with
  | none => s
  | some g =>
    if g.begun ∨ g.broken then s
    else
      let s1 := (s.putGang gseq { g with begun := true }).journalStat g.jseq 2
      (g.parts.foldl (fun st p =>
        match Tab.find st.launches p.2 with
        | none => st
        | some l => { st with launches := Tab.put st.launches p.2 { l with begun := true } }) s1).placerDue

/-- Once every member has acknowledged prepare, the issuer commits (R378). A gang whose members have all reported before (a
repeated GSEQ) has nothing more to run. -/
def State.commitGang (s : State) (gseq : Nat) : State :=
  match Tab.find s.gangs gseq with
  | none => s
  | some g =>
    if !g.issuer ∨ g.committed ∨ g.broken ∨ !g.all g.acks then s
    else
      let own := g.parts.map Prod.fst
      let s1 := ({ s.putGang gseq { g with committed := true, commits := own, since := s.cycle } with
        out := if g.all own then s.out else s.out ++ [Msg.gangCommit gseq] } : State).beginParts gseq
      let s2 := (s1.journalStat g.jseq 2).settleGang gseq
      if g.all own then s2 else s2.due (.gangCommitResend gseq)

/-- The gang of an accepted header prepared (R378): journaled here, and its header sent to every device listed, once for
each entry of the list (R75). The launch `id` is this device's first part, and further parts of it have launches of their
own; a gang that has begun here before keeps its parts, and an entry that is not finished (log 118). None while the
journal's slot holds an unfinished entry. -/
def State.prepareGang (s : State) (h : Header) (id : Nat) (deps links : List (Nat × Nat × Nat)) (members : List Nat) : Option State :=
  let gseq := (h.ws.getD 14 0).toNat
  let me := s.devId % 2 ^ 19
  let listed := members.mapIdx fun i m => (i, m)
  let mine := (listed.filter fun p => p.2 == me).map Prod.fst
  let again := (s.liveGang gseq).filter fun g => s.entryOpen g.jseq
  match (again.map fun g => (s, g.jseq)).or (s.journalAppend (gangEntry gseq !mine.isEmpty)) with
  | none => none
  | some (s1, jseq) =>
    let header := h.ws.take 16 ++ members.map (BitVec.ofNat 64)
    let more := (mine.drop 1).mapIdx fun i m => (m, s1.nextLaunch + i)
    let first := mine.head?.map fun m => (m, id)
    let fresh : Gang := { issuer := true, header := header, issued := [id], parts := first.toList ++ more, acks := mine
                          commits := [], retired := [], jseq := jseq, committed := false, begun := false, broken := false
                          since := s.cycle }
    let (s2, g) := match s1.liveGang gseq with
      | none => ((mine.drop 1).foldl (fun (st : State) m => st.accept h m deps links none) s1, fresh)
      | some g => (s1, { fresh with issued := g.issued ++ [id], parts := g.parts, retired := g.ended, begun := g.begun })
    let out := (listed.filter fun (p : Nat × Nat) => p.2 != me).map fun (p : Nat × Nat) => Msg.gangPrepare p.2 gseq p.1 header
    let s3 : State := { s2.putGang gseq g with out := s2.out ++ out }
    some (if out.isEmpty then s3.commitGang gseq else s3.due (.gangAbort gseq))

/-- The member that the launch of a `glaunch` is on this device: the first entry of the list that names it, none where
there is none or where the gang has begun here before. -/
def State.ownMember (s : State) (gseq : Nat) (members : List Nat) : Nat :=
  match s.liveGang gseq with
  | none => (members.findIdx? fun m => m == s.devId % 2 ^ 19).getD members.length
  | some _ => members.length

/-- `launch` and `glaunch` (R76). -/
def launchPlan (gang : Bool) (d a : BitVec 6) : Plan where
  lvl := .s
  mem := true
  reads := sname a ++ counterNames
  writes := sname d
  fire := fun s older e =>
    let wait : Entry := { e with pend := counterNames }
    if !allDone older then (s, wait)
    else
      match s.readLaunch (e.arg a) gang with
      | .code v => answer s e d v
      | .held => (s, { wait with held := true })
      | .trap t => (s, { e with flt := some t })
      | .ok h deps links members =>
        if h.get 9 48 1 = 1 ∧ 64 ≤ s.outstanding s.cur.core then (s, wait)
        else
          let s0 := s.ownNote s.me s.cur.core (e.arg a) 16
          if !gang then
            let (s1, id) := s0.enqueue h 0 deps links
            answer s1 e d id
          else
            let (s1, id) := s0.enqueue h (s0.ownMember (h.ws.getD 14 0).toNat members) deps links
            match s1.prepareGang h id (s0.physDeps deps) links members with
            | none => (s, { wait with held := true })
            | some s2 => answer s2 e d id

/-- `launch` (R76). -/
def planLaunch (d a : BitVec 6) : Plan := launchPlan false d a

/-- `glaunch` (R75, R76). -/
def planGlaunch (d a : BitVec 6) : Plan := launchPlan true d a

/-! ### Retirement (R67, R70, R78, R99) -/

/-- A journal entry of a gang part ends failed with REASON 3 (R378). -/
def State.failGang (s : State) (g : Gang) : State := s.journalStat g.jseq (4 + 3 * 16)

/-- Every item of a launch that runs here has retired. -/
def Launch.over (l : Launch) : Bool := l.items.isEmpty && decide (l.groups ≤ l.group)

/-- A launch whose last work item has retired (R67): its number is published, or its part is reported (R75). -/
def State.retireLaunch (s : State) (id : Nat) : State :=
  match Tab.find s.launches id with
  | none => s
  | some l =>
    if l.retired || !l.over then s
    else
      let s1 := (s.endLaunch id).placerDue
      match l.gseq with
      | none => s1.publish l
      | some g =>
        match Tab.find s1.gangs g with
        | none => s1
        | some x => if !x.issuer then { s1.partRetired g l.member with out := s1.out ++ [.gangRetired g l.member] } else s1.partRetired g l.member

/-- A strand's counters go back to its core's pool (R67, R322); one with commands in flight stays pinned. -/
def State.dropCounters (s : State) (core : Nat) (tl : List Nat) : State :=
  tl.foldl (fun st n =>
    let k := st.ctr core n
    st.setCtr core n (if k.pins = 0 then Ctr.free else { k with used := false })) s

/-- A work item of a gang of several members has retired: its counterparts learn it, and what is kept for its own `xred`
goes (R303). -/
def State.leaveReductions (s : State) (l : Launch) (w : WorkItem) : State :=
  if l.members ≤ 1 then s
  else
    { s with
      xreds := s.xreds.filter fun c => !(c.launch == w.launch && c.linear == w.linear)
      out := s.out ++ [.xredGone (l.gseq.getD 0) w.linear] }

/-- What a work item was allotted goes back: banks and lineage reservation (R67). -/
def State.retireItem (s : State) (w : WorkItem) : State :=
  match Tab.find s.launches w.launch with
  | none => s
  | some l =>
    let cl := (Tab.find l.items w.linear).elim 0 Item.cluster
    let s0 := s.leaveReductions l w
    let s1 := { s0 with launches := Tab.put s0.launches w.launch { l with
      items := Tab.del l.items w.linear, gone := l.gone ++ [w.linear] } }
    let s2 := (List.range w.nbank).foldl (fun st i =>
      let b := 256 * cl + w.bank + i
      st.setBank b { st.bank b with item := none }) s1
    s2.placerDue.retireLaunch w.launch

/-- A strand leaves its slot for good (R67, R99). -/
def State.retireStrand (s : State) (core slot : Nat) : State :=
  match s.strandAt core slot with
  | none => s
  | some t =>
    let s1 := (((s.leaveBanks core slot).releaseLanes core slot).dropCounters core t.tl).freeSlot core slot
    match t.work with
    | none => s1.placerDue
    | some w => s1.retireItem w

/-- Reel tiles that the strand still holds, freed in ascending order of its registers (R67, R210). -/
def State.freeHandles (s : State) : State :=
  (List.range 16).foldl (fun st n =>
    match st.handle (clusterOf st.cur.core) st.me n with
    | .live e g =>
      let st1 := if st.matches_ (clusterOf st.cur.core) e g then st.freeTree (clusterOf st.cur.core) 1024 e else st
      st1.setHandle (BitVec.ofNat 6 n) 0
    | .blank => st
    | .arriving => st) s

/-- Commands of a strand's counters that have not completed (R67). -/
def State.commandsOpen (s : State) (core : Nat) (tl : List Nat) : Bool :=
  tl.any fun n => decide ((s.ctr core n).done < (s.ctr core n).iss)

/-- `halt` (R67, R99): it releases the lanes as `vrel` does and retires once the strand has nothing left to do. -/
def planHalt : Plan where
  cls := .c
  fire := fun s older e =>
    let s1 := s.setMe { s.me with halting := true, wait := 13, r := { s.me.r with plink := none } }
    let k := s1.curCore
    let quiet := !(k.latching.isSome || k.tiles.any fun t => t.2.busy)
    if !allDone older || (s1.holdsLanes && !quiet) then (s1, e)
    else
      let s2 := s1.releaseLanes s1.cur.core s1.cur.slot
      let arriving := (List.range 16).any fun n => s2.handle (clusterOf s2.cur.core) s2.me n == .arriving
      if s2.commandsOpen s2.cur.core s2.me.tl || arriving then (s2, e)
      else (s2.freeHandles, { e with done := true, pend := [], res := s2.cur.succ })
  ending := .halt

/-! ### The placer (R64–R66, R68, R69, R232) -/

/-- A list turned so that a free choice of the device comes first. -/
def State.freely (s : State) (salt : Nat) {α : Type} (l : List α) : List α :=
  let n := Config.pick s.choice (salt + l.length) % max 1 l.length
  l.drop n ++ l.take n

/-- Tide marks in use (R67, R68). -/
def State.marksUsed (s : State) : Nat := s.launches.foldl (fun n l => if l.2.marked then n + l.2.ntm else n) 0

/-- A launch that has become startable stays so: its marks are allotted, and its dependences need no counter more
(R69, R70). -/
def State.arm (s : State) (id : Nat) (l : Launch) : Option State :=
  if l.armed then some s
  else
    let ready := (Tab.find s.codes l.code).isSome && l.begun &&
      l.deps.all (fun d => decide (d.2.2 ≤ (s.ctr d.1 d.2.1).done)) &&
      l.links.all (fun k => (Tab.find s.launches k.2.1).any fun p =>
        p.retired || (Tab.get ⟨0, none⟩ p.marks k.2.2).bound.isSome)
    if ready && decide (s.marksUsed + l.ntm ≤ 1024) then
      let s1 := l.deps.foldl (fun st d => st.unpin d.1 d.2.1) s
      some { s1 with launches := Tab.put s1.launches id { l with armed := true, marked := true, deps := [] } }
    else none

/-- Free strand slots of a core: none of a strand, nor allotted to one that is about to start (R232). -/
def State.freeSlots (s : State) (core : Nat) : List Nat :=
  (List.range 8).filter fun n => (s.strandAt core n).isNone &&
    s.starting.all fun g => g.strands.all fun x => !(x.1 == core && x.2.1 == n)

/-- Counters of a core that nobody holds or needs (R262). -/
def State.freeCounters (s : State) (core : Nat) : List Nat :=
  (List.range 16).filter fun n => !(s.ctr core n).used && (s.ctr core n).pins == 0

/-- Tensor identifiers allotted in a core (R68). -/
def State.tdsUsed (s : State) (core : Nat) : Nat :=
  (s.core core).slots.foldl (fun n t => n + t.2.ntd) 0 +
    s.starting.foldl (fun n g => g.strands.foldl (fun n x => if x.1 = core then n + x.2.2.ntd else n) n) 0

/-- A bank is in the pool of its cluster (R242, R243). -/
def State.inPool (s : State) (b : Nat) : Bool :=
  (s.bank b).mode == 1 && (s.bank b).switch.isNone && (s.bank b).item.isNone

/-- Which banks of a cluster are in the pool. -/
def State.poolMap (s : State) (cl : Nat) : List Bool := (List.range 256).map fun b => s.inPool (256 * cl + b)

/-- How many disjoint runs of `n` pool banks there are, from a free run of `len` on. -/
def runsIn (n : Nat) : (len : Nat) → List Bool → Nat
  | _, [] => 0
  | len, b :: rest => if !b then runsIn n 0 rest else if len + 1 < n then runsIn n (len + 1) rest else 1 + runsIn n 0 rest

/-- The first of `n` consecutive banks of the pool such that `left` more such runs remain, preferably those attached to the
core (R66, R68). -/
def State.bankRun (s : State) (core n left : Nat) : Option Nat :=
  let pool := s.poolMap (clusterOf core)
  let fits := fun b => decide (b + n ≤ 256) && ((pool.drop b).take n).all id &&
    decide (left ≤ runsIn n 0 (pool.take b ++ List.replicate n false ++ pool.drop (b + n)))
  if fits (4 * (core % 64)) then some (4 * (core % 64)) else (s.freely 3 (List.range 256)).find? fits

/-- The owner tag of a launch (R228). -/
def State.ownerOf (s : State) (l : Launch) : Nat := (Tab.find s.asids l.asid).elim 0 Asid.owner

/-- XTF at a strand's start (R310). -/
def State.frameArea (s : State) (core slot : Nat) : Word := s.xtfb + BitVec.ofNat 64 (0x1000000 * (8 * core + slot))

/-- A work item's state at its start (R66, R104). -/
def State.itemStrand (s : State) (id : Nat) (l : Launch) (linear core slot : Nat) (tl : List Nat) (bank : Nat) : Strand :=
  let base := (Tab.find s.codes l.code).elim 0 Code.base
  let bs := (l.bsbase + BitVec.ofNat 64 (linear * l.frd)) &&& ~~~7#64
  let g := Tab.set 0 (Tab.set 0 (Tab.set 0 ([] : Tab Word) 1 l.arg) 2 (BitVec.ofNat 64 id)) 3
    (BitVec.ofNat 64 (if l.nbank = 0 then 0 else bank))
  { Strand.start (base + BitVec.ofNat 64 (8 * l.entry)) with
    lvl := .u
    asid := l.asid
    r := { Scalars.start with g := g, bsp := bs, bslo := bs, bslim := bs + BitVec.ofNat 64 l.frd }
    ntd := l.ntd
    tl := tl
    startStamp := s.cycle
    lastReady := s.cycle
    xtf := s.frameArea core slot
    work := some ⟨id, linear, BitVec.ofNat 64 (packWid l.fields (fieldValues l.fields linear)), bank, l.nbank⟩ }

/-- A core is kept for a group that is about to start, of another owner than this (R232; log 85). -/
def State.keptFor (s : State) (core owner : Nat) : Bool :=
  s.starting.any fun g => (g.strands.any fun x => x.1 == core) &&
    (Tab.find s.launches g.launch).any fun l => s.ownerOf l != owner

/-- One work item started on a core with all it is allotted (R66, R68), if that fits and leaves room for the `left` items
of its group that its cluster has still to take. A core with a scrub to come, or kept for another owner, takes no other
group (log 85). -/
def State.startItem (s : State) (id linear core left : Nat) : Option State :=
  match Tab.find s.launches id with
  | none => none
  | some l =>
    let cl := clusterOf core
    let tl := (s.freely 2 (s.freeCounters core)).take l.ntl
    let fits := decide (s.tdsUsed core + l.ntd ≤ 256) && tl.length == l.ntl &&
      decide (l.nlin + s.reserved cl ≤ (s.freeEntries cl).length) && !(s.core core).scrub && !s.keptFor core (s.ownerOf l) &&
      !((s.core core).owner != some (s.ownerOf l) && (s.core core).holder.isSome)
    match (s.freely 1 (s.freeSlots core)).head?, (if l.nbank = 0 then some 0 else s.bankRun core l.nbank left) with
    | some slot, some bank =>
      if !fits then none
      else
        let s1 := tl.foldl (fun st n => st.setCtr core n Ctr.start) s
        let s2 := (List.range l.nbank).foldl (fun st i =>
          let b := 256 * cl + bank + i
          st.setBank b { st.bank b with item := some (id, linear) }) s1
        let s3 := { s2 with launches := Tab.put s2.launches id { l with
          items := Tab.put l.items linear ⟨cl, l.nlin, [], 0⟩ } }
        some (s3.setStrand core slot (s3.itemStrand id l linear core slot tl bank))
    | _, _ => none

/-- Items that share a core, all started there, before `left` more in the cluster. -/
def State.startAll (s : State) (id core left : Nat) : List Nat → Option State
  | [] => some s
  | n :: rest =>
    match s.startItem id n core (rest.length + left) with
    | none => none
    | some s1 => s1.startAll id core left rest

/-- Items of a group with their places (R62, R64): the index of die, cluster and core, where a field names it. -/
abbrev Placed := List (Nat × Option Nat × Option Nat × Option Nat)

/-- The distinct indices of a list of placed items at one level. -/
def keysOf (f : Nat × Option Nat × Option Nat × Option Nat → Option Nat) (ps : Placed) : List (Option Nat) := (ps.map f).dedup

/-- The items of a cluster started on its cores (R64): the j-th in-service core, or one that the placer picks. -/
def State.startInCluster (s : State) (id cl : Nat) (ps : Placed) : List (Option Nat) → Option State
  | [] => some s
  | k :: ks =>
    let items := (ps.filter fun p => p.2.2.2 == k).map Prod.fst
    let cores := match k with
      | some j => ((s.serving cl)[j]?).toList
      | none => s.freely 4 (s.serving cl)
    let left := (ps.filter fun p => ks.contains p.2.2.2).length
    match cores.findSome? fun c => s.startAll id c left items with
    | none => none
    | some s1 => s1.startInCluster id cl ps ks

/-- The items of a die started in its clusters. -/
def State.startInDie (s : State) (id die : Nat) (ps : Placed) : List (Option Nat) → Option State
  | [] => some s
  | k :: ks =>
    let here := ps.filter fun p => p.2.2.1 == k
    let clusters := match k with
      | some c => [2 * die + c]
      | none => s.freely 5 [2 * die, 2 * die + 1]
    match clusters.findSome? fun cl => s.startInCluster id cl here (keysOf (fun p => p.2.2.2) here) with
    | none => none
    | some s1 => s1.startInDie id die ps ks

/-- The items of a group started on the dies. -/
def State.startOnDies (s : State) (id : Nat) (ps : Placed) : List (Option Nat) → Option State
  | [] => some s
  | k :: ks =>
    let here := ps.filter fun p => p.2.1 == k
    let dies := match k with
      | some e => [e]
      | none => s.freely 6 (List.range 4)
    match dies.findSome? fun e => s.startInDie id e here (keysOf (fun p => p.2.2.1) here) with
    | none => none
    | some s1 => s1.startOnDies id ps ks

/-- The places of the items of the next level-K group. -/
def Launch.nextGroup (l : Launch) : Placed :=
  (List.range l.unit).map fun i =>
    let n := l.groupBase l.group + i
    let vs := fieldValues l.fields n
    (n, placedIndex 3 l.fields vs, placedIndex 2 l.fields vs, placedIndex 1 l.fields vs)

/-- The next group started whole, if it fits (R65). -/
def State.startGroup (s : State) (id : Nat) (l : Launch) : Option State :=
  let ps := l.nextGroup
  (s.startOnDies id ps (keysOf (fun p => p.2.1) ps)).map fun s1 =>
    match Tab.find s1.launches id with
    | none => s1
    | some l1 => { s1 with launches := Tab.put s1.launches id { l1 with group := l.group + 1, since := none } }

/-- Cores that a group has taken and that belong to another owner (R232). -/
def coresToScrub (s s1 : State) (id owner : Nat) : List Nat :=
  s1.cores.filterMap fun c =>
    let mine := c.2.slots.any fun t => (t.2.work.map WorkItem.launch) == some id && (s.strandAt c.1 t.1).isNone
    if mine && (s.core c.1).owner != some owner then some c.1 else none

/-- Banks that it has taken and that belong to another owner (R232). -/
def banksToZero (s s1 : State) (owner : Nat) : List Nat :=
  s1.banks.filterMap fun b =>
    if b.2.item.isSome && (s.bank b.1).item.isNone && (s.bank b.1).owner != some owner then some b.1 else none

/-- Strands put into their slots: they start now (R66). -/
def State.startStrands (s : State) (xs : List (Nat × Nat × Strand)) : State :=
  xs.foldl (fun st x => st.setStrand x.1 x.2.1 { x.2.2 with startStamp := s.cycle, lastReady := s.cycle }) s

/-- What a group has still to prepare goes on (R232): banks are zeroed one at a time in ascending number, and once nothing
is left its strands start. -/
def State.startReady (s : State) : State :=
  let ready := s.starting.filter fun g => g.cores.isEmpty && g.banks.isEmpty
  (ready.foldl (fun st g => st.startStrands g.strands) { s with starting := s.starting.filter fun g => !(g.cores.isEmpty && g.banks.isEmpty) })

/-- A group that fits keeps all it is allotted; it starts, or the scrubs and the zeroing that it needs first are begun
(R65, R232). `s1` is the state with its strands placed. -/
def State.commitGroup (s s1 : State) (id owner : Nat) : State :=
  let cores := coresToScrub s s1 id owner
  let banks := (banksToZero s s1 owner).mergeSort
  if cores.isEmpty && banks.isEmpty then s1
  else
    let placed := s1.cores.flatMap fun c => c.2.slots.filterMap fun t =>
      if (t.2.work.map WorkItem.launch) == some id && (s.strandAt c.1 t.1).isNone then some (c.1, t.1, t.2) else none
    let s2 : State := { placed.foldl (fun st x => st.freeSlot x.1 x.2.1) s1 with
      starting := s1.starting ++ [⟨id, placed, cores, banks⟩] }
    let s3 := cores.foldl (fun st c => (st.setCore c { st.core c with scrub := true }).due (.ownerScrub c owner)) s2
    match banks with
    | [] => s3
    | b :: _ => s3.due (.bankOwnerZeroing (b / 256) (b % 256) owner)

/-- The order in which the placer considers launches (R69): the first by PRIO, then by ID. -/
def firstLaunch : List (Nat × Launch) → Option (Nat × Launch)
  | [] => none
  | x :: rest =>
    match firstLaunch rest with
    | none => some x
    | some y => if x.2.prio < y.2.prio || (x.2.prio == y.2.prio && decide (y.1 < x.1)) then some y else some x

/-- LQAGE (R69). -/
def lqage : Nat := 1048576

/-- A launch's next group does not fit now, from this cycle on if it fitted before; or it does. -/
def State.noteFit (s : State) (id : Nat) (l : Launch) (fits : Bool) : State :=
  { s with launches := Tab.put s.launches id { l with since := if fits then none else some (l.since.getD s.cycle) } }

/-- The placer goes through the startable launches in its order and starts the first group that fits; a launch whose group
has not fitted for LQAGE cycles holds back those after it, until it is placed (R69). For how long a group has not fitted
is noted of every one of them; `held` says that no more is to start in this look. A launch one of whose groups has still to be
scrubbed for starts no later one (R65). -/
def State.placeFrom (s : State) (held : Bool) : (fuel : Nat) → List (Nat × Launch) → State
  | 0, _ => s
  | fuel + 1, ls =>
    match firstLaunch ls with
    | none => s
    | some (id, l) =>
      let rest := ls.filter fun x => x.1 != id
      match s.arm id l with
      | none => s.placeFrom held fuel rest
      | some s0 =>
        if s0.starting.any fun g => g.launch == id then s0.placeFrom held fuel rest
        else
        let l0 := (Tab.find s0.launches id).getD l
        match s0.startGroup id l0 with
        | some s1 =>
          if held then (s0.noteFit id l0 true).placeFrom true fuel rest
          else (s0.commitGroup s1 id (s0.ownerOf l0)).placeFrom true fuel rest
        | none =>
          let aged := l0.since.any fun c => decide (c + lqage ≤ s0.cycle)
          (s0.noteFit id l0 false).placeFrom (held || aged) fuel rest

/-- LAUNCH_GROUP_START: one look of the placer; it looks again while launches are queued. -/
def State.place (s : State) : State :=
  let s1 := s.placeFrom false (s.queued.length + 1) s.queued
  if s1.queued.isEmpty then s1 else s1.placerDue

/-- A core is to be scrubbed for a group about to start. -/
def State.scrubDue (s : State) (core : Nat) : Bool := s.starting.any fun g => g.cores.contains core

/-- A core's storage scrubbed for a new owner (R232): dirty lines are written back under their own keys, and the rest is
zeroed. -/
def State.scrub (s : State) (core owner : Nat) : State :=
  s.writeBackAll.setCore core { s.core core with
    owner := some owner, scrub := false, v := [], q := [], tiles := [], latch := none, latching := none }

/-- OWNER_SCRUB (R232): it waits until no strand holds the lanes. Where no group that is about to start needs it, nothing
happens. -/
def State.scrubCore (s : State) (core owner : Nat) : State :=
  if !s.scrubDue core then s
  else if (s.core core).holder.isSome then s.due (.ownerScrub core owner)
  else
    let s1 := s.scrub core owner
    ({ s1 with starting := s1.starting.map fun g => { g with cores := g.cores.filter fun c => c != core } } : State).startReady

/-- BANK_OWNER_ZEROING (R232): every block of the bank is written, and the group's next bank is due. Where no group that
is about to start has this bank to be zeroed next, nothing happens. -/
def State.zeroBank (s : State) (b owner : Nat) : State :=
  match s.starting.find? fun g => g.banks.head? == some b with
  | none => s
  | some g =>
    let s1 := (s.zeroed b).setBank b { (s.zeroed b).bank b with owner := some owner }
    let s2 : State := { s1 with starting := s1.starting.map fun g => if g.banks.head? == some b then { g with banks := g.banks.drop 1 } else g }
    match g.banks.drop 1 with
    | [] => s2.startReady
    | n :: _ => s2.due (.bankOwnerZeroing (n / 256) (n % 256) owner)

end Sys2Proof.Machine
end

