-- ==== Sys2Proof/Machine/Gangs.lean ====
section
/-!
DEFINITION. Gang launches between devices (04, R75; 23, R378, R380): what the issuer and the members do with the
messages of the exchange.
-/

namespace Sys2Proof.Machine

/-- A gang's header as one number: the sixteen dwords of R60, then the members' device IDs, a dword each. -/
def headerWords (header : Nat) : List Word :=
  let word := fun i => BitVec.ofNat 64 (header / 2 ^ (64 * i))
  let h := launchHeader ((List.range 16).map word)
  (List.range (16 + h.at_ 4)).map word

/-- A part of a gang joins: a launch of its own, which does not begin yet. The member makes none of its own checks of R76 on
the header (log 137). -/
def State.joinPart (s : State) (gseq member : Nat) (g : Gang) : State :=
  let h := launchHeader (g.header.take 16)
  (s.accept h member [] [] none).putGang gseq { g with parts := Tab.put g.parts member s.nextLaunch }

/-- GANG_PREPARE_ACK: the member's part is journaled as accepted and acknowledged. A part already known is acknowledged
again; a device that the list names twice has two parts under one entry of its journal (R75, R378). -/
def State.joinGang (s : State) (gseq member header : Nat) : State :=
  let reply := fun (st : State) => { st with out := st.out ++ [.gangAck gseq member false] }
  match s.liveGang gseq with
  | some g =>
    if g.issuer || g.begun || (Tab.find g.parts member).isSome then reply s else reply (s.joinPart gseq member g)
  | none =>
    match s.journalAppend (gangEntry gseq true) with
    | none => s.due (.gangPrepareAck gseq member header)
    | some (s1, jseq) =>
      reply (s1.joinPart gseq member
        { issuer := false, header := headerWords header, issued := [], parts := [], acks := [], commits := [], retired := []
          jseq := jseq, committed := false, begun := false, broken := false, since := s1.cycle })

/-- GANG_COMMIT: the parts on this device begin, once (R75, R378); every commit is acknowledged, and a part that has
retired before is reported again. -/
def State.beginGang (s : State) (gseq : Nat) : State :=
  match Tab.find s.gangs gseq with
  | none => s
  | some g =>
    if g.issuer then s
    else
      let acks := g.parts.map fun p => Msg.gangAck gseq p.1 true
      let again := g.ended.map fun m => Msg.gangRetired gseq m
      ({ s with out := s.out ++ acks ++ again } : State).beginParts gseq

/-- GANG_ACKNOWLEDGEMENT: once every member has acknowledged prepare, the issuer commits (R378). -/
def State.gangAcked (s : State) (gseq member : Nat) (commit : Bool) : State :=
  match Tab.find s.gangs gseq with
  | none => s
  | some g =>
    if commit then s.putGang gseq { g with commits := addOnce g.commits member }
    else (s.putGang gseq { g with acks := addOnce g.acks member }).commitGang gseq

/-- GANG_COMMIT_RESEND: while an acknowledgement of commit is missing, COMMIT goes out again every GTMO cycles. -/
def State.resendCommit (s : State) (gseq : Nat) : State :=
  match Tab.find s.gangs gseq with
  | none => s
  | some g =>
    if !g.committed ∨ g.broken ∨ g.all g.commits then s
    else if s.cycle < g.since + s.gtmo then s.due (.gangCommitResend gseq)
    else
      ({ s.putGang gseq { g with since := s.cycle } with out := s.out ++ [Msg.gangCommit gseq] } : State).due
        (.gangCommitResend gseq)

/-- A gang ends before it has begun, or broken: its entry fails with REASON 3, the issuer publishes CTL (R75), and parts
that have not begun never do. -/
def State.breakGang (s : State) (gseq : Nat) (g : Gang) : State :=
  let s1 := (s.putGang gseq { g with broken := true }).failGang g
  let s2 := if g.begun then s1 else g.parts.foldl (fun st p => st.endLaunch p.2) s1
  (s2.publishGang gseq).placerDue

/-- GANG_ABORT: prepare unacknowledged within GTMO cycles (R378). -/
def State.abortGang (s : State) (gseq : Nat) : State :=
  match Tab.find s.gangs gseq with
  | none => s
  | some g =>
    if !g.issuer ∨ g.committed ∨ g.broken then s
    else if s.cycle < g.since + s.gtmo then s.due (.gangAbort gseq)
    else ({ s with out := s.out ++ [Msg.gangAbort gseq] } : State).breakGang gseq g

/-- MEMBER_ABORT: a member that has not begun does not. -/
def State.memberAborted (s : State) (gseq : Nat) : State :=
  match Tab.find s.gangs gseq with
  | none => s
  | some g => if g.broken then s else s.breakGang gseq g

/-- DEVICE_DOWN_REPORT (R380): peer accesses to the device fail from now on, and its gangs are broken (R378), unless
every member of one has reported its part retired. -/
def State.deviceDown (s : State) (device : Nat) : State :=
  s.gangs.foldl (fun st g =>
    if g.2.members.contains device && !g.2.broken && !g.2.all g.2.retired then st.breakGang g.1 g.2 else st)
    { s with down := addOnce s.down device }

end Sys2Proof.Machine
end

