-- ==== Sys2Proof/Machine/Ports.lean ====
section
/-!
DEFINITION. The Smiend ports (23, R379, R380): replays, recalibration of the data lanes, failed lanes and retraining. Lanes 0
and 1 carry data; lane 2 is the stand-in.
-/

namespace Sys2Proof.Machine

/-- A port beside its status register. -/
def State.port (s : State) (p : Nat) : Port := Tab.get Port.start s.ports p

/-- It changed. -/
def State.setPort (s : State) (p : Nat) (x : Port) : State := { s with ports := Tab.set Port.start s.ports p x }

/-- PST of a port. -/
def State.pstWord (s : State) (p : Nat) : Word := Tab.get 0 s.pst p

/-- STATE of PST: 0 down, 1 full, 2 one lane, 3 training. -/
def State.portState (s : State) (p : Nat) : Nat := field (s.pstWord p) 0 2

/-- OUT of PST: the data lane that the stand-in replaces, or 3 where both have failed. -/
def Port.out (x : Port) : Nat :=
  if x.bad.contains 0 && x.bad.contains 1 then 3
  else if x.bad.contains 0 then 1
  else if x.bad.contains 1 then 2
  else (x.cal.map fun l => l + 1).getD 0

/-- PST from its fields. -/
def pstOf (replays out state : Nat) : Word := BitVec.ofNat 64 (state + out * 8 + replays % 2 ^ 32 * 2 ^ 32)

/-- PST brought up to date with a STATE. -/
def State.putPst (s : State) (p state : Nat) : State :=
  { s with pst := Tab.set 0 s.pst p (pstOf (field (s.pstWord p) 32 32) (s.port p).out state) }

/-- Every port that joins a device is down (R380): which ports those are is not the device's choice (log 117). -/
def State.portsDown (s : State) (device : Nat) : Bool :=
  (List.range 96).all fun p => Config.portPeer p != some device || s.portState p == 0

/-- The device behind a port that is down is reported down, if no other port joins it (R380). -/
def State.reportDown (s : State) (p : Nat) : State :=
  match Config.portPeer p with
  | none => s
  | some d => if s.portsDown d && !s.down.contains d then s.due (.deviceDownReport d) else s

/-- A lane that failed: the first leaves the port at full rate, a second makes it retrain, a third takes it down. -/
def State.failLane (s : State) (p lane : Nat) : State :=
  let x := s.port p
  if x.bad.contains lane then s
  else
    let s1 := s.setPort p { x with bad := x.bad ++ [lane] }
    match x.bad.length with
    | 0 => s1.putPst p (s.portState p)
    | 1 => (s1.putPst p (s.portState p)).due (.portRetrain p)
    | _ => (s1.putPst p 0).reportDown p

/-- FLIT_REPLAY: counted; the eighth replay of a data lane in one period makes it fail. -/
def State.replay (s : State) (p lane : Nat) : State :=
  let x := s.port p
  let n := Tab.get 0 x.reps lane + 1
  let w := s.pstWord p
  let s1 := ({ s with pst := Tab.set 0 s.pst p (pstOf (field w 32 32 + 1) (field w 3 2) (field w 0 2)) } : State).setPort p
    { x with reps := Tab.put x.reps lane n }
  if 8 ≤ n then s1.failLane p lane else s1

/-- The length of a recalibration period in cycles (R379). -/
def lanePeriod : Nat := 2 ^ 20

/-- LANE_RECALIBRATION, once the period is over: a new one begins, and the stand-in takes over the lane whose turn it is,
if it is free. -/
def State.recalibrate (s : State) (p : Nat) : State :=
  let x := s.port p
  if s.portState p = 0 then s
  else if s.cycle < x.since + lanePeriod then s.due (.laneRecalibration p)
  else
    let y := { x with reps := [], since := x.since + lanePeriod }
    let next := fun (st : State) => st.due (.laneRecalibration p)
    if s.portState p ≠ 1 ∨ !x.bad.isEmpty ∨ x.cal.isSome then next (s.setPort p y)
    else
      let s1 := s.setPort p { y with cal := some x.turn, turn := 1 - x.turn }
      next ((s1.putPst p 1).due (.laneRecalibrationEnd p (Config.takes s.choice p)))

/-- LANE_RECALIBRATION_END: the lane returns to service, or stays swapped out. -/
def State.recalibrated (s : State) (p : Nat) (ok : Bool) : State :=
  let x := s.port p
  match x.cal with
  | none => s
  | some l =>
    let s1 := s.setPort p { x with cal := none }
    if ok then s1.putPst p (s.portState p) else s1.failLane p l

/-- PORT_RETRAIN: a port with two failed lanes trains onto the lane that is left. -/
def State.retrain (s : State) (p : Nat) : State :=
  if s.portState p = 0 ∨ (s.port p).bad.length ≠ 2 then s else (s.putPst p 3).due (.portRetrainEnd p)

/-- PORT_RETRAIN_END: it runs on one lane. -/
def State.retrained (s : State) (p : Nat) : State := if s.portState p ≠ 3 then s else s.putPst p 2

/-- The ports that have a link partner come up at full rate, and their first recalibration period begins (R379, R383
stage 5); which these are is not the device's choice (log 11). A device none of whose ports comes up is reported down
(R380). -/
def State.trainPorts (s : State) : State :=
  let s1 := (List.range 96).foldl (fun st p =>
    if Config.takes s.choice (1000 + p) then
      ((st.putPst p 1).setPort p { st.port p with since := s.cycle }).due (.laneRecalibration p)
    else st) s
  ((List.range 96).filterMap Config.portPeer).dedup.foldl (fun st d => if st.portsDown d then st.due (.deviceDownReport d) else st) s1

end Sys2Proof.Machine
end

