-- ==== Sys2Proof/Machine/Boot.lean ====
section
/-!
DEFINITION. Device reset, power-up and boot (23, R383), journal recovery (R376), the supervisor strands (R373), and units
that leave service (01, R10; 23, R376).
-/

namespace Sys2Proof.Machine

/-! ### Reset and power-up (R383) -/

/-- What is kept of a gang over a reset for its part to be relaunched (R378; log 118). -/
def Gang.kept (g : Gang) : Gang := { g with issued := [], parts := g.parts.map fun p => (p.1, 0) }

/-- DEVICE_RESET (R376): memory, the flash, the units out of service, the launch IDs used (R76) and the gangs (R378) stay;
everything else is as after reset. -/
def State.deviceReset (s : State) : State :=
  { State.reset with
    choice := s.choice
    outCores := s.outCores
    outChans := s.outChans
    hbm := s.hbm
    pool := s.pool
    poolIn := s.poolIn
    nextLaunch := s.nextLaunch
    gangs := s.gangs.map fun g => (g.1, g.2.kept)
    lineKey := s.lineKey
    poison := s.poison
    devId := s.devId
    flash := s.flash
    out := s.out }

/-- Stage 4: every core in service comes up with no lane powered; the lanes of the first are due (R130). -/
def State.powerCores (s : State) : State :=
  let cores := (List.range 8).flatMap s.serving
  let s1 := cores.foldl (fun st c => st.setCore c { st.core c with pwr := 0 }) s
  s1.due (match cores with
    | [] => .powerUpStage
    | c :: _ => .lanePowerUp c)

/-- POWER_UP_STAGE: the next stage starts. The third waits for the boot images, the fourth for the lanes of every core
and the fifth for the journal. -/
def State.powerUp (s : State) : State :=
  let s1 := { s with stage := s.stage + 1 }
  match s.stage with
  | 0 => s1.due .powerUpStage
  | 1 => s1.due .powerUpStage
  | 2 => s1.due (.bootImageVerify 0)
  | 3 => s1.powerCores
  | 4 => s1.due .journalRecovery
  | _ => s

/-- MEASk extended by a digest (R383). -/
def State.measure (s : State) (k : Nat) (digest : List Byte) : State :=
  { s with meas := Tab.set 0 s.meas k (BitVec.ofNat 512 (ofBytes (sha512 (s.measBytes k ++ digest)))) }

/-- An image of the boot flash passes: the ROM's own image 0 is not signed; every other one is signed with the Olifen root
key, over its digest. -/
def bootImageOk (k : Nat) (img : List Byte × List Byte × List Byte) : Bool :=
  k == 0 || (Config.signatureValid (sha512 img.1) img.2.2 img.2.1 && img.2.2 == toBytes 32 Config.rootKey.toNat)

/-- What a verified image brings (R383; log 30): firmware installs key slot 0 for owner 0 and binds ASID 0; the manifest
names the runtime's entry convoy; the runtime image is loaded. -/
def State.loadImage (s : State) (k : Nat) (bytes : List Byte) : State :=
  match k with
  | 1 => { s with
      keys := Tab.put s.keys 0 ⟨0, Config.bootKey, none⟩
      asids := Tab.put s.asids 0 ⟨Config.runtimeRoot bytes, 0⟩ }
  | 2 => { s with runtime := Config.manifestEntry bytes }
  | 3 => if inNear (Config.runtimeAddr bytes) bytes.length then s.nearWrite 0 (Config.runtimeAddr bytes) bytes else s
  | _ => s

/-- BOOT_IMAGE_VERIFY: image k, in order; on failure it is refused and the boot goes no further. -/
def State.verifyImage (s : State) (k : Nat) : State :=
  match Tab.find s.flash k with
  | none => s
  | some img =>
    if s.stage ≠ 3 ∨ 3 < k ∨ !bootImageOk k img then s
    else
      ((s.measure k (sha512 img.1)).loadImage k img.1).due (if k = 3 then .powerUpStage else .bootImageVerify (k + 1))

/-! ### Journal recovery (R376) -/

/-- A copy of an entry passes its CRC; a copy in a pseudo-channel out of service does not. -/
def State.copyOk (s : State) (mirror : Bool) (slot : Nat) : Bool :=
  let ds := s.journal mirror slot
  ds == sealed ds && !s.outChans.contains (if mirror then 319 else 63)

/-- The slots of the ring that have been written. -/
def State.journalSlots (s : State) : List Nat :=
  let here := fun (a : Nat) => (a / 2 ^ 30 == 63 || a / 2 ^ 30 == 319) && decide (a % 2 ^ 30 < 64 * journalSize)
  ((s.hbm.filter fun e => here e.1).map fun e => e.1 % 2 ^ 30 / 64).dedup

/-- One entry's copies brought to agree, or an error record of kind 1. -/
def State.repair (s : State) (slot : Nat) : State :=
  let a := s.journal false slot
  let b := s.journal true slot
  match s.copyOk false slot, s.copyOk true slot with
  | true, false => s.putJournal true slot a
  | false, true => s.putJournal false slot b
  | true, true => if a = b then s else if jState a < jState b then s.putJournal false slot b else s.putJournal true slot a
  | false, false => s.logErr 1 2 0x1FF 0 0 (journalAt false slot) 0 0 0

/-- An unfinished entry after an interruption: started without RERUN it fails with REASON 2, started with RERUN it is
accepted again. -/
def State.interrupted (s : State) (jseq : Nat) : State :=
  let ds := s.journal false jseq
  let d1 := ds.getD 1 0
  if jState ds ≠ 2 then s
  else s.journalWrite jseq (ds.set 1 (d1 / 256 * 256 + (if d1 / 2 ^ 8 % 2 = 1 then 1 else 4 + 2 * 16)))

/-- The parts of a gang on this device that have not retired launched again under its number (R378): they begin at once if
they had begun, and else wait for COMMIT. The issuer goes on with the exchange. -/
def State.relaunchGang (s : State) (gseq : Nat) (g : Gang) : State :=
  let s1 := (g.parts.filter fun p => !g.retired.contains p.1).foldl (fun st p =>
    match Tab.find st.gangs gseq with
    | none => st
    | some x => st.joinPart gseq p.1 x) (s.putGang gseq { g with begun := false, parts := [], since := s.cycle })
  let s2 := if g.begun then s1.beginParts gseq else s1
  if !g.issuer then s2 else s2.due (if g.committed then .gangCommitResend gseq else .gangAbort gseq)

/-- An unfinished entry that firmware has handled: if it is accepted, the supervisors receive it, or the device launches the
gang's parts again; a gang whose entry has failed is broken. -/
def State.handOver (s : State) (jseq : Nat) : State :=
  let st := jState (s.journal false jseq)
  match s.gangs.find? fun g => g.2.jseq == jseq && !g.2.broken with
  | none => if st = 1 then { s with handed := s.handed ++ [jseq] } else s
  | some (gseq, g) =>
    if st = 1 then s.relaunchGang gseq g else if st = 4 then s.putGang gseq { g with broken := true } else s

/-- JOURNAL_RECOVERY: the copies repaired, unfinished entries handled and handed over in ascending JSEQ, and JHEAD found
again; then the ports train and the supervisors start (R383 stage 5). -/
def State.recoverJournal (s : State) : State :=
  let slots := s.journalSlots
  let s1 := slots.foldl State.repair s
  let live := slots.filter fun n => s1.copyOk false n || s1.copyOk true n
  let seqs := (live.map fun n => (s1.journal false n).getD 0 0).mergeSort
  let s2 := seqs.foldl State.interrupted s1
  let s3 := seqs.foldl State.handOver { s2 with jhead := seqs.foldl max 0, handed := [] }
  s3.trainPorts.due .supervisorStart

/-- SUPERVISOR_START (R373, R262): one strand for each cluster, in slot 0 of its lowest core in service, with four
timeline counters (log 96) and this cycle as its start stamp (log 125). -/
def State.startSupervisors (s : State) : State :=
  (List.range 8).foldl (fun st cl =>
    match st.serving cl with
    | [] => st
    | core :: _ =>
      let st1 := (List.range 4).foldl (fun x n => x.setCtr core n Ctr.start) st
      st1.setStrand core 0 { Strand.start s.runtime with
        tl := List.range 4, startStamp := s.cycle, lastReady := s.cycle, xtf := s.frameArea core 0 }) s

/-! ### Units out of service (R10, R376) -/

/-- The accepted and started entries of the journal that a launch is journaled under: by launch ID, or by GSEQ for a gang. -/
def State.entriesOf (s : State) (id : Nat) (l : Launch) : List Nat :=
  (s.journalSlots.filter fun n =>
    let ds := s.journal false n
    (jState ds == 1 || jState ds == 2) && (if ds.getD 1 0 / 2 ^ 9 % 2 = 1 then l.gseq == some (ds.getD 4 0) else ds.getD 4 0 == id)).map
      fun n => (s.journal false n).getD 0 0

/-- The launches with work items on a core, or about to start there. -/
def State.launchesOn (s : State) (core : Nat) : List Nat :=
  let soon := s.starting.flatMap fun g => if g.strands.any fun x => x.1 == core then [g.launch] else []
  (((s.core core).slots.filterMap fun t => t.2.work.map WorkItem.launch) ++ soon).dedup

/-- A core leaves service with its strands. -/
def State.dropCore (s : State) (core : Nat) : State :=
  let k := s.core core
  let s1 := k.slots.foldl (fun st t => st.leaveBanks core t.1) s
  let s2 := s1.setCore core { k with
    slots := [], holder := none, width := 0, laneQ := [], v := [], q := [], tiles := [], latch := none, latching := none
    scrub := false }
  ({ s2 with
    outCores := addOnce s.outCores core
    starting := s2.starting.map fun g =>
      { g with strands := g.strands.filter fun x => x.1 != core, cores := g.cores.filter fun c => c != core } } : State).startReady

/-- The strands of the lost work items of a launch leave their slots. -/
def State.loseLaunch (s : State) (id : Nat) : State :=
  s.cores.foldl (fun st c => c.2.slots.foldl (fun st t =>
    if (t.2.work.map WorkItem.launch) == some id then ((st.leaveBanks c.1 t.1).releaseLanes c.1 t.1).freeSlot c.1 t.1 else st) st) s

/-- The launches that lose work items with a pseudo-channel: whose memory lay there is not the device's choice (log 119). -/
def State.launchesLost (s : State) (chan : Nat) : List Nat :=
  (s.launches.filter fun l => !l.2.items.isEmpty && Config.takes s.choice (2000 + 512 * l.1 + chan)).map Prod.fst

/-- UNIT_OUT_OF_SERVICE: a core with its strands, or a pseudo-channel. The requests of the work items that are lost are
handled as after a reset, in JSEQ order (R376, R377). -/
def State.unitOut (s : State) (isCore : Bool) (unit : Nat) : State :=
  let lost := if isCore then s.launchesOn unit else s.launchesLost unit
  let seqs := (lost.flatMap fun id => (Tab.find s.launches id).elim [] fun l => s.entriesOf id l).mergeSort
  let s1 := if isCore then s.dropCore unit else lost.foldl State.loseLaunch { s with outChans := addOnce s.outChans unit }
  seqs.foldl State.handOver (seqs.foldl State.interrupted s1)

end Sys2Proof.Machine
end

