-- ==== Sys2Proof/Machine/Context.lean ====
section
/-!
DEFINITION. Traps by instruction, the return from a handler, and moving a strand out of or into a slot (16, R318–R323);
reading error records (16, R331).
-/

namespace Sys2Proof.Machine

/-- The size of a context image (R312). -/
def imageSize : Nat := 2 ^ 20

/-- `trap` (R320): it waits until it is the oldest instruction, so that nothing younger has issued when it is taken. -/
def planTrap (n : BitVec 20) : Plan where
  cls := .c
  fire := fun s older e =>
    if s.oldest older then
      (s, { e with
        done := true, pend := [], res := s.cur.succ, flt := some { cause := 31, info := n.toNat, after := true } })
    else (s, e)

/-! ### Reading an image (R321, R322, R385) -/

/-- The runs of an image that are read: the sections that its header says the strand uses (R312). -/
def State.usedRuns (s : State) (rd : Reader) : List (Nat × Nat) :=
  let h0 := s.img rd 0
  let d17 := s.img rd 0x88
  let nif := field d17 0 8
  let es := (List.range nif).map fun i => s.imgNat rd (0x2000 + 64 * i) 24
  let slots := es.flatMap fun e => ((List.range 8).map fun j => e / 2 ^ (128 + 8 * j) % 256).filter fun n => n < 96
  let tiles := (List.range 8).flatMap fun i =>
    let o := 0x90000 + 0xC000 * i
    if field (s.img rd (o + 0x9000)) 20 2 = 0 then [(o + 0x9000, 192)] else [(o, 0x9000), (o + 0x9000, 192)]
  [(0, 0x280), (0x400, 0x100), (0x800, 0x800)] ++
    (if field d17 23 5 = 0 then [] else [(0x280, 0x100)]) ++ [(0x1000, 64 * field d17 16 7), (0x2000, 64 * nif)] ++
    (es.filter fun e => e.testBit 9).map (fun e => (0x4000 + 256 * (e / 2 ^ 10 % 32), 256)) ++
    slots.map (fun n => (0x30000 + 0x1000 * n, 0xA00)) ++
    (if field h0 26 1 = 0 then [] else [(0x6000, 0x1C00), (0x10000, 0x20000)] ++ tiles ++
      (if field h0 27 1 = 0 then [] else [(0xF0000, 0x5000), (0xF9000, 192)]))

/-- The first line of a list of runs that cannot be read: a trap, or a stall at a bank that is switching. -/
def State.badRun (s : State) (rd : Reader) (runs : List (Nat × Nat)) : Option (Option Trap) :=
  (runs.flatMap fun r => (List.range ((r.2 + 63) / 64)).map fun i => rd.base + BitVec.ofNat 64 (r.1 + 64 * i)).findSome? fun va =>
    let p := s.spot rd.leaves va
    if s.reelLive p then some (some (pageFault 9 .read va))
    else if s.poisoned p then some (some (memoryError 6 va p))
    else if s.stalled p then some none
    else none

/-- An unfinished fill's identifier copy binds (R168), by the record snapshot it carries. -/
def fillBinds (td : BitVec 512) : Bool :=
  let fc := (tidOf td).fcode
  descriptorOk ((td.extractLsb' 0 448).setWidth 512) (if 32 ≤ fc ∧ tdDword td 7 ≠ 0 then [(fc - 32, tdDword td 7)] else [])

/-- The bits of an image's header and of its entries in flight that R313 and R314 leave unassigned or give as zero. -/
def State.imageReserved (s : State) (rd : Reader) : Bool :=
  let d17 := s.img rd 0x88
  let d18 := s.img rd 0x90
  field (s.img rd 0) 49 15 == 0 && field d17 28 36 == 0 && field d18 9 7 == 0 && field d18 27 37 == 0 &&
    s.imgNat rd 0x98 104 == 0 && (List.range (field d17 0 8)).all fun i =>
      let o := 0x2000 + 64 * i
      field (s.img rd o) 15 1 == 0 && field (s.img rd o) 28 36 == 0 && s.imgNat rd (o + 32) 32 == 0

/-- The image is well formed (−82). -/
def State.imageOk (s : State) (rd : Reader) : Bool :=
  let h0 := s.img rd 0
  let lanes := field h0 26 1 == 1
  field h0 0 16 == 0x5843 && field h0 16 8 == 1 && s.imageReserved rd &&
    (!lanes || ([8, 16, 32].contains (field h0 28 6) && (List.range 8).all fun i =>
      let o := 0x90000 + 0xC000 * i
      field (s.img rd (o + 0x9000)) 20 2 != 1 || fillBinds (BitVec.ofNat 512 (s.imgNat rd (o + 0x9040) 64))))

/-- The counter of a core that stays pinned for name `n` of an image (R262, R322). -/
def State.pinnedFor (s : State) (rd : Reader) (n : Nat) : Option (Nat × Nat) :=
  let loc := s.img rd 0x80
  let core := field loc 11 9
  ((List.range 16).find? fun i =>
    (s.ctr core i).mine == some (field loc 20 3, n, (s.img rd 0x70).toNat, (s.img rd 0x78).toNat) &&
      (s.ctr core i).iss == (s.img rd (0x280 + 16 * n)).toNat).map fun i => (core, i)

/-- The image holds live or arriving handles (R202). -/
def State.imageHandles (s : State) (rd : Reader) : Bool := (List.range 16).any fun i => (s.img rd (0x180 + 8 * i)).getLsbD 63

/-- The checks of R322 on an image that is to be loaded at a core by a strand at a level: 0 or a code of R323.
`own` says that the strand is the core's already, with its identifiers and counters. -/
def State.imageCode (s : State) (rd : Reader) (core : Nat) (lvl : Level) (own : Bool) : Int :=
  let h0 := s.img rd 0
  let d17 := s.img rd 0x88
  let d18 := s.img rd 0x90
  let ntl := field d17 23 5
  let pinned := (List.range ntl).filterMap fun n => s.pinnedFor rd n
  if !s.imageOk rd then -82
  else if lvl.num < field h0 24 2 then -83
  else if (Tab.find s.asids (field h0 34 8)).isNone then -84
  else if (s.imageHandles rd || field d18 0 9 != 0) && field d18 24 3 != clusterOf core then -85
  else if own then 0
  else if pinned.any fun p => p.1 != core && decide ((s.ctr p.1 p.2).done < (s.ctr p.1 p.2).iss) then -86
  else if 256 < s.tdsUsed core + field d17 16 7 ∨
      (s.freeCounters core).length < ntl - (pinned.filter fun p => p.1 == core).length then -87
  else 0

/-- What reading an image comes to. -/
inductive ImageRead where
  | ok (rd : Reader)
  | code (v : Int)
  | held
  | trap (t : Trap)

/-- An image at an address read under an ASID: every page translated first, its header, then what the header names. -/
def State.readImage (s : State) (asid : Nat) (lvl : Level) (va : Word) (core : Nat) (own : Bool) : ImageRead :=
  match s.pages (clusterOf s.cur.core) asid lvl .read .data va (pagesOf va imageSize) with
  | .error (r, x) => .trap (pageFault r .read x)
  | .ok ls =>
    let rd : Reader := ⟨ls, va⟩
    match s.badRun rd [(0, 256)] with
    | some (some t) => .trap t
    | some none => .held
    | none =>
      if !(field (s.img rd 0) 0 24 == 0x015843) then .code (-82)
      else
        match s.badRun rd (s.usedRuns rd) with
        | some (some t) => .trap t
        | some none => .held
        | none =>
          let v := s.imageCode rd core lvl own
          if v = 0 then .ok rd else .code v

/-! ### sret (R321) -/

/-- A context fault (R305 cause 33). -/
def contextFault (info : Nat) : Trap := { cause := 33, info := info }

/-- The address of the image that `sret` returns to. -/
def Strand.frameImage (t : Strand) : Word := t.xtf - 0x100000#64

/-- The strand that acts as its image has it (R309, R321): handles, records, identifiers and counters stay. -/
def State.reload (s : State) (rd : Reader) : State :=
  let core := s.cur.core
  let slot := s.cur.slot
  let s1 := s.releaseLanes core slot
  let t := s1.imgStrand rd { s1.me with xtf := s1.me.frameImage, xdepth := s1.me.xdepth - 1, kept := s1.me.kept.tail }
  let s2 := s1.setMe t
  if t.vec.isSome then s2.joinLanes core slot else s2

/-- `sret` (R321). The image lies under ASID 0, as delivery wrote it. -/
def planSret : Plan where
  lvl := .s
  cls := .c
  mem := true
  check := fun s => require (s.me.xdepth != 0) (contextFault 1)
  fire := fun s older e =>
    if !s.oldest older then (s, e)
    else
      match s.readImage 0 s.me.lvl s.me.frameImage s.cur.core true with
      | .ok _ => (s, { e with done := true, pend := [], res := s.cur.succ })
      | .code v => (s, { e with flt := some (contextFault (-v).toNat) })
      | .held => (s, { e with held := true })
      | .trap t => (s, { e with flt := some t })
  ending := .sret

/-- The image that `sret` has found good is loaded as it retires. -/
def State.returnNow (s : State) : State :=
  match s.readImage 0 s.me.lvl s.me.frameImage s.cur.core true with
  | .ok rd => s.reload rd
  | .code _ => s
  | .held => s
  | .trap _ => s

/-! ### ctx.save, ctx.load (R322) -/

/-- A target word names a core in service and a slot (−81). -/
def State.targetOk (s : State) (w : Word) : Bool :=
  field w 9 7 == 0 && field w 19 45 == 0 && !s.outCores.contains (field w 0 9)

/-- The image address with its low 12 bits taken as zero (log 32). -/
def imageAddr (va : Word) : Word := va &&& ~~~0xFFF#64

/-- The counters of a strand that leaves its slot by `ctx.save`: those with commands in flight stay pinned for it. -/
def State.saveCounters (s : State) (core slot : Nat) (t : Strand) : State :=
  let w := t.work.getD ⟨0, 2 ^ 64 - 1, 0, 0, 0⟩
  (t.tl.mapIdx fun n c => (n, c)).foldl (fun st p =>
    let k := st.ctr core p.2
    let k1 : Ctr :=
      if k.done < k.iss then { k with used := false, mine := some (slot, p.1, w.launch, w.linear) }
      else if k.pins = 0 then Ctr.free
      else { k with used := false }
    st.setCtr core p.2 k1) s

/-- A strand as `ctx.save` stops it (R318, R319): a trap that it was about to take is recorded as pending. -/
def Strand.stoppedForSave (t : Strand) : Strand :=
  match t.pend, t.verdict with
  | none, .deliver c f =>
    if f.after then t else { t.record f c.base with pend := some f }
  | _, _ => t

/-- The strand taken out of its slot once its image is written: lanes, slot, identifiers and counters go back. -/
def State.vacate (s : State) (core slot : Nat) (t : Strand) : State :=
  ((((s.leaveBanks core slot).releaseLanes core slot).saveCounters core slot t).freeSlot core slot).placerDue

/-- The links of the strand that acts, broken: it executes `ctx.save` or `ctx.load` (R297). -/
def State.breakLinks (s : State) : State := s.setMe { s.me with links := s.me.links.map fun l => { l with broken := true } }

/-- `ctx.save` (R322). -/
def planCtxSave (d a b : BitVec 6) : Plan where
  lvl := .s
  cls := .z
  mem := true
  reads := sname a ++ sname b
  writes := sname d
  fire := fun s older e =>
    let w := e.arg a
    let core := field w 0 9
    let slot := field w 16 3
    let va := imageAddr (e.arg b)
    if !s.targetOk w then answer s e d (-81)
    else if core = s.cur.core ∧ slot = s.cur.slot then answer s e d (-88)
    else
      match s.strandAt core slot with
      | none => answer s e d (-80)
      | some t =>
        if t.lvl = .m then answer s e d (-88)
        else
          match s.pages (clusterOf s.cur.core) s.me.asid s.me.lvl .write .data va (pagesOf va imageSize) with
          | .error (r, x) => (s, { e with flt := some (pageFault r .write x) })
          | .ok _ =>
            if !allDone older then (s, e)
            else if s.awaited core slot t || t.delivering || t.checking then (s, { e with held := true })
            else
              let t1 := t.stoppedForSave
              match s.imageLines (clusterOf s.cur.core) s.me.asid va (s.image core slot t1) with
              | .error (r, x) => (s, { e with flt := some (pageFault r .write x) })
              | .ok ls =>
                if ls.any fun l => s.stalled l.1 then (s, { e with held := true })
                else
                  let s1 := s.askPeers 1 .i8 false (ls.filterMap fun l => l.1.peerElt l.2.length none 0 0)
                  match s.linesRefused ls with
                  | some x => (s1, { e with flt := some x })
                  | none => answer ((s1.putImage t1 ls).breakLinks.vacate core slot t1) e d 0

/-- XDEPTH of a saved strand: the image keeps XTF, which stands that many frames above the strand's area (R310; log 33). -/
def State.depthOf (s : State) (xtf : Word) : Nat := (xtf - s.xtfb).toNat % 2 ^ 24 / 2 ^ 20

/-- Counters for the names of an image (R262, R322): those pinned for it, else free ones with both values as saved and
every command completed. -/
def State.loadCounters (s : State) (rd : Reader) (core : Nat) : (names : List Nat) → State × List Nat
  | [] => (s, [])
  | n :: rest =>
    let iss := (s.img rd (0x280 + 16 * n)).toNat
    let pinned := s.pinnedFor rd n
    match pinned with
    | some (c, i) =>
      if c = core then
        let (s1, l) := (s.setCtr core i { s.ctr core i with used := true, mine := none }).loadCounters rd core rest
        (s1, i :: l)
      else
        let f := (s.freeCounters core).headD 0
        let (s1, l) := (s.setCtr core f ⟨iss, iss, true, 0, none⟩).loadCounters rd core rest
        (s1, f :: l)
    | none =>
      let f := (s.freeCounters core).headD 0
      let (s1, l) := (s.setCtr core f ⟨iss, iss, true, 0, none⟩).loadCounters rd core rest
      (s1, f :: l)

/-- The work item of an image (R313). -/
def State.imageWork (s : State) (rd : Reader) : Option WorkItem :=
  if field (s.img rd 0) 48 1 = 0 then none
  else
    let id := (s.img rd 0x70).toNat
    let n := (s.img rd 0x78).toNat
    let wid := (Tab.find s.launches id).elim 0 fun l => packWid l.fields (fieldValues l.fields n)
    some ⟨id, n, BitVec.ofNat 64 wid, field (s.img rd 0x90) 16 8, field (s.img rd 0x90) 0 9⟩

/-- A strand placed in a free slot from an image (R322): its identifiers, records, handles and counters come from it. -/
def State.placeImage (s : State) (rd : Reader) (core slot : Nat) : State :=
  let d17 := s.img rd 0x88
  let (s1, tl) := s.loadCounters rd core (List.range (field d17 23 5))
  let xtf := s.img rd 0x68
  let base : Strand := { Strand.start 0 with
    h := tabOf 0 16 fun i => s.handleWord (clusterOf core) (s.img rd (0x180 + 8 * i))
    kept := (s.besideOf rd).kept
    fmt := tabOf 0 16 fun i => s.img rd (0x200 + 8 * i)
    td := tabOf 0 (field d17 16 7) fun i => BitVec.ofNat 512 (s.imgNat rd (0x1000 + 64 * i) 64)
    ntd := field d17 16 7
    tl := tl
    startStamp := s.cycle
    lastReady := s.cycle
    xtf := xtf
    xdepth := s.depthOf xtf
    work := s.imageWork rd }
  let t := s.imgStrand rd base
  let s2 := s1.setStrand core slot t
  let s3 := match t.work with
    | none => s2
    | some w => s2.mapItem w.launch w.linear fun i => { i with cluster := clusterOf core }
  if t.vec.isSome then s3.joinLanes core slot else s3

/-- The core must be scrubbed before an image is placed on it (R232, R322). -/
def State.scrubFor (s : State) (rd : Reader) (core : Nat) : Option Nat :=
  let h0 := s.img rd 0
  match Tab.find s.asids (field h0 34 8) with
  | none => none
  | some a => if field h0 24 2 = 0 ∧ (s.core core).owner ≠ some a.owner then some a.owner else none

/-- `ctx.load` (R322). -/
def planCtxLoad (d a b : BitVec 6) : Plan where
  lvl := .s
  cls := .z
  mem := true
  reads := sname a ++ sname b
  writes := sname d
  fire := fun s older e =>
    let w := e.arg a
    let core := field w 0 9
    let slot := field w 16 3
    if !s.targetOk w then answer s e d (-81)
    else if !(s.freeSlots core).contains slot then answer s e d (-80)
    else if !allDone older then (s, e)
    else
      match s.readImage s.me.asid s.me.lvl (imageAddr (e.arg b)) core false with
      | .code v => answer s e d v
      | .held => (s, { e with held := true })
      | .trap t => (s, { e with flt := some t })
      | .ok rd =>
        match s.scrubFor rd core with
        | none => answer (s.placeImage rd core slot).breakLinks e d 0
        | some owner =>
          if (s.core core).holder.isSome || (s.core core).scrub || s.keptFor core owner then (s, { e with held := true })
          else answer ((s.scrub core owner).placeImage rd core slot).breakLinks e d 0

/-! ### erec.rd (R331) -/

/-- `erec.rd` (R331). -/
def planErecRd (d a : BitVec 6) (k : BitVec 3) : Plan where
  reads := sname a
  writes := sname d
  lvl := .s
  fire := Plan.scalar d fun s =>
    let q := s.val a
    if q = 0xFFFFFFFFFFFFFFFF#64 then BitVec.ofNat 64 s.erecSeq
    else
      match Tab.find s.erecs q.toNat with
      | none => 0
      | some r => r.getD k.toNat 0

end Sys2Proof.Machine
end

