-- ==== Sys2Proof/Machine/Control.lean ====
section
/-!
DEFINITION. Control transfers, frames and the backing store (05, R92–R97; 06, R101–R107), `mwait` (R98) and
the hints (R52, R97, R261).
-/

namespace Sys2Proof.Machine

/-! ### Direct branches (R95) -/

def planB (off : BitVec 20) : Plan := branch [] off fun _ => true
def planBeq (a b : BitVec 6) (off : BitVec 20) : Plan :=
  branch (sname a ++ sname b) off fun s => s.val a == s.val b
def planBne (a b : BitVec 6) (off : BitVec 20) : Plan :=
  branch (sname a ++ sname b) off fun s => s.val a != s.val b
def planBlt (a b : BitVec 6) (off : BitVec 20) : Plan :=
  branch (sname a ++ sname b) off fun s => decide ((s.val a).toInt < (s.val b).toInt)
def planBge (a b : BitVec 6) (off : BitVec 20) : Plan :=
  branch (sname a ++ sname b) off fun s => decide ((s.val b).toInt ≤ (s.val a).toInt)
def planBltn (a b : BitVec 6) (off : BitVec 20) : Plan :=
  branch (sname a ++ sname b) off fun s => decide ((s.val a).toNat < (s.val b).toNat)
def planBgen (a b : BitVec 6) (off : BitVec 20) : Plan :=
  branch (sname a ++ sname b) off fun s => decide ((s.val b).toNat ≤ (s.val a).toNat)
def planBz (a : BitVec 6) (off : BitVec 20) : Plan := branch (sname a) off fun s => s.val a == 0
def planBnz (a : BitVec 6) (off : BitVec 20) : Plan := branch (sname a) off fun s => s.val a != 0

/-! ### Transfers with links (R93, R94, R96) -/

/-- A control-flow fault (R305 cause 5). -/
def controlFault (info : Nat) : Trap := { cause := 5, info := info }

/-- A strand with a link pending that it leaves itself (R94): a link that stood when its handler began is gone. -/
def Strand.withLink (t : Strand) (l : Word) : Strand := { t with r := { t.r with plink := some l }, kept := t.kept.set 0 false }

/-- The transfer to an address: whether the landing check applies there, and the pending link it leaves. -/
def transfer (s : State) (e : Entry) (target : Word) (landing : Bool) (plink : Option Word) : State × Entry :=
  let t := plink.elim s.me s.me.withLink
  (s.setMe { t with landing := landing, xfer := s.cur.base }, { e with done := true, pend := [], res := target })

def planJmp (a : BitVec 6) : Plan where
  cls := .c
  reads := sname a
  fire := fun s _ e =>
    let t := s.val a
    if t.toNat % 8 ≠ 0 then (s, { e with flt := some (controlFault 3) }) else transfer s e t true none

def planCalli (a : BitVec 6) : Plan where
  cls := .c
  reads := sname a
  fire := fun s _ e =>
    let t := s.val a
    if t.toNat % 8 ≠ 0 then (s, { e with flt := some (controlFault 3) })
    else transfer s e t true (some s.cur.succ)

def planCall (off : BitVec 20) : Plan where
  cls := .c
  fire := fun s _ e => transfer s e (s.cur.base + (imm20 off <<< 3)) false (some (s.cur.succ ||| 1#64))

/-! ### The backing store (R102–R105) -/

/-- The lowest resident physical register (R102). -/
def Scalars.lowest (r : Scalars) : Nat := (r.fb + 32 + 256 - r.nres) % 256

/-- A frame that is spilled: the address of its record (R103), its lowest physical register, its size. -/
abbrev Record := Word × Nat × Nat

/-- The spills that a `frame n` makes, oldest frame first (R106), or the overflow trap of R105. -/
def Scalars.spill (n : Nat) : (fuel : Nat) → Scalars → Except Trap (Scalars × List Record)
  | 0, r => .ok (r, [])
  | fuel + 1, r =>
    let low := r.lowest
    let m := Tab.get 0 r.sizes low
    if r.nres + n ≤ 256 || m = 0 then .ok (r, [])
    else
      let size := 8 * (m + 1)
      if r.bslim.toNat < r.bsp.toNat + size then .error { cause := 21 }
      else
        let rest := { r with
          bsp := r.bsp + BitVec.ofNat 64 size, nres := r.nres - m, sizes := Tab.del r.sizes low }
        match Scalars.spill n fuel rest with
        | .error t => .error t
        | .ok (r2, more) => .ok (r2, (r.bsp, low, m) :: more)

/-- The physical register of s31 in the frame that a `frame n` opens. -/
def Scalars.linkNo (r : Scalars) (n : Nat) : Nat := (r.fb + n + 31) % 256

/-- The window slid to the callee's frame, the pending link in its s31 (R106). -/
def Scalars.open (r : Scalars) (n : Nat) : Scalars :=
  let fb := (r.fb + n) % 256
  let r1 := { r with
    fb := fb, fsz := n, nres := r.nres + n, plink := none
    sizes := Tab.put r.sizes ((fb + 32 - n) % 256) n }
  r1.put 31 (r.plink.getD 0)

/-- The trap of a backing-store page (R105). -/
def backingFault (reason : Nat) (va : Word) : Trap := { cause := 23, info := reason, addr := va }

/-- One dword of a spill that has still to be written: its address, its value, and one more than the physical register
that holds the value yet, 0 where `value` is it. -/
structure Cell where
  addr  : Word
  value : Word
  phys  : Nat

/-- The dwords of a record (R103): its registers, read where they stand but for `taken`, and its header. -/
def Scalars.cells (r : Scalars) (taken : Nat) (x : Record) : List Cell :=
  ((List.range x.2.2).map fun i =>
    let p := (x.2.1 + i) % 256
    ⟨x.1 + BitVec.ofNat 64 (8 * i), if p = taken then Tab.get 0 r.phys p else 0, if p = taken then 0 else p + 1⟩) ++
    [⟨x.1 + BitVec.ofNat 64 (8 * x.2.2), BitVec.ofNat 64 (x.2.2 + 0xA500), 0⟩]

/-- The same for what an element's checks, or another device, give (log 133). -/
def backingTrap (va : Word) (t : Trap) : Trap := { backingFault (t.info % 256) va with xinfo := t.xinfo }

/-- The places of a list of dwords that are to be written, their pages translated before, or the first that fails
(R105). -/
def State.backingPlaces (s : State) (m : Pages) : List Word → Except Trap (List Place)
  | [] => .ok []
  | va :: rest =>
    match s.checkIn m .write va 8 with
    | .error t => .error (backingTrap va t)
    | .ok p =>
      match s.backingPlaces m rest with
      | .error e => .error e
      | .ok ps => .ok (p :: ps)

/-- The cells of a spill as plain numbers, for the entry to hold until they are written. -/
def packCells (cs : List Cell) : List Nat := cs.flatMap fun c => [c.addr.toNat, c.value.toNat, c.phys]

/-- The same read back. -/
def unpackCells : List Nat → List Cell
  | a :: v :: p :: rest => ⟨BitVec.ofNat 64 a, BitVec.ofNat 64 v, p⟩ :: unpackCells rest
  | _ => []

/-- What a cell holds, once every older instruction has completed. -/
def Cell.now (r : Scalars) (c : Cell) : Word := if c.phys = 0 then c.value else Tab.get 0 r.phys (c.phys - 1)

/-- The registers that a pending spill has still to read (R105). -/
def spillNames (cs : List Cell) : List Name := cs.filterMap fun c => if c.phys = 0 then none else some (.spill (c.phys - 1))

/-- A `frame` complete: `aux` keeps the register and the link that it wrote, for the images of its convoy (R312). -/
def framed (link : List Nat) (e : Entry) : Entry := { e with done := true, pend := [], aux := link }

/-- The first dword of a spill that its home turns away (R105, R253). -/
def State.spillRefused (s : State) (ps : List (Place × Cell)) : Option Trap :=
  ps.findSome? fun x =>
    match s.homeVerdict .write (.ok x.1) 8 with
    | .error t => some (backingTrap x.2.addr t)
    | .ok _ => none

/-- The writes of a spill, one event once every older instruction has completed (R105, R276). `aux` holds the new frame's
link and then the cells. -/
def spillNow (s : State) (older : List Entry) (e : Entry) : State × Entry :=
  let cs := unpackCells (e.aux.drop 2)
  let m := s.pagesOn e .write .data (cs.map Cell.addr)
  let waiting := { e with pend := spillNames cs, pages := m }
  match s.backingPlaces m (cs.map Cell.addr) with
  | .error t => (s, { waiting with flt := some t })
  | .ok ps =>
    if !allDone older then (s, waiting)
    else if ps.any s.stalled then (s, { waiting with held := true })
    else
      match s.spillRefused (ps.zip cs) with
      | some t => (s, { waiting with flt := some t })
      | none =>
        (s.writeAll ((ps.zip cs).map fun p => (p.1, toBytes 8 (p.2.now s.me.r).toNat)), framed (e.aux.take 2) e)

/-- Refills of the strand that are pending (R105). -/
def Strand.refills (t : Strand) : Nat := ((t.flight.flatMap Convoy.entries).filter fun e => isRet e.word && !e.done).length

/-- Whether a `frame n` spills may depend on the sizes that pending refills have still to read, each of at most 63
registers (R106, R107). -/
def Strand.spillOpen (t : Strand) (n : Nat) : Bool := t.refills != 0 && decide (256 < t.r.nres + n + 63 * t.refills)

/-- `frame n` (R94, R106). The window slides as it issues; a spill may have to wait for older accesses, and `aux` then
holds it (R105). It waits itself only for the register that its link goes to, and for NRES where that decides what it
spills. -/
def planFrame (n : BitVec 6) : Plan where
  cls := .z
  frame := true
  mem := true
  waits := fun s =>
    let p := s.me.r.linkNo n.toNat
    if s.me.pending.contains (.p p) || s.me.pending.contains (.spill p) || s.me.spillOpen n.toNat then [2] else []
  check := fun s =>
    firstTrap [require s.me.r.plink.isSome (controlFault 5), require (n.toNat != 0) (controlFault 6)]
  fire := fun s older e =>
    match e.aux with
    | _ :: _ => spillNow s older e
    | [] =>
      let r0 := s.me.r
      match r0.spill n.toNat 256 with
      | .error t => (s, { e with flt := some t })
      | .ok (r, rs) =>
        let p := r0.linkNo n.toNat
        let cs := rs.flatMap (r0.cells p)
        let m := s.pagesOn e .write .data (cs.map Cell.addr)
        match s.backingPlaces m (cs.map Cell.addr) with
        | .error t => (s, { e with flt := some t })
        | .ok _ =>
          let link := [p, (r0.plink.getD 0).toNat]
          let s1 := s.setR (r.open n.toNat)
          if rs.isEmpty then (s1, framed link e) else spillNow s1 older { e with aux := link ++ packCells cs, pages := m }

/-- The size of the frame whose window is current (R102): the resident frame that ends at the window's top. -/
def Scalars.currentSize (r : Scalars) : Nat :=
  ((r.sizes.find? fun p => (p.1 + p.2) % 256 == (r.fb + 32) % 256).map Prod.snd).getD 32

/-- What the refills of a `ret` read: each record's address and size, newest first, and the pages translated for them. -/
structure Records where
  list  : List (Word × Nat)
  pages : Pages

/-- The records that a `ret` refills (R105, R107), from a BSP down, while fewer than 32 registers are resident: the limits
and the headers are checked, and every page is translated, before a register is read. A header is read before the record
below it is known (log 134). An error without a trap is a hold. -/
def State.findRecords (s : State) (older : List Entry) (e : Entry) (bslo : Word) :
    (fuel : Nat) → (nres : Nat) → (bsp : Word) → Pages → Except (Option Trap) Records
  | 0, _, _, m => .ok ⟨[], m⟩
  | fuel + 1, nres, bsp, m =>
    if 32 ≤ nres then .ok ⟨[], m⟩
    else if bsp.toNat < bslo.toNat + 16 then .error (some { cause := 22 })
    else
      let at_ := bsp - 8#64
      let m1 := s.pagesOn { e with pages := m } .read .data [at_]
      match s.loadIn s.me older m1 .read at_ 8 with
      | .held => .error none
      | .fail t => .error (some (backingTrap at_ t))
      | .bad p => .error (some (memoryError 6 at_ p))
      | .val h =>
        let n := h % 64
        if h / 256 % 256 ≠ 0xA5 ∨ n = 0 ∨ 32 < n ∨ bsp.toNat < bslo.toNat + 8 * (n + 1) then .error (some { cause := 22 })
        else
          let base := bsp - BitVec.ofNat 64 (8 * (n + 1))
          let vas := (List.range n).map fun i => base + BitVec.ofNat 64 (8 * i)
          let m2 := s.pagesOn { e with pages := m1 } .read .data vas
          match vas.findSome? fun va => match s.checkIn m2 .read va 8 with
            | .error t => some (backingTrap va t)
            | .ok _ => none with
          | some t => .error (some t)
          | none =>
            match s.findRecords older e bslo fuel (nres + n) base m2 with
            | .error x => .error x
            | .ok r => .ok ⟨(base, n) :: r.list, r.pages⟩

/-- The addresses of the registers of a record (R103). -/
def recordWords (x : Word × Nat) : List Word := (List.range x.2).map fun i => x.1 + BitVec.ofNat 64 (8 * i)

/-- The dwords of some records, in order, all of one event: the first that does not come decides. -/
def State.readRecords (s : State) (older : List Entry) (m : Pages) : List Word → Except (Option Trap) (List Word)
  | [] => .ok []
  | va :: rest =>
    match s.loadIn s.me older m .read va 8 with
    | .held => .error none
    | .fail t => .error (some (backingTrap va t))
    | .bad p => .error (some (memoryError 6 va p))
    | .val v =>
      match s.readRecords older m rest with
      | .error x => .error x
      | .ok vs => .ok (BitVec.ofNat 64 v :: vs)

/-- The registers that records fill, by number and value, below a lowest resident one: newest record first (R107). -/
def fillNumbers : List (Word × Nat) → (low : Nat) → List Word → List Nat
  | [], _, _ => []
  | (_, n) :: rest, low, vs =>
    let l := (low + 256 - n) % 256
    ((vs.take n).mapIdx fun i v => [(l + i) % 256, v.toNat]).flatten ++ fillNumbers rest l (vs.drop n)

/-- The sizes of the frames that records bring back, by lowest register. -/
def fillSizes : List (Word × Nat) → (low : Nat) → Tab Nat → Tab Nat
  | [], _, t => t
  | (_, n) :: rest, low, t =>
    let l := (low + 256 - n) % 256
    fillSizes rest l (Tab.put t l n)

/-- The window slid back to the caller's frame, before its refills (R107). -/
def Scalars.closeFrame (r : Scalars) : Scalars :=
  { r with
    nres := r.nres - r.fsz, fb := (r.fb + 256 - r.fsz) % 256
    sizes := Tab.del r.sizes ((r.fb + 32 + 256 - r.fsz) % 256) }

/-- How many registers are resident below the top of a window at `fb`: frames opened since lie above it. -/
def Scalars.residentAt (r : Scalars) (fb : Nat) : Nat := (fb + 32 + 256 - r.lowest) % 256

/-- The registers of a window that are not resident yet, which a pending refill has to write, and what else it settles
(R105, R107). -/
def absentNames (fb nres : Nat) : List Name :=
  (if nres = 0 then [.fsz] else []) ++ .frst :: (List.range (32 - nres)).map fun i => .p ((fb + i) % 256)

/-- The refill of a `ret`, one event that takes its place in program order as a load does (R105): `aux` holds the caller's
FB, and afterwards the registers that were read. -/
def refillNow (s : State) (older : List Entry) (e : Entry) : State × Entry :=
  let r := s.me.r
  let fb := e.aux.headD r.fb
  let nres := r.residentAt fb
  let waiting := { e with pend := absentNames fb nres }
  if !allBegun older then (s, waiting)
  else
    match s.findRecords older e r.bslo 32 nres r.bsp e.pages with
    | .error none => (s, { waiting with held := true })
    | .error (some t) => (s, { waiting with flt := some t })
    | .ok x =>
      let words := x.list.flatMap recordWords
      match s.readRecords older x.pages words with
      | .error none => (s, { waiting with held := true, pages := x.pages })
      | .error (some t) => (s, { waiting with flt := some t, pages := x.pages })
      | .ok vs =>
        let l := fillNumbers x.list r.lowest vs
        let r1 := { r with
          phys := writePhys l r.phys, bsp := ((x.list.getLast?).map Prod.fst).getD r.bsp
          nres := r.nres + words.length, sizes := fillSizes x.list r.lowest r.sizes }
        let headers := x.list.map fun y => y.1 + BitVec.ofNat 64 (8 * y.2)
        ((s.noteIn s.me older x.pages .read ((words ++ headers).map fun va => (va, 8))).setR { r1 with fsz := r1.currentSize },
          { e with done := true, pend := [], aux := l })

/-- `ret` (R96, R107): the window slides and the transfer is made as it issues; only its refill may wait (R105). -/
def planRet : Plan where
  cls := .c
  mem := true
  reads := [.s 31, .fsz]
  fire := fun s older e =>
    if e.res != 0 then refillNow s older e
    else
      let k := s.val 31#6
      if field k 1 2 ≠ 0 ∨ k.toNat / 8 = 0 then (s, { e with flt := some (controlFault 4) })
      else
        let r := s.me.r.closeFrame
        let (s1, e1) := transfer (s.setR r) e (k &&& ~~~7#64) (!k.getLsbD 0) none
        let s2 := s1.setR { r with fsz := r.currentSize }
        if 32 ≤ r.nres then (s2, e1) else refillNow s2 older { e1 with done := false, aux := [r.fb] }

/-! ### `mwait` (R98) -/

/-- The wait over: sd takes the value. -/
def mwaitDone (s : State) (e : Entry) (d : BitVec 6) (v : Nat) : State × Entry :=
  let s := s.setVal d (BitVec.ofNat 64 v)
  (s.setMe { s.me with monitor := none }, { e with done := true, pend := [], res := BitVec.ofNat 64 v })

/-- Whether an armed wait has ended (R98 events 1 to 3): a write to the block, the limit, or the loss of the
monitor at the device's choice (log 11). -/
def mwaitEnds (s : State) (m : Nat × Nat × Bool) (limit : Nat) : Bool :=
  m.2.2 || (limit != 0 && decide (limit ≤ s.cycle - m.2.1)) || Config.takes s.choice m.1

/-- `mwait` (R98). `aux` is nonempty once this entry has armed the strand's monitor. -/
def planMwait (d a b c : BitVec 6) : Plan where
  mem := true
  reads := sname a ++ sname b ++ sname c
  writes := sname d
  fire := fun s older e =>
    let t := s.me
    let va := e.arg a
    let waiting := match t.monitor with
      | none => false
      | some m => e.aux.isEmpty || !mwaitEnds s m (e.arg c).toNat
    if waiting || !allBegun older then (s, e)
    else
      match s.checkElt t s.cur.core .read .mwait va 8 with
      | .error f => (s, { e with flt := some f })
      | .ok p =>
        if s.tideHeld t va 8 || s.stalled p then (s, { e with held := true })
        else if s.behind older p 8 then (s, e)
        else if s.poisoned p then (s, { e with flt := some (memoryError 6 va p) })
        else
          let x := s.readNat p 8
          if t.monitor.isSome || x ≠ (e.arg b).toNat then mwaitDone s e d x
          else (s.setMe { t with monitor := some (p.block.getD 0, s.cycle, false) }, { e with aux := [1] })

/-! ### Hints (R52, R97, R261) -/

/-- `nop` does nothing (R97). -/
def planNop : Plan where
  fire := Plan.now id

/-- `yield` changes only the choice of strand, which the step makes (R86, R97). -/
def planYield_ : Plan where
  fire := Plan.now id

/-- A word of the hint space with no assigned function executes as `nop` (R52). -/
def planHintNop (_fn _d _a _b : BitVec 6) (_v : VCtl) (_rm : Rm) (_x : BitVec 20) : Plan where
  fire := Plan.now id

/-- `pf` has no effect but on timing (R261). -/
def planPf (a : BitVec 6) (_disp : BitVec 9) : Plan where
  cls := .m
  mem := false
  reads := sname a
  fire := Plan.now id

/-- `pf.w` has no effect but on timing (R261). -/
def planPfW (a : BitVec 6) (_disp : BitVec 9) : Plan where
  cls := .m
  mem := false
  reads := sname a
  fire := Plan.now id

end Sys2Proof.Machine
end

