-- ==== Sys2Proof/Machine/Scalar.lean ====
section
/-!
DEFINITION. The scalar instructions (06, R113–R124) and their compact slots (R44): each instruction's plan
over the shared operations of Operands and Flags.
-/

namespace Sys2Proof.Machine

/-! ### The arithmetic and logic group (R113, R114) -/

def planAdd (d a b : BitVec 6) : Plan := binary d a b aluAdd
def planSub (d a b : BitVec 6) : Plan := binary d a b aluSub
def planMul (d a b : BitVec 6) : Plan := binary d a b aluMul
def planMulh (d a b : BitVec 6) : Plan := binary d a b aluMulh
def planMulhn (d a b : BitVec 6) : Plan := binary d a b aluMulhn
def planSAnd (d a b : BitVec 6) : Plan := binary d a b aluAnd
def planSOr (d a b : BitVec 6) : Plan := binary d a b aluOr
def planSXor (d a b : BitVec 6) : Plan := binary d a b aluXor
def planAndn (d a b : BitVec 6) : Plan := binary d a b aluAndn
def planShl (d a b : BitVec 6) : Plan := binary d a b aluShl
def planShr (d a b : BitVec 6) : Plan := binary d a b aluShr
def planSra (d a b : BitVec 6) : Plan := binary d a b aluSra
def planRol (d a b : BitVec 6) : Plan := binary d a b aluRol
def planSMin (d a b : BitVec 6) : Plan := binary d a b aluMin
def planSMax (d a b : BitVec 6) : Plan := binary d a b aluMax
def planMinn (d a b : BitVec 6) : Plan := binary d a b aluMinn
def planMaxn (d a b : BitVec 6) : Plan := binary d a b aluMaxn
def planSlt (d a b : BitVec 6) : Plan := binary d a b aluSlt
def planSltn (d a b : BitVec 6) : Plan := binary d a b aluSltn

def planAddi (d a : BitVec 6) (imm : BitVec 20) : Plan := withImm d a imm aluAdd
def planSubi (d a : BitVec 6) (imm : BitVec 20) : Plan := withImm d a imm aluSub
def planMuli (d a : BitVec 6) (imm : BitVec 20) : Plan := withImm d a imm aluMul
def planMulhi (d a : BitVec 6) (imm : BitVec 20) : Plan := withImm d a imm aluMulh
def planMulhni (d a : BitVec 6) (imm : BitVec 20) : Plan := withImm d a imm aluMulhn
def planAndi (d a : BitVec 6) (imm : BitVec 20) : Plan := withImm d a imm aluAnd
def planOri (d a : BitVec 6) (imm : BitVec 20) : Plan := withImm d a imm aluOr
def planXori (d a : BitVec 6) (imm : BitVec 20) : Plan := withImm d a imm aluXor
def planAndni (d a : BitVec 6) (imm : BitVec 20) : Plan := withImm d a imm aluAndn
def planShli (d a : BitVec 6) (imm : BitVec 20) : Plan := withImm d a imm aluShl
def planShri (d a : BitVec 6) (imm : BitVec 20) : Plan := withImm d a imm aluShr
def planSrai (d a : BitVec 6) (imm : BitVec 20) : Plan := withImm d a imm aluSra
def planRoli (d a : BitVec 6) (imm : BitVec 20) : Plan := withImm d a imm aluRol
def planMini (d a : BitVec 6) (imm : BitVec 20) : Plan := withImm d a imm aluMin
def planMaxi (d a : BitVec 6) (imm : BitVec 20) : Plan := withImm d a imm aluMax
def planMinni (d a : BitVec 6) (imm : BitVec 20) : Plan := withImm d a imm aluMinn
def planMaxni (d a : BitVec 6) (imm : BitVec 20) : Plan := withImm d a imm aluMaxn
def planSlti (d a : BitVec 6) (imm : BitVec 20) : Plan := withImm d a imm aluSlt
def planSltni (d a : BitVec 6) (imm : BitVec 20) : Plan := withImm d a imm aluSltn

/-! ### Division (R115), bit counts (R116), select (R117) -/

def planDiv (d a b : BitVec 6) : Plan := binary d a b aluDiv
def planDivn (d a b : BitVec 6) : Plan := binary d a b aluDivn
def planRem (d a b : BitVec 6) : Plan := binary d a b aluRem
def planRemn (d a b : BitVec 6) : Plan := binary d a b aluRemn
def planClz (d a : BitVec 6) : Plan := unary d a aluClz
def planCtz (d a : BitVec 6) : Plan := unary d a aluCtz
def planPopc (d a : BitVec 6) : Plan := unary d a aluPopc

def planSel (d a b c : BitVec 6) : Plan where
  reads := sname a ++ sname b ++ sname c
  writes := sname d
  fire := Plan.scalar d fun s => if s.val c ≠ 0 then s.val a else s.val b

/-! ### Constants and addresses (R118, R119) -/

def planLi (d : BitVec 6) (imm : BitVec 20) : Plan where
  writes := sname d
  fire := Plan.scalar d fun _ => imm20 imm

def planLui (d : BitVec 6) (imm : BitVec 20) : Plan where
  reads := sname d
  writes := sname d
  fire := Plan.scalar d fun s => (s.val d <<< 20) ||| imm.setWidth 64

def planAdr (d : BitVec 6) (imm : BitVec 20) : Plan where
  writes := sname d
  fire := Plan.scalar d fun s => s.cur.base + imm20 imm

def planLsa (d a b : BitVec 6) (k : BitVec 2) : Plan := binary d a b fun x y => x + (y <<< k.toNat)

/-! ### Bit fields (R120) -/

def planExt (d a pos len : BitVec 6) : Plan := unary d a fun x => aluExt x pos.toNat len.toNat

def planExtS (d a pos len : BitVec 6) : Plan := unary d a fun x => aluExtS x pos.toNat len.toNat

def planIns (d a pos len : BitVec 6) : Plan where
  reads := sname d ++ sname a
  writes := sname d
  fire := Plan.scalar d fun s => aluIns (s.val d) (s.val a) pos.toNat len.toNat

/-! ### Scalar floating point (R121–R124) -/

def planFaddS (d a b : BitVec 6) (rm : Rm) : Plan :=
  floating d (sname a ++ sname b) fun s => fadd32 (modeOf rm s.me.r.fctl) (s.val a) (s.val b)

def planFsubS (d a b : BitVec 6) (rm : Rm) : Plan :=
  floating d (sname a ++ sname b) fun s => fsub32 (modeOf rm s.me.r.fctl) (s.val a) (s.val b)

def planFmulS (d a b : BitVec 6) (rm : Rm) : Plan :=
  floating d (sname a ++ sname b) fun s => fmul32 (modeOf rm s.me.r.fctl) (s.val a) (s.val b)

def planFdivS (d a b : BitVec 6) (rm : Rm) : Plan :=
  floating d (sname a ++ sname b) fun s => fdiv32 (modeOf rm s.me.r.fctl) (s.val a) (s.val b)

def planFfmaS (d a b : BitVec 6) (rm : Rm) (c : BitVec 6) : Plan :=
  floating d (sname a ++ sname b ++ sname c) fun s =>
    ffma32 (modeOf rm s.me.r.fctl) (s.val a) (s.val b) (s.val c)

def planFsqrtS (d a : BitVec 6) (rm : Rm) : Plan :=
  floating d (sname a) fun s => fsqrt32 (modeOf rm s.me.r.fctl) (s.val a)

def planFcmpSEq (d a b : BitVec 6) : Plan :=
  floating d (sname a ++ sname b) fun s => fcmp32 .eq (s.val a) (s.val b)

def planFcmpSLt (d a b : BitVec 6) : Plan :=
  floating d (sname a ++ sname b) fun s => fcmp32 .lt (s.val a) (s.val b)

def planFcmpSLe (d a b : BitVec 6) : Plan :=
  floating d (sname a ++ sname b) fun s => fcmp32 .le (s.val a) (s.val b)

def planFcmpSUn (d a b : BitVec 6) : Plan :=
  floating d (sname a ++ sname b) fun s => fcmp32 .un (s.val a) (s.val b)

def planFcvtSFi (d a : BitVec 6) (rm : Rm) : Plan :=
  floating d (sname a) fun s => fcvtToInt (modeOf rm s.me.r.fctl) true (s.val a)

def planFcvtSFn (d a : BitVec 6) (rm : Rm) : Plan :=
  floating d (sname a) fun s => fcvtToInt (modeOf rm s.me.r.fctl) false (s.val a)

def planFcvtSIf (d a : BitVec 6) (rm : Rm) : Plan :=
  floating d (sname a) fun s => fcvtOfInt (modeOf rm s.me.r.fctl) true (s.val a)

def planFcvtSNf (d a : BitVec 6) (rm : Rm) : Plan :=
  floating d (sname a) fun s => fcvtOfInt (modeOf rm s.me.r.fctl) false (s.val a)

/-! ### Compact scalar slots (R44) -/

/-- The `nop` slot: no operation. -/
def planNopC : Plan where
  fire := Plan.now id

def planAddC (d : BitVec 5) (o : CArg) : Plan := compact d o aluAdd
def planSubC (d : BitVec 5) (o : CArg) : Plan := compact d o aluSub
def planMulC (d : BitVec 5) (o : CArg) : Plan := compact d o aluMul
def planAndC (d : BitVec 5) (o : CArg) : Plan := compact d o aluAnd
def planOrC (d : BitVec 5) (o : CArg) : Plan := compact d o aluOr
def planXorC (d : BitVec 5) (o : CArg) : Plan := compact d o aluXor
def planAndnC (d : BitVec 5) (o : CArg) : Plan := compact d o aluAndn
def planShlC (d : BitVec 5) (o : CArg) : Plan := compact d o aluShl
def planShrC (d : BitVec 5) (o : CArg) : Plan := compact d o aluShr
def planSraC (d : BitVec 5) (o : CArg) : Plan := compact d o aluSra
def planMinC (d : BitVec 5) (o : CArg) : Plan := compact d o aluMin
def planMaxC (d : BitVec 5) (o : CArg) : Plan := compact d o aluMax
def planMinnC (d : BitVec 5) (o : CArg) : Plan := compact d o aluMinn
def planMaxnC (d : BitVec 5) (o : CArg) : Plan := compact d o aluMaxn

def planLiC (d : BitVec 5) (o : CArg) : Plan where
  writes := sname (slotReg d)
  fire := Plan.scalar (slotReg d) fun s => argVal o s

end Sys2Proof.Machine
end

