-- ==== Sys2Proof/Machine/Walker.lean ====
section
/-!
DEFINITION. The summary-tree walker (21, R349–R362): tussock records, walks, and their upkeep.
-/

namespace Sys2Proof.Machine

/-! ### Records (R349, R350) -/

/-- A tussock record as read: RADIUS, SCALE and the sums are f32 codes. -/
structure Tussock where
  va     : Word
  leaf   : Bool
  dw     : Nat
  count  : Nat
  radius : Nat
  scale  : Nat
  base   : Word
  kids   : List Word
  ksum   : List Nat
  vsum   : List Nat
deriving DecidableEq, Repr

/-- The head dimension of a record. -/
def Tussock.d (n : Tussock) : Nat := 8 * (n.dw + 1)

/-- The lines that a whole record takes. -/
def Tussock.extent (n : Tussock) : Word × Nat := (n.va, 2 + (8 * n.d + 63) / 64)

/-- Why a record cannot be used. -/
inductive Snag where
  | fault (t : Trap)
  /-- Its read met an uncorrectable error. -/
  | lost (p : Place) (va : Word)
  /-- A switching bank stalls it. -/
  | stall
deriving DecidableEq, Repr

/-- A descriptor fault on a record (R350). -/
def recordFault (va : Word) : Trap := { cause := 27, addr := va }

/-- Lines of 64 bytes from an address on, each at its place: the first that cannot be read decides. -/
def State.walkLines (s : State) (m : Pages) (va : Word) : Nat → Except Snag (List Byte)
  | 0 => .ok []
  | n + 1 =>
    match s.checkIn m .read va 1 with
    | .error f => .error (.fault f)
    | .ok p =>
      if s.stalled p then .error .stall
      else if s.poisoned p then .error (.lost p va)
      else
        match s.walkLines m (va + 64#64) n with
        | .error e => .error e
        | .ok more => .ok (s.readBytes p 64 ++ more)

/-- `64·n` bytes of a record under the strand's ASID and level; near, far and cluster scratch only (R350). Pages that the
instruction has translated stand, and the new ones join them (R226). -/
def State.walkRead (s : State) (t : Strand) (core : Nat) (m : Pages) (va : Word) (n : Nat) : Except Snag (List Byte × Pages) :=
  let m := s.pageMap (clusterOf core) t.asid t.lvl .read .link (pageAddrs va (64 * n)) m
  match m.refused .read va (64 * n) with
  | some f => .error (.fault f)
  | none => (s.walkLines m va n).map fun bs => (bs, m)

/-- The 32-bit words of a list of bytes. -/
def words32 (bs : List Byte) (n : Nat) : List Nat := (List.range n).map fun i => ofBytes ((bs.drop (4 * i)).take 4)

/-- RADIUS is negative or NaN. -/
def badRadius (code : Nat) : Bool :=
  match f32.value code with
  | .nan => true
  | .inf s => s
  | .num s m _ => s && m != 0

/-- The header of a record passes the checks of R350; `dw` is the DW that it must have. -/
def headerOk (va : Word) (h : Nat → Word) (dw : Option Nat) : Bool :=
  let h0 := h 0
  let leaf := field h0 8 1 == 1
  let nch := field h0 9 4
  va.toNat % 64 == 0 && field h0 0 8 == 0x7C && field h0 13 3 == 0 && field h0 21 11 == 0 &&
    ((List.range 5).all fun i => h (3 + i) == 0) &&
    (if leaf then nch == 0 && decide (field h0 32 32 ≤ 16) else decide (1 ≤ nch) && decide (nch ≤ 8)) &&
    ((List.range 8).all fun i => if i < nch then h (8 + i) != 0 && (h (8 + i)).toNat % 64 == 0 else h (8 + i) == 0) &&
    !badRadius (field (h 1) 0 32) && (dw.all fun x => x == field h0 16 5)

/-- A record without its sums. -/
def headerOf (va : Word) (h : Nat → Word) : Tussock where
  va := va
  leaf := field (h 0) 8 1 == 1
  dw := field (h 0) 16 5
  count := field (h 0) 32 32
  radius := field (h 1) 0 32
  scale := field (h 1) 32 32
  base := h 2
  kids := (List.range (field (h 0) 9 4)).map fun i => h (8 + i)
  ksum := []
  vsum := []

/-- The header of a record read and checked. -/
def State.header (s : State) (t : Strand) (core : Nat) (m : Pages) (va : Word) (dw : Option Nat) : Except Snag (Tussock × Pages) :=
  match s.walkRead t core m va 2 with
  | .error e => .error e
  | .ok (bs, m) => if headerOk va (dwordOf bs) dw then .ok (headerOf va (dwordOf bs), m) else .error (.fault (recordFault va))

/-- A whole record read and checked. -/
def State.tussock (s : State) (t : Strand) (core : Nat) (m : Pages) (va : Word) (dw : Option Nat) : Except Snag (Tussock × Pages) :=
  match s.header t core m va dw with
  | .error e => .error e
  | .ok (n, m) =>
    match s.walkRead t core m (va + 128#64) ((8 * n.d + 63) / 64) with
    | .error e => .error e
    | .ok (bs, m) => .ok ({ n with ksum := words32 bs n.d, vsum := words32 (bs.drop (4 * n.d)) n.d }, m)

/-! ### Arithmetic (R352, R353, R359) -/

/-- An exact sum of f32 codes' products. -/
def dot (xs : List FVal) (ys : List FVal) : FVal :=
  ((xs.zip ys).foldl (fun acc p => FVal.add false acc (FVal.mul p.1 p.2)) (.num false 0 0))

/-- ln 2 in units of 2^-256, cut off. -/
def ln2Bits : Nat := 80260960185991308862233904206310070533990667611589946606122867505419956976171

/-- 2^a for the exact difference of two f32 values: beyond 64 bits after the point, the rest of the exponent enters by
the first terms of its series, far below any rounding boundary (R353). -/
def exp2Diff (v : FVal) : FVal :=
  match v with
  | .nan => .nan
  | .inf s => exp2Val (.inf s)
  | .num s m e =>
    if -64 ≤ e ∨ m = 0 ∨ 12 ≤ (Nat.log2 m : Int) + e ∨ (Nat.log2 m : Int) + e < -40 then exp2Val v
    else
      let f := (-e).toNat
      let whole := scaled s m 0 0
      let i := whole / ((2 ^ f : Nat) : Int)
      let frac := (whole % ((2 ^ f : Nat) : Int)).toNat
      if frac = 0 then .num false 1 i
      else
        let base := exp2Frac (frac / 2 ^ (f - 64)) exp2Table 0 (2 ^ exp2Bits)
        let rest := frac % 2 ^ (f - 64)
        let t1 := base * rest * ln2Bits / 2 ^ (f + 256)
        let t2 := t1 * rest * ln2Bits / 2 ^ (f + 257)
        .num false (sticky (base + t1 + t2) true) (i - (exp2Bits : Int) - 1)

/-- √(m·2^e)/k cut off at 2^-160, with a sticky bit: no f32 boundary lies between it and the exact value. -/
def rootOver (m : Nat) (e : Int) (k : Nat) : FVal :=
  let n := m * 2 ^ (e + 320).toNat
  let r := isqrt n (Nat.log2 n / 2 + 1) 0
  .num false (sticky (r / k) (r * r != n || r % k != 0)) (-161)

/-- Σ (a·x_j − b·y_j)² for f32 codes, or none where one of them is not finite. -/
def spread (a b : Nat) (xs ys : List Nat) : Option (Nat × Int) :=
  let diff := fun (p : Nat × Nat) => FVal.add false (FVal.mul (ofInt a) (f32.value p.1)) (FVal.mul (ofInt b) (f32.value p.2)).neg
  match (xs.zip ys).foldl (fun acc p => FVal.add false acc (FVal.mul (diff p) (diff p))) (.num false 0 0) with
  | .num _ m e => some (m, e)
  | .nan => none
  | .inf _ => none

/-- A non-negative value rounded up to f32. -/
def rup32 (v : FVal) : Nat := (f32.round .rup false v).code

/-- The larger of two non-negative f32 codes. -/
def larger (x y : Nat) : Nat := if FVal.cmp (f32.value x) (f32.value y) == some .lt then y else x

/-! ### The walk (R351–R354) -/

/-- What a walk has gathered: the summary (m, l, o) once there is one, the positions newest first, and their count. -/
structure Walk where
  sum   : Option (Nat × Nat × List Nat)
  pos   : List Nat
  count : Nat
  /-- The records read, and the pages translated for them. -/
  seen  : List (Word × Nat)
  pages : Pages
deriving DecidableEq, Repr

/-- The walk's settings: query, its norm, SCALE, OTAU, OFLOOR, ODEPTH, DW, the `.x` form, and n. -/
structure Quest where
  q      : List FVal
  nq     : FVal
  scale  : FVal
  otau   : Nat
  ofloor : Nat
  odepth : Nat
  dw     : Nat
  x      : Bool
  n      : Nat

/-- A record summarized (R353). -/
def Walk.summarize (w : Walk) (t : Tussock) (z : Nat) : Walk :=
  let c := ofInt t.count
  match w.sum with
  | none => { w with sum := some (z, rne32 c, t.vsum.map fun v => rne32 (f32.value v)) }
  | some (m, l, o) =>
    let m2 := match FVal.cmp (f32.value m) (f32.value z) with
      | none => f32.nanCode
      | some .lt => z
      | _ => m
    let less := fun (x : Nat) => f32.value (rne32 (exp2Diff (FVal.add false (f32.value x) (f32.value m2).neg)))
    let f := less m
    let g := less z
    let merge := fun (a b : FVal) => rne32 (FVal.add false (FVal.mul a f) (FVal.mul b g))
    { w with sum := some (m2, merge (f32.value l) c, (o.zip t.vsum).map fun p => merge (f32.value p.1) (f32.value p.2)) }

/-- A leaf's positions emitted (R354). -/
def Walk.emit (w : Walk) (k : Quest) (t : Tussock) : Walk :=
  let ps := if k.x then (List.range t.count).map fun j => (t.base.toNat + j) % 2 ^ 32 else [t.base.toNat % 2 ^ 32]
  { w with pos := (ps.take (k.n - w.count)).reverse ++ w.pos, count := w.count + ps.length }

/-- A record's logit z, its bound b and the upper bound u (R352). -/
def logits (k : Quest) (t : Tussock) : Nat × Nat × Nat :=
  let z := rne32 (FVal.div (FVal.mul (f32.value (rne32 (dot k.q (t.ksum.map f32.value)))) k.scale) (ofInt t.count))
  let b := rne32 (FVal.mul (FVal.mul k.nq (f32.value t.radius)) k.scale)
  (z, b, rne32 (FVal.add false (f32.value z) (f32.value b)))

/-- A visit to the record at an address (R352): `fuel` is 16 less its depth. -/
def State.visit (s : State) (t : Strand) (core : Nat) (k : Quest) : (fuel : Nat) → Word → Except Snag Walk → Except Snag Walk
  | _, _, .error e => .error e
  | 0, va, .ok _ => .error (.fault (recordFault va))
  | fuel + 1, va, .ok w =>
    match s.tussock t core w.pages va (some k.dw) with
    | .error e => .error e
    | .ok (n, m) =>
      let w := { w with seen := n.extent :: w.seen, pages := m }
      if n.count = 0 then .ok w
      else
        let (z, b, u) := logits k n
        let near := FVal.cmp (f32.value u) (f32.value k.ofloor) == some .lt ||
          (match FVal.cmp (f32.value b) (f32.value k.otau) with
            | some .lt => true
            | some .eq => true
            | _ => false)
        if k.odepth ≤ 15 - fuel ∧ near then .ok (w.summarize n z)
        else if n.leaf then .ok (w.emit k n)
        else n.kids.foldl (fun acc va => s.visit t core k fuel va acc) (.ok w)

/-- The memory-error trap of a walker instruction (R357, R359). -/
def lostRecord (info : Nat) (p : Place) (va : Word) : Trap := memoryError info va p

/-- A walk's results written (R356): positions, summary and count, or POISON in their place; the tails follow. -/
def walkWrite (s : State) (older : List Entry) (e : Entry) (vd vo d : Nat) (w : Option Walk) : Entry :=
  let sum := (w.bind Walk.sum).getD (0xFF800000, 0, List.replicate d 0)
  let ps := ((w.map Walk.pos).getD []).reverse
  let value := fun (ok : Nat) => match w with
    | none => Fired.quiet
    | some _ => .val ok
  let e1 := ({ e with done := true } : Entry).passV vd 32 fun i =>
    if e.n ≤ i then .copy ((s.srcV older vd).get 32 i) else value (ps.getD i 0)
  e1.passV vo 32 fun j =>
    if d + 2 ≤ j then .copy ((s.srcV older vo).get 32 j)
    else value (if j < d then sum.2.2.getD j 0 else if j = d then sum.1 else sum.2.1)

/-- The lines of records, each record by its address and the number of its lines. -/
def recordLines (ns : List (Word × Nat)) : List (Word × Nat) :=
  ns.flatMap fun n => (List.range n.2).map fun i => (n.1 + BitVec.ofNat 64 (64 * i), 64)

/-- The far lines of records that have been read stay cached (R238, R283). -/
def State.noteRecords (s : State) (m : Pages) (ns : List (Word × Nat)) : State :=
  s.noteReads ((recordLines ns).map fun x => (s.spotIn m x.1, x.2))

/-- A word of the three instructions that the walker serves: op 0x78 fn 0 and 1, op 0x79. -/
def walkerServes (w : Word) : Bool :=
  !w.getLsbD 62 && (field w 54 7 == 0x79 || (field w 54 7 == 0x78 && field w 48 6 != 2))

/-- The walker of the core has still to serve an instruction whose convoy issued before (R364): an older one of the strand,
or one of another strand that issued in an earlier cycle, or in the same from a lower slot. A walk that has performed has
been served. -/
def State.walkerBusy (s : State) (older : List Entry) (e : Entry) : Bool :=
  let waits := fun (x : Entry) => walkerServes x.word && !x.given && !x.again && x.flt.isNone
  older.any waits || s.curCore.slots.any fun t =>
    t.1 != s.cur.slot && !t.2.stopped && (t.2.flight.flatMap Convoy.entries).any fun x =>
      waits x && (decide (x.stamp < e.stamp) || (x.stamp == e.stamp && decide (t.1 < s.cur.slot)))

/-- A finite positive SCALE. -/
def scaleOk (code : Nat) : Bool :=
  match f32.value code with
  | .num s m _ => !s && m != 0
  | .nan => false
  | .inf _ => false

/-- OTAU, OFLOOR and ODEPTH as `twalk` copies them when its convoy issues (R351). -/
def walkSettings (s : State) : List Nat := [field s.curCore.otau 0 32, field s.curCore.ofloor 0 32, field s.curCore.odepth 0 5]

/-- What the header read of a `twalk` at issue came to (R356), which stands from then on: DW + 1 and SCALE, a failure, or
an uncorrectable error. -/
inductive Start where
  | unread
  | ok (dw scale : Nat)
  | failed (t : Trap)
  | lost
deriving DecidableEq, Repr

/-- It is kept after the settings: DW + 1 and SCALE, or 0, the cause, INFO and XADDR of the trap. -/
def startOf (aux : List Nat) : Start :=
  match aux with
  | _ :: _ :: _ :: 0 :: [] => .lost
  | _ :: _ :: _ :: 0 :: cause :: info :: addr :: [] => .failed { cause := cause, info := info, addr := BitVec.ofNat 64 addr }
  | _ :: _ :: _ :: dw :: scale :: [] => .ok dw scale
  | _ => .unread

/-- The header read of a `twalk` at issue (R356). The page that it translates serves the walk (R226). -/
def twalkHeader (s : State) (e : Entry) (b : BitVec 6) : State × Entry :=
  let failed := fun (t : Trap) => (s, { e with aux := e.aux ++ [0, t.cause, t.info, t.addr.toNat] })
  match s.header s.me s.cur.core [] (e.arg b) none with
  | .error .stall => (s, { e with held := true })
  | .error (.fault t) => failed t
  | .error (.lost p va) => (s, { e with aux := e.aux ++ [0], bad := some (lostRecord 1 p va) })
  | .ok (n, m) =>
    if scaleOk n.scale then (s.noteRecords m [(e.arg b, 2)], { e with aux := e.aux ++ [n.dw + 1, n.scale], pages := m })
    else failed (recordFault (e.arg b))

/-- The walk's results as they stand; none tells that they are POISON. The count register takes its value at once, and
keeps its old one where the results are POISON (R357). -/
def twalkEnd (s : State) (older : List Entry) (e : Entry) (d c : BitVec 6) (gn : BitVec 4) (dim : Nat) (w : Option Walk) :
    State × Entry :=
  let g : BitVec 6 := 32#6 + gn.setWidth 6
  let count : Word := match w with
    | some x => BitVec.ofNat 64 x.count
    | none => s.me.r.get g.toNat
  (s.setVal g count, walkWrite s older { e with res := count, mask := 1, begun := true } d.toNat c.toNat dim w)

/-- `twalk` and `twalk.x` (R355–R357). n is checked at issue, the lengths that the record gives when it fires (R49). The walk
follows older later parts that touch its records (R280), and vector work that has been found to agree (R329). -/
def twalkPlan (x : Bool) (v : VCtl) (d a b c : BitVec 6) (ty : Ty) (gn : BitVec 4) : Plan where
  cls := .m
  lanes := true
  reads := vnames v ++ sname b ++ [.v a.toNat]
  writes := [.v d.toNat, .v c.toNat] ++ sname (32#6 + gn.setWidth 6)
  w := 32
  len := some v.ls
  check := lengthCheck v 32
  copies := walkSettings
  fire := fun s older e0 =>
    if e0.mask.getLsbD 0 then
      -- performed: only the tails can be missing
      (s, walkWrite s older e0 d.toNat c.toNat (8 * (e0.aux.getD 3 0)) none)
    else
      let (s0, e) := match startOf e0.aux with
        | .unread => twalkHeader s e0 b
        | _ => (s, e0)
      let width := s.width
      match startOf e.aux with
      | .unread => (s0, e)
      | .failed t => (s0, { e with flt := some t })
      | .lost => twalkEnd s0 older e d c gn 0 none
      | .ok dw scale =>
        let dim := 8 * dw
        if vlmax 32 width < dim + 2 ∨ vlmax ty.width width < dim then (s0, { e with flt := some { cause := 13 } })
        else
          let qs := (List.range dim).map fun j => (s.srcV older a.toNat).get ty.width j
          if qs.contains .empty || !allBegun older || !settledFor older || s.walkerBusy older e then (s0, e)
          else if qs.contains .poison then twalkEnd s0 older { e with bad := some { cause := 9, info := 1 } } d c gn dim none
          else
            let q := qs.map fun y => match y with
              | .full k => tyVal ty k
              | _ => .nan
            let quest : Quest := {
              q := q, nq := f32.value (rne32 (FVal.sqrt (dot q q))), scale := f32.value scale
              otau := e.aux.headD 0, ofloor := e.aux.getD 1 0, odepth := e.aux.getD 2 0, dw := dw - 1
              x := x, n := e.n }
            match s.visit s.me s.cur.core quest 16 (e.arg b) (.ok ⟨none, [], 0, [], e.pages⟩) with
            | .error .stall => (s0, { e with held := true })
            | .error (.fault t) => (s0, { e with flt := some t })
            | .error (.lost p va) => twalkEnd s0 older { e with bad := some (lostRecord 1 p va) } d c gn dim none
            | .ok w =>
              if s.mustWait older w.pages .read (recordLines w.seen) then (s0, e)
              else twalkEnd (s0.noteRecords w.pages w.seen) older e d c gn dim (some w)

def planTwalk (v : VCtl) (d a b c : BitVec 6) (ty : Ty) (gn : BitVec 4) : Plan := twalkPlan false v d a b c ty gn
def planTwalkX (v : VCtl) (d a b c : BitVec 6) (ty : Ty) (gn : BitVec 4) : Plan := twalkPlan true v d a b c ty gn

/-! ### twupd (R358, R359) -/

/-- The path from the starting record to the last leaf, with the pages translated for it. -/
def State.path (s : State) (t : Strand) (core : Nat) : (fuel : Nat) → Pages → Word → (dw : Option Nat) →
    Except Snag (List Tussock × Pages)
  | 0, _, va, _ => .error (.fault (recordFault va))
  | fuel + 1, m, va, dw =>
    match s.tussock t core m va dw with
    | .error e => .error e
    | .ok (n, m) =>
      if n.leaf then .ok ([n], m)
      else
        match s.path t core fuel m (n.kids.getLast?.getD 0) (some n.dw) with
        | .error e => .error e
        | .ok (rest, m) => .ok (n :: rest, m)

/-- The radius after a key joins a record of `c` keys (R359); where a distance is not finite, the spec states none. -/
def newRadius (s : State) (n : Tussock) (key : List Nat) : Nat :=
  if n.count = 0 then 0
  else
    let c := n.count
    match spread c 1 key n.ksum with
    | none => (Config.freeWord s.choice n.va.toNat).toNat % 2 ^ 32
    | some (m, e) =>
      larger (rup32 (FVal.add false (f32.value n.radius) (rootOver m e (c * (c + 1))))) (rup32 (rootOver m e (c + 1)))

/-- A record with a key and a value added. -/
def Tussock.append (n : Tussock) (radius : Nat) (key value : List Nat) : Tussock :=
  let sum := fun (xs ys : List Nat) => (xs.zip ys).map fun p => rne32 (FVal.add false (f32.value p.1) (f32.value p.2))
  { n with count := n.count + 1, radius := radius, ksum := sum n.ksum key, vsum := sum n.vsum value }

/-- 32-bit words as bytes. -/
def bytes32 (ws : List Nat) : List Byte := ws.flatMap (toBytes 4)

/-- Bytes written over translated pages, line by line. -/
def State.walkWriteAt (s : State) (m : Pages) (va : Word) (bs : List Byte) : State :=
  (vaLines (bs.length + 1) va bs).foldl (fun st l => st.writeBytes (st.spotIn m l.1) l.2) s

/-- The pages of `n` bytes of records translated for writing, beside those that are, or what stops it. -/
def State.recordPages (s : State) (t : Strand) (core : Nat) (m : Pages) (va : Word) (n : Nat) : Except Snag Pages :=
  let m := s.pageMap (clusterOf core) t.asid t.lvl .write .link (pageAddrs va n) m
  match m.refused .write va n with
  | some f => .error (.fault f)
  | none =>
    let lines := recordLines [(va, (n + 63) / 64)]
    match lines.findSome? fun x => match s.checkIn m .write x.1 1 with
        | .error f => some f
        | .ok _ => none with
    | some f => .error (.fault f)
    | none => if lines.any fun x => s.stalled (s.spotIn m x.1) then .error .stall else .ok m

/-- The pages of every record of a path. -/
def State.pathPages (s : State) (t : Strand) (core : Nat) : Pages → List Tussock → Except Snag Pages
  | m, [] => .ok m
  | m, n :: rest =>
    match s.recordPages t core m n.va (128 + 8 * n.d) with
    | .error e => .error e
    | .ok m => s.pathPages t core m rest

/-- A record's changed fields written. -/
def State.writeTussock (s : State) (m : Pages) (n : Tussock) : State :=
  (s.walkWriteAt m (n.va + 4#64) (bytes32 [n.count, n.radius])).walkWriteAt m (n.va + 128#64) (bytes32 (n.ksum ++ n.vsum))

/-- A key or value of f32 codes: exact, whatever the type. -/
def codes32 (ty : Ty) (es : List Elt) : List Nat :=
  es.map fun x => match x with
    | .full k => rne32 (tyVal ty k)
    | _ => 0

/-- `twupd` (R359). -/
def planTwupd (d a b c : BitVec 6) (ty : Ty) : Plan where
  cls := .m
  lanes := true
  reads := sname b ++ [.v a.toNat, .v c.toNat]
  writes := sname d
  fire := fun s older e =>
    let t := s.me
    let core := s.cur.core
    if e.mask.getLsbD 0 then (s, { e with done := true, pend := [] })
    else if !allDone older || s.walkerBusy older e then (s, e)
    else
      match s.path t core 16 [] (e.arg b) none with
      | .error .stall => (s, { e with held := true })
      | .error (.fault f) => (s, { e with flt := some f })
      | .error (.lost p va) => (s, { e with flt := some (lostRecord 3 p va) })
      | .ok (path, m) =>
        let last := path.getLast?
        let n := (last.map Tussock.d).getD 8
        let c0 := (last.map Tussock.count).getD 0
        let s0 := s.noteRecords m (path.map Tussock.extent)
        if c0 = 16 then loaded s0 e d (BitVec.ofInt 64 (-1))
        else
          let ks := (List.range n).map fun j => (s.srcV older a.toNat).get ty.width j
          let vs := (List.range n).map fun j => (s.srcV older c.toNat).get ty.width j
          if (ks ++ vs).contains .empty then (s, e)
          else if (ks ++ vs).contains .poison then (s, { e with flt := some { cause := 9, info := 1 } })
          else
            match path.find? fun x => x.count == 2 ^ 32 - 1 with
            | some x => (s, { e with flt := some (recordFault x.va) })
            | none =>
              match s.pathPages t core (m.forWrite t.lvl) path with
              | .error .stall => (s, { e with held := true })
              | .error (.fault f) => (s, { e with flt := some f })
              | .error (.lost p va) => (s, { e with flt := some (lostRecord 3 p va) })
              | .ok mw =>
                let key := codes32 ty ks
                let value := codes32 ty vs
                let s1 := path.foldl (fun st n => st.writeTussock mw (n.append (newRadius s n key) key value)) s0
                loaded s1 e d ((last.map Tussock.base).getD 0 + BitVec.ofNat 64 c0)

/-! ### twbuild (R360, R361) -/

/-- The operands of a build. -/
structure Plot where
  area     : Word
  keyMap   : Nat
  valueMap : Nat
  dw       : Nat
  t0       : Nat
  leaves   : Nat
  branch   : Nat

/-- The operands read from their fields, or none where one is bad. -/
def plotOf (a b c : Word) : Option Plot :=
  if a.toNat % 64 = 0 ∧ field b 14 2 = 0 ∧ field b 30 2 = 0 ∧ field b 37 27 = 0 ∧ field c 48 16 = 0 ∧
      2 ≤ field c 44 4 ∧ field c 44 4 ≤ 8 then
    some ⟨a, field b 0 14, field b 16 14, field b 32 5, field c 0 32, field c 32 12 + 1, field c 44 4⟩
  else none

/-- One row read through a sequence-map entry (R270, R361): its first d elements as f32 codes. -/
def State.slabRow (s : State) (t : Strand) (core entry token d : Nat) (ty : Ty) : Except Snag (List Nat) :=
  let rb := ((Tab.find s.smaps entry).map Smap.rb).getD 8
  match s.seqReach t.asid (BitVec.ofNat 64 entry) (token * rb) with
  | .at_ va _ _ =>
    let w := ty.width / 8
    let vas := (List.range d).map fun j => va + BitVec.ofNat 64 (w * j)
    let m := s.pageMap (clusterOf core) t.asid t.lvl .read .data vas []
    vas.foldl (fun acc x =>
      match acc with
      | .error e => .error e
      | .ok ks =>
        (match s.checkIn m .read x w with
          | .error f => .error (.fault f)
          | .ok p =>
            if s.stalled p then .error .stall
            else
              match p with
              | .peer dv _ _ =>
                (match s.peerAnswer .read dv x w with
                  | .val k => .ok (ks ++ [rne32 (tyVal ty k)])
                  | .fail f => .error (.fault f)
                  | .bad q => .error (.lost q x)
                  | .held => .error .stall)
              | _ => if s.poisoned p then .error (.lost p x) else .ok (ks ++ [rne32 (tyVal ty (s.readNat p w))])))
      (.ok [])
  | _ => .error (.fault smapFault)

/-- What the reads of rows leave (R253, R283). -/
def State.noteRows (s : State) (t : Strand) (core entry d : Nat) (ty : Ty) (tokens : List Nat) : State :=
  let rb := ((Tab.find s.smaps entry).map Smap.rb).getD 8
  let vas := tokens.flatMap fun k => match s.seqReach t.asid (BitVec.ofNat 64 entry) (k * rb) with
    | .at_ va _ _ => (List.range d).map fun j => va + BitVec.ofNat 64 (ty.width / 8 * j)
    | _ => []
  s.noteIn t [] (s.pageMap (clusterOf core) t.asid t.lvl .read .data vas []) .read (vas.map fun va => (va, ty.width / 8))

/-- The rows of consecutive tokens. -/
def State.slabRows (s : State) (t : Strand) (core entry d : Nat) (ty : Ty) : List Nat → Except Snag (List (List Nat))
  | [] => .ok []
  | k :: rest =>
    match s.slabRow t core entry k d ty with
    | .error e => .error e
    | .ok r =>
      match s.slabRows t core entry d ty rest with
      | .error e => .error e
      | .ok more => .ok (r :: more)

/-- Running sums of rows, from +0 (R361). -/
def rowSums (d : Nat) (rows : List (List Nat)) : List Nat :=
  rows.foldl (fun acc r => (acc.zip r).map fun p => rne32 (FVal.add false (f32.value p.1) (f32.value p.2))) (List.replicate d 0)

/-- The largest radius over parts: each gives its distance's square over `over`² and its own radius. -/
def widest (s : State) (key : Nat) (parts : List (Option (Nat × Int) × Nat × Nat)) : Nat :=
  parts.foldl (fun acc p =>
    match p.1 with
    | none => (Config.freeWord s.choice key).toNat % 2 ^ 32
    | some (m, e) => larger acc (rup32 (FVal.add false (rootOver m e p.2.1) (f32.value p.2.2)))) 0

/-- A leaf of 16 tokens. -/
def plotLeaf (s : State) (p : Plot) (va : Word) (token : Nat) (keys values : List (List Nat)) : Tussock :=
  let d := 8 * (p.dw + 1)
  let ks := rowSums d keys
  { va := va, leaf := true, dw := p.dw, count := 16, scale := 0, base := BitVec.ofNat 64 token, kids := []
    radius := widest s va.toNat (keys.map fun k => (spread 16 1 k ks, 16, 0)), ksum := ks, vsum := rowSums d values }

/-- An inner record over children. -/
def plotInner (s : State) (p : Plot) (va : Word) (kids : List Tussock) : Tussock :=
  let d := 8 * (p.dw + 1)
  let ks := rowSums d (kids.map Tussock.ksum)
  let n := kids.foldl (fun n k => n + k.count) 0
  { va := va, leaf := false, dw := p.dw, count := n, scale := 0, base := (kids.head?.map Tussock.base).getD 0
    kids := kids.map Tussock.va
    radius := widest s va.toNat (kids.map fun k => (spread n k.count k.ksum ks, n * k.count, k.radius))
    ksum := ks, vsum := rowSums d (kids.map Tussock.vsum) }

/-- Runs of `b` records. -/
def runsOf (b : Nat) : (fuel : Nat) → List Tussock → List (List Tussock)
  | 0, _ => []
  | fuel + 1, l => if l.isEmpty then [] else l.take b :: runsOf b fuel (l.drop b)

/-- The levels above one, each record at the next place in the area. -/
def plotUp (s : State) (p : Plot) : (fuel : Nat) → (next : Nat) → List Tussock → List Tussock
  | 0, _, level => level
  | fuel + 1, next, level =>
    if level.length ≤ 1 then level
    else
      let size := 128 + 64 * (p.dw + 1)
      let ups := (runsOf p.branch level.length level).mapIdx fun i ks => plotInner s p (p.area + BitVec.ofNat 64 (size * (next + i))) ks
      level ++ plotUp s p fuel (next + ups.length) ups

/-- The number of records of a build. -/
def plotCount (b : Nat) : (fuel : Nat) → (n : Nat) → Nat
  | 0, n => n
  | fuel + 1, n => if n ≤ 1 then n else n + plotCount b fuel ((n + b - 1) / b)

/-- A record as bytes (R349). -/
def Tussock.bytes (n : Tussock) : List Byte :=
  let h0 := 0x7C + (if n.leaf then 2 ^ 8 else 0) + n.kids.length * 2 ^ 9 + n.dw * 2 ^ 16 + n.count % 2 ^ 32 * 2 ^ 32
  ([h0, n.radius + n.scale * 2 ^ 32, n.base.toNat, 0, 0, 0, 0, 0] ++
    (List.range 8).map fun i => (n.kids.getD i 0).toNat).flatMap (toBytes 8) ++ bytes32 (n.ksum ++ n.vsum)

/-- The records of a build from its rows. -/
def plotRecords (s : State) (p : Plot) (keys values : List (List Nat)) : List Tussock :=
  let size := 128 + 64 * (p.dw + 1)
  let leaves := (List.range p.leaves).map fun i =>
    plotLeaf s p (p.area + BitVec.ofNat 64 (size * i)) (p.t0 + 16 * i) ((keys.drop (16 * i)).take 16) ((values.drop (16 * i)).take 16)
  plotUp s p 13 p.leaves leaves

/-- `twbuild` (R361). -/
def planTwbuild (d a b c : BitVec 6) (ty : Ty) : Plan where
  cls := .m
  reads := sname a ++ sname b ++ sname c
  writes := sname d
  fire := fun s older e =>
    let t := s.me
    let core := s.cur.core
    let snag := fun (x : Snag) => match x with
      | .stall => (s, { e with held := true })
      | .fault f => (s, { e with flt := some f })
      | .lost p va => (s, { e with flt := some (lostRecord 1 p va) })
    if e.mask.getLsbD 0 then (s, { e with done := true, pend := [] })
    else if !allDone older || s.walkerBusy older e then (s, e)
    else
      match plotOf (e.arg a) (e.arg b) (e.arg c) with
      | none => (s, { e with flt := some (recordFault (e.arg a)) })
      | some p =>
        let n := 8 * (p.dw + 1)
        let narrow := fun (x : Nat) => (Tab.find s.smaps x).any fun m => decide (m.rb * 8 < n * ty.width)
        if narrow p.keyMap || narrow p.valueMap then (s, { e with flt := some (recordFault (e.arg a)) })
        else
          let tokens := (List.range (16 * p.leaves)).map fun i => p.t0 + i
          match s.slabRows t core p.keyMap n ty tokens, s.slabRows t core p.valueMap n ty tokens with
          | .error x, _ => snag x
          | _, .error x => snag x
          | .ok keys, .ok values =>
            let size := 128 + 8 * n
            match s.recordPages t core [] p.area (size * plotCount p.branch 13 p.leaves) with
            | .error x => snag x
            | .ok m =>
              let recs := plotRecords s p keys values
              let read := (s.noteRows t core p.keyMap n ty tokens).noteRows t core p.valueMap n ty tokens
              let s1 := recs.foldl (fun st r => st.walkWriteAt m r.va r.bytes) read
              loaded s1 e d ((recs.getLast?.map Tussock.va).getD 0)

/-! ### twrd (R362) -/

/-- The addresses that an element of `twrd` reads: the two lines of the header, and its own word. -/
def twrdWord (va : Word) (d part j : Nat) : Word := va + BitVec.ofNat 64 (128 + 4 * j + (if part % 2 = 1 then 4 * d else 0))

/-- The header of a record through translated pages: what it is, a hold, a trap, or none on an uncorrectable error. -/
def State.headerIn (s : State) (t : Strand) (older : List Entry) (m : Pages) (va : Word) : Except Outcome Tussock :=
  let line := fun (x : Word) => s.loadIn t older m .read x 1
  match line va, line (va + 64#64) with
  | .fail f, _ => .error (.fired (.fault f))
  | _, .fail f => .error (.fired (.fault f))
  | .held, _ => .error .held
  | _, .held => .error .held
  | .val _, .val _ =>
    (match s.checkIn m .read va 1, s.checkIn m .read (va + 64#64) 1 with
      | .ok p, .ok q =>
        let bs := s.readBytes p 64 ++ s.readBytes q 64
        if s.tideHeld t va 128 then .error .held
        else if headerOk va (dwordOf bs) none then .ok (headerOf va (dwordOf bs)) else .error (.fired (.fault (recordFault va)))
      | _, _ => .error .wait)
  | _, _ => .error (.fired .quiet)

/-- One element of a record read into a vector (R362): a load element of its own word. -/
def State.twrdElt (s : State) (t : Strand) (older : List Entry) (m : Pages) (va : Word) (part : Nat) (h : Except Outcome Tussock) (j : Nat) : Outcome :=
  match h with
  | .error o => o
  | .ok n =>
    if n.d ≤ j then .fired (.val 0)
    else
      match s.loadIn t older m .read (twrdWord va n.d part j) 4 with
      | .fail f => .fired (.fault f)
      | .held => .held
      | .bad _ => .fired .quiet
      | .val x =>
        .fired (.val (if part < 2 then x else if n.count = 0 then 0 else rne32 (FVal.div (f32.value x) (ofInt n.count))))

/-- `twrd` (R362). -/
def planTwrd (v : VCtl) (d a : BitVec 6) (p : BitVec 2) : Plan where
  cls := .m
  widths := some []
  rereads := true
  lanes := true
  reads := vnames v ++ sname a
  writes := [.v d.toNat]
  w := 32
  len := some v.ls
  check := lengthCheck v 32
  fire := fun s older e =>
    let todo := s.todo older e v
    if !e.begun && (!allBegun older || !s.ready older v todo fun _ => true) then (s, e)
    else
      let va := e.arg a
      let lines := if todo.isEmpty then [] else [va, va + 64#64]
      let m0 := s.pagesOn e .read .link lines
      let h := s.headerIn s.me older m0 va
      let words := fun (js : List Nat) => match h with
        | .ok n => (js.filter fun j => decide (j < n.d)).map (twrdWord va n.d p.toNat)
        | .error _ => []
      let vas := words (todo.filter fun i => s.mask older v i != .empty && s.mask older v i != .poison)
      let m := s.pageMap (clusterOf s.cur.core) s.me.asid s.me.lvl .read .link vas m0
      let spans := lines.map (fun x => (x, 64)) ++ vas.map fun x => (x, 4)
      if !e.begun && s.mustWait older m .read spans then (s, e)
      else
        let old := s.srcV older d.toNat
        let e1 := loadGo { e with pages := m } d.toNat 32 e.n (zeroed v) (fun i => s.mask older v i) (old.get 32)
          (s.twrdElt s.me older m va p.toNat h)
        let rest := lines.map (fun x => (x, 64)) ++ (words (s.todo older e1 v)).map fun x => (x, 4)
        let e2 := { e1 with later := if e1.done then [] else s.laterSpans m .read h.toOption.isSome rest }
        (((s.noteIn s.me older m .read spans).logBad m .read (lines ++ vas)).noteLatent e2
          (latentAt s older e v (fun _ => []) 32 old), e2)

end Sys2Proof.Machine
end

