-- ==== Sys2Proof/Machine/PlanOf.lean ====
section
/-!
DEFINITION. The meaning of an instruction word in flight, by its opcode and function code (03, R51): what was issued is
fired again from its word. Words are decoded here as in `Decode`; those in flight have passed its checks.
-/

namespace Sys2Proof.Machine

/-- A word that is no instruction: only an image that software changed can bring one here (R317, R50). -/
def planIllegal : Plan where
  fire := fun s _ e => (s, { e with flt := some { cause := 1, slotB := e.slotB } })

/-- Primary opcode 0x01 (R51). -/
def planOp01 (f : Full) (_rm : Rm) : Plan :=
  match f.fn.toNat with
  | 0 => planB f.x
  | _ => planIllegal

/-- Primary opcode 0x02 (R51). -/
def planOp02 (f : Full) (_rm : Rm) : Plan :=
  match f.fn.toNat with
  | 0 => planBeq f.a f.b f.x
  | 1 => planBne f.a f.b f.x
  | 2 => planBlt f.a f.b f.x
  | 3 => planBge f.a f.b f.x
  | 4 => planBltn f.a f.b f.x
  | 5 => planBgen f.a f.b f.x
  | _ => planIllegal

/-- Primary opcode 0x03 (R51). -/
def planOp03 (f : Full) (_rm : Rm) : Plan :=
  match f.fn.toNat with
  | 0 => planBz f.a f.x
  | 1 => planBnz f.a f.x
  | _ => planIllegal

/-- Primary opcode 0x04 (R51). -/
def planOp04 (f : Full) (_rm : Rm) : Plan :=
  match f.fn.toNat with
  | 0 => planJmp f.a
  | 1 => planCalli f.a
  | 2 => planRet
  | _ => planIllegal

/-- Primary opcode 0x05 (R51). -/
def planOp05 (f : Full) (_rm : Rm) : Plan :=
  match f.fn.toNat with
  | 0 => planCall f.x
  | _ => planIllegal

/-- Primary opcode 0x06 (R51). -/
def planOp06 (f : Full) (_rm : Rm) : Plan :=
  match f.fn.toNat with
  | 0 => planMwait f.d f.a f.b (f.x.extractLsb' 14 6)
  | 1 => planHalt
  | _ => planIllegal

/-- Primary opcode 0x07 (R51). -/
def planOp07 (f : Full) (_rm : Rm) : Plan :=
  match f.fn.toNat with
  | 0 => planLaunch f.d f.a
  | 1 => planGlaunch f.d f.a
  | _ => planIllegal

/-- Primary opcode 0x08 (R51). -/
def planOp08 (f : Full) (_rm : Rm) : Plan :=
  match f.fn.toNat with
  | 0 => if f.x.extractLsb' 3 1 == 0#1 then (planWidGet f.d)
      else if f.x.extractLsb' 3 1 == 1#1 then (planWidGetField f.d (f.x.extractLsb' 0 3))
      else planIllegal
  | 1 => planBarK (f.x.extractLsb' 0 3)
  | _ => planIllegal

/-- Primary opcode 0x09 (R51). -/
def planOp09 (f : Full) (_rm : Rm) : Plan :=
  match f.fn.toNat with
  | 0 => planTmBind f.a f.b (f.x.extractLsb' 14 6) (f.x.extractLsb' 0 4)
  | 1 => planTmAdv f.a f.b (f.x.extractLsb' 0 4)
  | 2 => planTmRd f.d (f.x.extractLsb' 0 4)
  | _ => planIllegal

/-- Primary opcode 0x0A (R51). -/
def planOp0A (f : Full) (_rm : Rm) : Plan :=
  match f.fn.toNat with
  | 0 => if f.x.extractLsb' 0 1 == 0#1 then (planLdco f.d f.a f.b)
      else if f.x.extractLsb' 0 1 == 1#1 then (planLdcoDrop f.d f.a)
      else planIllegal
  | _ => planIllegal

/-- Primary opcode 0x0B (R51). -/
def planOp0B (f : Full) (_rm : Rm) : Plan :=
  match f.fn.toNat with
  | 0 => planTrap f.x
  | 1 => planSret
  | _ => planIllegal

/-- Primary opcode 0x0C (R51). -/
def planOp0C (f : Full) (_rm : Rm) : Plan :=
  match f.fn.toNat with
  | 0 => planCtxSave f.d f.a f.b
  | 1 => planCtxLoad f.d f.a f.b
  | _ => planIllegal

/-- Primary opcode 0x0D (R51). -/
def planOp0D (f : Full) (_rm : Rm) : Plan :=
  match f.fn.toNat with
  | 0 => planErecRd f.d f.a (f.x.extractLsb' 0 3)
  | _ => planIllegal

/-- Primary opcode 0x10 (R51). -/
def planOp10 (f : Full) (_rm : Rm) : Plan :=
  match f.fn.toNat with
  | 0 => planAdd f.d f.a f.b
  | 1 => planSub f.d f.a f.b
  | 2 => planMul f.d f.a f.b
  | 3 => planMulh f.d f.a f.b
  | 4 => planMulhn f.d f.a f.b
  | 5 => planSAnd f.d f.a f.b
  | 6 => planSOr f.d f.a f.b
  | 7 => planSXor f.d f.a f.b
  | 8 => planAndn f.d f.a f.b
  | 9 => planShl f.d f.a f.b
  | 10 => planShr f.d f.a f.b
  | 11 => planSra f.d f.a f.b
  | 12 => planRol f.d f.a f.b
  | 13 => planSMin f.d f.a f.b
  | 14 => planSMax f.d f.a f.b
  | 15 => planMinn f.d f.a f.b
  | 16 => planMaxn f.d f.a f.b
  | 17 => planSlt f.d f.a f.b
  | 18 => planSltn f.d f.a f.b
  | 32 => planAddi f.d f.a f.x
  | 33 => planSubi f.d f.a f.x
  | 34 => planMuli f.d f.a f.x
  | 35 => planMulhi f.d f.a f.x
  | 36 => planMulhni f.d f.a f.x
  | 37 => planAndi f.d f.a f.x
  | 38 => planOri f.d f.a f.x
  | 39 => planXori f.d f.a f.x
  | 40 => planAndni f.d f.a f.x
  | 41 => planShli f.d f.a f.x
  | 42 => planShri f.d f.a f.x
  | 43 => planSrai f.d f.a f.x
  | 44 => planRoli f.d f.a f.x
  | 45 => planMini f.d f.a f.x
  | 46 => planMaxi f.d f.a f.x
  | 47 => planMinni f.d f.a f.x
  | 48 => planMaxni f.d f.a f.x
  | 49 => planSlti f.d f.a f.x
  | 50 => planSltni f.d f.a f.x
  | _ => planIllegal

/-- Primary opcode 0x11 (R51). -/
def planOp11 (f : Full) (_rm : Rm) : Plan :=
  match f.fn.toNat with
  | 0 => planDiv f.d f.a f.b
  | 1 => planDivn f.d f.a f.b
  | 2 => planRem f.d f.a f.b
  | 3 => planRemn f.d f.a f.b
  | _ => planIllegal

/-- Primary opcode 0x12 (R51). -/
def planOp12 (f : Full) (_rm : Rm) : Plan :=
  match f.fn.toNat with
  | 0 => planClz f.d f.a
  | 1 => planCtz f.d f.a
  | 2 => planPopc f.d f.a
  | _ => planIllegal

/-- Primary opcode 0x13 (R51). -/
def planOp13 (f : Full) (_rm : Rm) : Plan :=
  match f.fn.toNat with
  | 0 => planSel f.d f.a f.b (f.x.extractLsb' 14 6)
  | _ => planIllegal

/-- Primary opcode 0x14 (R51). -/
def planOp14 (f : Full) (_rm : Rm) : Plan :=
  match f.fn.toNat with
  | 0 => planLi f.d f.x
  | 1 => planLui f.d f.x
  | _ => planIllegal

/-- Primary opcode 0x15 (R51). -/
def planOp15 (f : Full) (_rm : Rm) : Plan :=
  match f.fn.toNat with
  | 0 => planAdr f.d f.x
  | 1 => planLsa f.d f.a f.b (f.x.extractLsb' 0 2)
  | _ => planIllegal

/-- Primary opcode 0x16 (R51). -/
def planOp16 (f : Full) (_rm : Rm) : Plan :=
  match f.fn.toNat with
  | 0 => if f.x.extractLsb' 6 1 == 0#1 then (planExt f.d f.a (f.x.extractLsb' 14 6) (f.x.extractLsb' 0 6))
      else if f.x.extractLsb' 6 1 == 1#1 then (planExtS f.d f.a (f.x.extractLsb' 14 6) (f.x.extractLsb' 0 6))
      else planIllegal
  | 1 => planIns f.d f.a (f.x.extractLsb' 14 6) (f.x.extractLsb' 0 6)
  | _ => planIllegal

/-- Primary opcode 0x17 (R51). -/
def planOp17 (f : Full) (_rm : Rm) : Plan :=
  match f.fn.toNat with
  | 0 => planFrame (f.x.extractLsb' 0 6)
  | _ => planIllegal

/-- Primary opcode 0x20 (R51). -/
def planOp20 (f : Full) (rm : Rm) : Plan :=
  match f.fn.toNat with
  | 0 => planFaddS f.d f.a f.b rm
  | 1 => planFsubS f.d f.a f.b rm
  | 2 => planFmulS f.d f.a f.b rm
  | 3 => planFfmaS f.d f.a f.b rm (f.x.extractLsb' 14 6)
  | 4 => planFdivS f.d f.a f.b rm
  | 5 => planFsqrtS f.d f.a rm
  | _ => planIllegal

/-- Primary opcode 0x21 (R51). -/
def planOp21 (f : Full) (_rm : Rm) : Plan :=
  match f.fn.toNat with
  | 0 => planFcmpSEq f.d f.a f.b
  | 1 => planFcmpSLt f.d f.a f.b
  | 2 => planFcmpSLe f.d f.a f.b
  | 3 => planFcmpSUn f.d f.a f.b
  | _ => planIllegal

/-- Primary opcode 0x22 (R51). -/
def planOp22 (f : Full) (rm : Rm) : Plan :=
  match f.fn.toNat with
  | 0 => planFcvtSFi f.d f.a rm
  | 1 => planFcvtSFn f.d f.a rm
  | 2 => planFcvtSIf f.d f.a rm
  | 3 => planFcvtSNf f.d f.a rm
  | _ => planIllegal

/-- Primary opcode 0x23 (R51). -/
def planOp23 (f : Full) (_rm : Rm) : Plan :=
  match f.fn.toNat with
  | 0 => planMfs f.d (f.x.extractLsb' 0 12)
  | 1 => match Wf.mts (f.x.extractLsb' 0 12) with
      | .plain => planMts f.a (f.x.extractLsb' 0 12)
      | .mvl => planMvlWrite f.a (f.x.extractLsb' 0 12)
      | .tshape => planTshapeWrite f.a (f.x.extractLsb' 0 12)
      | .dly => planDlymodeClr f.a (f.x.extractLsb' 0 12)
      | .efq => planEfqWrite f.a (f.x.extractLsb' 0 12)
  | _ => planIllegal

/-- Primary opcode 0x28 (R51). -/
def planOp28 (f : Full) (_rm : Rm) : Plan :=
  match f.fn.toNat with
  | 0 => planVsetl f.d f.a (Ty.ofCode (f.x.extractLsb' 10 4))
  | 1 => planVrel
  | _ => planIllegal

/-- Primary opcode 0x29 (R51). -/
def planOp29 (f : Full) (_rm : Rm) : Plan :=
  match f.fn.toNat with
  | 0 => planVspill ⟨f.ls, f.q, f.k⟩ f.a f.b (Ty.ofCode (f.x.extractLsb' 10 4)) (f.x.extractLsb' 0 9)
  | 1 => planVfill f.d f.a (Ty.ofCode (f.x.extractLsb' 10 4)) (f.x.extractLsb' 0 9)
  | _ => planIllegal

/-- Primary opcode 0x2A (R51). -/
def planOp2A (f : Full) (_rm : Rm) : Plan :=
  match f.fn.toNat with
  | 0 => planVadd ⟨f.ls, f.q, f.k⟩ f.d f.a f.b (Ty.ofCode (f.x.extractLsb' 10 4)) (f.x.extractLsb' 9 1)
  | 1 => planVsub ⟨f.ls, f.q, f.k⟩ f.d f.a f.b (Ty.ofCode (f.x.extractLsb' 10 4)) (f.x.extractLsb' 9 1)
  | 2 => planVmul ⟨f.ls, f.q, f.k⟩ f.d f.a f.b (Ty.ofCode (f.x.extractLsb' 10 4)) (f.x.extractLsb' 9 1)
  | 3 => planVmulh ⟨f.ls, f.q, f.k⟩ f.d f.a f.b (Ty.ofCode (f.x.extractLsb' 10 4))
  | 4 => planVmin ⟨f.ls, f.q, f.k⟩ f.d f.a f.b (Ty.ofCode (f.x.extractLsb' 10 4))
  | 5 => planVmax ⟨f.ls, f.q, f.k⟩ f.d f.a f.b (Ty.ofCode (f.x.extractLsb' 10 4))
  | _ => planIllegal

/-- Primary opcode 0x2B (R51). -/
def planOp2B (f : Full) (_rm : Rm) : Plan :=
  match f.fn.toNat with
  | 0 => planVand ⟨f.ls, f.q, f.k⟩ f.d f.a f.b (Ty.ofCode (f.x.extractLsb' 10 4))
  | 1 => planVor ⟨f.ls, f.q, f.k⟩ f.d f.a f.b (Ty.ofCode (f.x.extractLsb' 10 4))
  | 2 => planVxor ⟨f.ls, f.q, f.k⟩ f.d f.a f.b (Ty.ofCode (f.x.extractLsb' 10 4))
  | 3 => planVshl ⟨f.ls, f.q, f.k⟩ f.d f.a f.b (Ty.ofCode (f.x.extractLsb' 10 4))
  | 4 => planVshr ⟨f.ls, f.q, f.k⟩ f.d f.a f.b (Ty.ofCode (f.x.extractLsb' 10 4))
  | 5 => planVsra ⟨f.ls, f.q, f.k⟩ f.d f.a f.b (Ty.ofCode (f.x.extractLsb' 10 4))
  | _ => planIllegal

/-- Primary opcode 0x2C (R51). -/
def planOp2C (f : Full) (_rm : Rm) : Plan :=
  match f.fn.toNat with
  | 0 => planVcmpEq ⟨f.ls, f.q, f.k⟩ f.d f.a f.b (Ty.ofCode (f.x.extractLsb' 10 4))
  | 1 => planVcmpNe ⟨f.ls, f.q, f.k⟩ f.d f.a f.b (Ty.ofCode (f.x.extractLsb' 10 4))
  | 2 => planVcmpLt ⟨f.ls, f.q, f.k⟩ f.d f.a f.b (Ty.ofCode (f.x.extractLsb' 10 4))
  | 3 => planVcmpLe ⟨f.ls, f.q, f.k⟩ f.d f.a f.b (Ty.ofCode (f.x.extractLsb' 10 4))
  | _ => planIllegal

/-- Primary opcode 0x2D (R51). -/
def planOp2D (f : Full) (rm : Rm) : Plan :=
  match f.fn.toNat with
  | 0 => planVwadd ⟨f.ls, f.q, f.k⟩ f.d f.a f.b rm (Ty.ofCode (f.x.extractLsb' 10 4)) (f.x.extractLsb' 0 2)
  | 1 => planVwmul ⟨f.ls, f.q, f.k⟩ f.d f.a f.b rm (Ty.ofCode (f.x.extractLsb' 10 4)) (f.x.extractLsb' 0 2)
  | 2 => planVwmac ⟨f.ls, f.q, f.k⟩ f.d f.a f.b rm (f.x.extractLsb' 14 6) (Ty.ofCode (f.x.extractLsb' 10 4)) (f.x.extractLsb' 9 1) (f.x.extractLsb' 0 2)
  | _ => planIllegal

/-- Primary opcode 0x2E (R51). -/
def planOp2E (f : Full) (_rm : Rm) : Plan :=
  match f.fn.toNat with
  | 0 => planVmov ⟨f.ls, f.q, f.k⟩ f.d f.a (Ty.ofCode (f.x.extractLsb' 10 4))
  | 1 => planVid ⟨f.ls, f.q, f.k⟩ f.d (Ty.ofCode (f.x.extractLsb' 10 4))
  | 2 => planVsel ⟨f.ls, f.q, f.k⟩ f.d f.a f.b (Ty.ofCode (f.x.extractLsb' 10 4))
  | _ => planIllegal

/-- Primary opcode 0x2F (R51). -/
def planOp2F (f : Full) (_rm : Rm) : Plan :=
  match f.fn.toNat with
  | 0 => planVdup ⟨f.ls, f.q, f.k⟩ f.d f.a f.b (Ty.ofCode (f.x.extractLsb' 10 4))
  | _ => planIllegal

/-- Primary opcode 0x30 (R51). -/
def planOp30 (f : Full) (_rm : Rm) : Plan :=
  match f.fn.toNat with
  | 0 => planVperm ⟨f.ls, f.q, f.k⟩ f.d f.a f.b (Ty.ofCode (f.x.extractLsb' 10 4))
  | 1 => planVslup ⟨f.ls, f.q, f.k⟩ f.d f.a f.b (Ty.ofCode (f.x.extractLsb' 10 4))
  | 2 => planVsldn ⟨f.ls, f.q, f.k⟩ f.d f.a f.b (Ty.ofCode (f.x.extractLsb' 10 4))
  | 3 => planVcmprs ⟨f.ls, f.q, f.k⟩ f.d f.a (Ty.ofCode (f.x.extractLsb' 10 4))
  | 4 => planVexpnd ⟨f.ls, f.q, f.k⟩ f.d f.a (Ty.ofCode (f.x.extractLsb' 10 4))
  | _ => planIllegal

/-- Primary opcode 0x31 (R51). -/
def planOp31 (f : Full) (_rm : Rm) : Plan :=
  match f.fn.toNat with
  | 0 => planQand ⟨f.ls, f.q, f.k⟩ f.d f.a f.b
  | 1 => planQor ⟨f.ls, f.q, f.k⟩ f.d f.a f.b
  | 2 => planQxor ⟨f.ls, f.q, f.k⟩ f.d f.a f.b
  | 3 => planQnot ⟨f.ls, f.q, f.k⟩ f.d f.a
  | 4 => planQpopc ⟨f.ls, f.q, f.k⟩ f.d f.a
  | 5 => planQfirst ⟨f.ls, f.q, f.k⟩ f.d f.a
  | _ => planIllegal

/-- Primary opcode 0x32 (R51). -/
def planOp32 (f : Full) (_rm : Rm) : Plan :=
  match f.fn.toNat with
  | 0 => planVbmand ⟨f.ls, f.q, f.k⟩ f.d f.a f.b (Ty.ofCode (f.x.extractLsb' 10 4))
  | 1 => planVbpfx ⟨f.ls, f.q, f.k⟩ f.d f.a (Ty.ofCode (f.x.extractLsb' 10 4))
  | 2 => planVxsect ⟨f.ls, f.q, f.k⟩ f.d f.a f.b (Ty.ofCode (f.x.extractLsb' 10 4))
  | _ => planIllegal

/-- Primary opcode 0x33 (R51). -/
def planOp33 (f : Full) (_rm : Rm) : Plan :=
  match f.fn.toNat with
  | 0 => planVconf ⟨f.ls, f.q, f.k⟩ f.d f.a (Ty.ofCode (f.x.extractLsb' 10 4)) (f.x.extractLsb' 0 3)
  | _ => planIllegal

/-- Primary opcode 0x40 (R51). -/
def planOp40 (f : Full) (rm : Rm) : Plan :=
  match f.fn.toNat with
  | 0 => planVfadd ⟨f.ls, f.q, f.k⟩ f.d f.a f.b rm (Ty.ofCode (f.x.extractLsb' 10 4))
  | 1 => planVfsub ⟨f.ls, f.q, f.k⟩ f.d f.a f.b rm (Ty.ofCode (f.x.extractLsb' 10 4))
  | 2 => planVfmul ⟨f.ls, f.q, f.k⟩ f.d f.a f.b rm (Ty.ofCode (f.x.extractLsb' 10 4))
  | 3 => planVfmin ⟨f.ls, f.q, f.k⟩ f.d f.a f.b (Ty.ofCode (f.x.extractLsb' 10 4))
  | 4 => planVfmax ⟨f.ls, f.q, f.k⟩ f.d f.a f.b (Ty.ofCode (f.x.extractLsb' 10 4))
  | _ => planIllegal

/-- Primary opcode 0x41 (R51). -/
def planOp41 (f : Full) (rm : Rm) : Plan :=
  match f.fn.toNat with
  | 0 => planVfma ⟨f.ls, f.q, f.k⟩ f.d f.a f.b rm (f.x.extractLsb' 14 6) (Ty.ofCode (f.x.extractLsb' 10 4))
  | 1 => planVfms ⟨f.ls, f.q, f.k⟩ f.d f.a f.b rm (f.x.extractLsb' 14 6) (Ty.ofCode (f.x.extractLsb' 10 4))
  | 2 => planVfnma ⟨f.ls, f.q, f.k⟩ f.d f.a f.b rm (f.x.extractLsb' 14 6) (Ty.ofCode (f.x.extractLsb' 10 4))
  | _ => planIllegal

/-- Primary opcode 0x42 (R51). -/
def planOp42 (f : Full) (rm : Rm) : Plan :=
  match f.fn.toNat with
  | 0 => planVfdiv ⟨f.ls, f.q, f.k⟩ f.d f.a f.b rm (Ty.ofCode (f.x.extractLsb' 10 4))
  | 1 => planVfsqrt ⟨f.ls, f.q, f.k⟩ f.d f.a rm (Ty.ofCode (f.x.extractLsb' 10 4))
  | 2 => planVrcp ⟨f.ls, f.q, f.k⟩ f.d f.a rm (Ty.ofCode (f.x.extractLsb' 10 4))
  | 3 => planVrsqrt ⟨f.ls, f.q, f.k⟩ f.d f.a rm (Ty.ofCode (f.x.extractLsb' 10 4))
  | 4 => planVexp2 ⟨f.ls, f.q, f.k⟩ f.d f.a rm (Ty.ofCode (f.x.extractLsb' 10 4))
  | _ => planIllegal

/-- Primary opcode 0x43 (R51). -/
def planOp43 (f : Full) (_rm : Rm) : Plan :=
  match f.fn.toNat with
  | 0 => planVfcmpEq ⟨f.ls, f.q, f.k⟩ f.d f.a f.b (Ty.ofCode (f.x.extractLsb' 10 4))
  | 1 => planVfcmpLt ⟨f.ls, f.q, f.k⟩ f.d f.a f.b (Ty.ofCode (f.x.extractLsb' 10 4))
  | 2 => planVfcmpLe ⟨f.ls, f.q, f.k⟩ f.d f.a f.b (Ty.ofCode (f.x.extractLsb' 10 4))
  | 3 => planVfcmpUn ⟨f.ls, f.q, f.k⟩ f.d f.a f.b (Ty.ofCode (f.x.extractLsb' 10 4))
  | _ => planIllegal

/-- Primary opcode 0x44 (R51). -/
def planOp44 (f : Full) (rm : Rm) : Plan :=
  match f.fn.toNat with
  | 0 => planVredoAdd ⟨f.ls, f.q, f.k⟩ f.d f.a f.b rm (Ty.ofCode (f.x.extractLsb' 10 4)) (f.x.extractLsb' 9 1)
  | 1 => planVredoMin ⟨f.ls, f.q, f.k⟩ f.d f.a f.b (Ty.ofCode (f.x.extractLsb' 10 4))
  | 2 => planVredoMax ⟨f.ls, f.q, f.k⟩ f.d f.a f.b (Ty.ofCode (f.x.extractLsb' 10 4))
  | 3 => planVredoAnd ⟨f.ls, f.q, f.k⟩ f.d f.a f.b (Ty.ofCode (f.x.extractLsb' 10 4))
  | 4 => planVredoOr ⟨f.ls, f.q, f.k⟩ f.d f.a f.b (Ty.ofCode (f.x.extractLsb' 10 4))
  | 5 => planVredoXor ⟨f.ls, f.q, f.k⟩ f.d f.a f.b (Ty.ofCode (f.x.extractLsb' 10 4))
  | _ => planIllegal

/-- Primary opcode 0x45 (R51). -/
def planOp45 (f : Full) (rm : Rm) : Plan :=
  match f.fn.toNat with
  | 0 => planVredtAdd ⟨f.ls, f.q, f.k⟩ f.d f.a f.b rm (Ty.ofCode (f.x.extractLsb' 10 4)) (f.x.extractLsb' 9 1)
  | 1 => planVredtMin ⟨f.ls, f.q, f.k⟩ f.d f.a f.b (Ty.ofCode (f.x.extractLsb' 10 4))
  | 2 => planVredtMax ⟨f.ls, f.q, f.k⟩ f.d f.a f.b (Ty.ofCode (f.x.extractLsb' 10 4))
  | 3 => planVredtAnd ⟨f.ls, f.q, f.k⟩ f.d f.a f.b (Ty.ofCode (f.x.extractLsb' 10 4))
  | 4 => planVredtOr ⟨f.ls, f.q, f.k⟩ f.d f.a f.b (Ty.ofCode (f.x.extractLsb' 10 4))
  | 5 => planVredtXor ⟨f.ls, f.q, f.k⟩ f.d f.a f.b (Ty.ofCode (f.x.extractLsb' 10 4))
  | _ => planIllegal

/-- Primary opcode 0x46 (R51). -/
def planOp46 (f : Full) (rm : Rm) : Plan :=
  match f.fn.toNat with
  | 0 => planVscanAdd ⟨f.ls, f.q, f.k⟩ f.d f.a f.b rm (Ty.ofCode (f.x.extractLsb' 10 4)) (f.x.extractLsb' 9 1)
  | 1 => planVscanMin ⟨f.ls, f.q, f.k⟩ f.d f.a f.b (Ty.ofCode (f.x.extractLsb' 10 4))
  | 2 => planVscanMax ⟨f.ls, f.q, f.k⟩ f.d f.a f.b (Ty.ofCode (f.x.extractLsb' 10 4))
  | 3 => planVscanAnd ⟨f.ls, f.q, f.k⟩ f.d f.a f.b (Ty.ofCode (f.x.extractLsb' 10 4))
  | 4 => planVscanOr ⟨f.ls, f.q, f.k⟩ f.d f.a f.b (Ty.ofCode (f.x.extractLsb' 10 4))
  | 5 => planVscanXor ⟨f.ls, f.q, f.k⟩ f.d f.a f.b (Ty.ofCode (f.x.extractLsb' 10 4))
  | _ => planIllegal

/-- Primary opcode 0x50 (R51). -/
def planOp50 (f : Full) (_rm : Rm) : Plan :=
  match f.fn.toNat with
  | 0 => planFmtSet f.d f.a
  | 1 => planTidBind f.d f.a
  | 2 => planTidRd f.d f.a (f.x.extractLsb' 0 3)
  | _ => planIllegal

/-- Primary opcode 0x51 (R51). -/
def planOp51 (f : Full) (rm : Rm) : Plan :=
  match f.fn.toNat with
  | 0 => if f.x.extractLsb' 2 1 == 0#1 then (planVcvtTo ⟨f.ls, f.q, f.k⟩ f.d f.a rm (Ty.ofCode (f.x.extractLsb' 10 4)) (f.x.extractLsb' 9 1) (f.x.extractLsb' 3 6))
      else if f.x.extractLsb' 2 1 == 1#1 then (planVcvtFrom ⟨f.ls, f.q, f.k⟩ f.d f.a rm (Ty.ofCode (f.x.extractLsb' 10 4)) (f.x.extractLsb' 9 1) (f.x.extractLsb' 3 6))
      else planIllegal
  | 1 => planVpack ⟨f.ls, f.q, f.k⟩ f.d f.a (Ty.ofCode (f.x.extractLsb' 10 4)) (f.x.extractLsb' 3 6)
  | 2 => planVunpk ⟨f.ls, f.q, f.k⟩ f.d f.a (Ty.ofCode (f.x.extractLsb' 10 4)) (f.x.extractLsb' 3 6)
  | 3 => planVscl ⟨f.ls, f.q, f.k⟩ f.d f.a f.b rm (Ty.ofCode (f.x.extractLsb' 10 4)) (f.x.extractLsb' 9 1) (f.x.extractLsb' 3 6)
  | 4 => planVquant ⟨f.ls, f.q, f.k⟩ f.d f.a f.b rm (Ty.ofCode (f.x.extractLsb' 10 4)) (f.x.extractLsb' 3 6)
  | _ => planIllegal

/-- Primary opcode 0x58 (R51). -/
def planOp58 (f : Full) (_rm : Rm) : Plan :=
  match f.fn.toNat with
  | 0 => planTld f.d f.a f.b (f.x.extractLsb' 14 6)
  | 1 => planTldt f.d f.a f.b (f.x.extractLsb' 14 6)
  | 2 => planTst f.d f.a f.b (f.x.extractLsb' 14 6)
  | 3 => planTzero f.d f.a
  | _ => planIllegal

/-- Primary opcode 0x59 (R51). -/
def planOp59 (f : Full) (_rm : Rm) : Plan :=
  match f.fn.toNat with
  | 0 => planTlatch f.a f.b
  | _ => planIllegal

/-- Primary opcode 0x5A (R51). -/
def planOp5A (f : Full) (_rm : Rm) : Plan :=
  match f.fn.toNat with
  | 0 => planMmr ⟨f.ls, f.q, f.k⟩ f.d f.a f.b (f.x.extractLsb' 3 1)
  | 1 => planMmrT ⟨f.ls, f.q, f.k⟩ f.d f.a f.b (f.x.extractLsb' 14 6) (f.x.extractLsb' 3 1)
  | 2 => planMmrRep ⟨f.ls, f.q, f.k⟩ f.d f.a f.b (f.x.extractLsb' 3 1) (f.x.extractLsb' 0 3)
  | 3 => planMmrSk ⟨f.ls, f.q, f.k⟩ f.d f.a f.b (f.x.extractLsb' 14 6) (f.x.extractLsb' 3 1)
  | _ => planIllegal

/-- Primary opcode 0x60 (R51). -/
def planOp60 (f : Full) (_rm : Rm) : Plan :=
  match f.fn.toNat with
  | 0 => planRnew f.d f.a f.b (f.x.extractLsb' 1 1)
  | 1 => planRcut f.d f.a f.b (f.x.extractLsb' 1 1) (f.x.extractLsb' 0 1)
  | 2 => planRsplc f.d f.a f.b
  | 3 => planRfree f.a
  | _ => planIllegal

/-- Primary opcode 0x61 (R51). -/
def planOp61 (f : Full) (_rm : Rm) : Plan :=
  match f.fn.toNat with
  | 0 => planHmov f.d f.a f.b
  | 1 => planHinfo f.d f.a (f.x.extractLsb' 0 2)
  | _ => planIllegal

/-- Primary opcode 0x62 (R51). -/
def planOp62 (f : Full) (_rm : Rm) : Plan :=
  match f.fn.toNat with
  | 0 => planRld ⟨f.ls, f.q, f.k⟩ f.d f.a f.b
  | 1 => planRst ⟨f.ls, f.q, f.k⟩ f.a f.b (f.x.extractLsb' 14 6)
  | _ => planIllegal

/-- Primary opcode 0x64 (R51). -/
def planOp64 (f : Full) (_rm : Rm) : Plan :=
  match f.fn.toNat with
  | 0 => planLdI8 f.d f.a f.x
  | 1 => planLdI16 f.d f.a f.x
  | 2 => planLdI32 f.d f.a f.x
  | 3 => planLdI64 f.d f.a f.x
  | 4 => planLdN8 f.d f.a f.x
  | 5 => planLdN16 f.d f.a f.x
  | 6 => planLdN32 f.d f.a f.x
  | _ => planIllegal

/-- Primary opcode 0x65 (R51). -/
def planOp65 (f : Full) (_rm : Rm) : Plan :=
  match f.fn.toNat with
  | 0 => planSt8 f.d f.a f.x
  | 1 => planSt16 f.d f.a f.x
  | 2 => planSt32 f.d f.a f.x
  | 3 => planSt64 f.d f.a f.x
  | _ => planIllegal

/-- Primary opcode 0x66 (R51). -/
def planOp66 (f : Full) (rm : Rm) : Plan :=
  match f.fn.toNat with
  | 0 => planVld ⟨f.ls, f.q, f.k⟩ f.d f.a f.b rm (Ty.ofCode (f.x.extractLsb' 10 4)) (f.x.extractLsb' 9 1) (f.x.extractLsb' 8 1) (f.x.extractLsb' 0 8)
  | 1 => planVst ⟨f.ls, f.q, f.k⟩ f.a f.b (f.x.extractLsb' 14 6) (Ty.ofCode (f.x.extractLsb' 10 4)) (f.x.extractLsb' 8 1) (f.x.extractLsb' 0 8)
  | 2 => planVlds ⟨f.ls, f.q, f.k⟩ f.d f.a f.b (Ty.ofCode (f.x.extractLsb' 10 4)) (f.x.extractLsb' 0 8)
  | 3 => planVsts ⟨f.ls, f.q, f.k⟩ f.a f.b (f.x.extractLsb' 14 6) (Ty.ofCode (f.x.extractLsb' 10 4)) (f.x.extractLsb' 0 8)
  | _ => planIllegal

/-- Primary opcode 0x67 (R51). -/
def planOp67 (f : Full) (rm : Rm) : Plan :=
  match f.fn.toNat with
  | 0 => planVgat ⟨f.ls, f.q, f.k⟩ f.d f.a f.b rm (Ty.ofCode (f.x.extractLsb' 10 4)) (f.x.extractLsb' 9 1) (f.x.extractLsb' 7 2) (f.x.extractLsb' 0 2)
  | 1 => planVsca ⟨f.ls, f.q, f.k⟩ f.a f.b (f.x.extractLsb' 14 6) (Ty.ofCode (f.x.extractLsb' 10 4)) (f.x.extractLsb' 7 2) (f.x.extractLsb' 0 2)
  | _ => planIllegal

/-- Primary opcode 0x68 (R51). -/
def planOp68 (f : Full) (rm : Rm) : Plan :=
  match f.fn.toNat with
  | 0 => planVgpool ⟨f.ls, f.q, f.k⟩ f.d f.a f.b rm (f.x.extractLsb' 14 6) (Ty.ofCode (f.x.extractLsb' 10 4)) (f.x.extractLsb' 9 1) (f.x.extractLsb' 7 2) (f.x.extractLsb' 0 2)
  | 1 => planVsadd ⟨f.ls, f.q, f.k⟩ f.a f.b (f.x.extractLsb' 14 6) (Ty.ofCode (f.x.extractLsb' 10 4)) (f.x.extractLsb' 9 1) (f.x.extractLsb' 7 2) (f.x.extractLsb' 0 2)
  | _ => planIllegal

/-- Primary opcode 0x69 (R51). -/
def planOp69 (f : Full) (_rm : Rm) : Plan :=
  match f.fn.toNat with
  | 0 => if f.x.extractLsb' 0 2 == 0#2 then (planTcopy f.d f.a f.b (f.x.extractLsb' 14 6))
      else if f.x.extractLsb' 0 2 == 1#2 then (planTcopyMig f.d f.a f.b)
      else if f.x.extractLsb' 0 2 == 2#2 then (planTcopyRes f.d f.a)
      else planIllegal
  | _ => planIllegal

/-- Primary opcode 0x6A (R51). -/
def planOp6A (f : Full) (_rm : Rm) : Plan :=
  match f.fn.toNat with
  | 0 => planSlabGrow f.d f.a f.b
  | 1 => planSmapSet f.d f.a f.b
  | 2 => planSmapInv f.d f.a f.b
  | _ => planIllegal

/-- Primary opcode 0x6B (R51). -/
def planOp6B (f : Full) (_rm : Rm) : Plan :=
  match f.fn.toNat with
  | 0 => planBankMode f.d f.a f.b
  | _ => planIllegal

/-- Primary opcode 0x6C (R51). -/
def planOp6C (f : Full) (_rm : Rm) : Plan :=
  match f.fn.toNat with
  | 0 => if f.x.extractLsb' 0 2 == 0#2 then (planTlbinvPg f.a f.b)
      else if f.x.extractLsb' 0 2 == 1#2 then (planTlbinvAs f.a)
      else if f.x.extractLsb' 0 2 == 2#2 then (planTlbinvAll)
      else planIllegal
  | 1 => planPprobe f.d f.a
  | _ => planIllegal

/-- Primary opcode 0x6D (R51). -/
def planOp6D (f : Full) (_rm : Rm) : Plan :=
  match f.fn.toNat with
  | 0 => if f.x.extractLsb' 0 2 == 0#2 then (planAsidSwSet f.a)
      else if f.x.extractLsb' 0 2 == 1#2 then (planAsidSwBind f.d f.a f.b)
      else if f.x.extractLsb' 0 2 == 2#2 then (planAsidSwDrop f.d f.a)
      else planIllegal
  | _ => planIllegal

/-- Primary opcode 0x70 (R51). -/
def planOp70 (f : Full) (_rm : Rm) : Plan :=
  match f.fn.toNat with
  | 0 => planAmoSwap f.d f.a f.b (Ty.ofCode (f.x.extractLsb' 10 4)) (f.x.extractLsb' 0 2)
  | 1 => planAmoCas f.d f.a f.b (f.x.extractLsb' 14 6) (Ty.ofCode (f.x.extractLsb' 10 4)) (f.x.extractLsb' 0 2)
  | 2 => planAmoAdd f.d f.a f.b (Ty.ofCode (f.x.extractLsb' 10 4)) (f.x.extractLsb' 0 2)
  | 3 => planAmoFadd f.d f.a f.b (Ty.ofCode (f.x.extractLsb' 10 4)) (f.x.extractLsb' 0 2)
  | 4 => planAmoAnd f.d f.a f.b (Ty.ofCode (f.x.extractLsb' 10 4)) (f.x.extractLsb' 0 2)
  | 5 => planAmoOr f.d f.a f.b (Ty.ofCode (f.x.extractLsb' 10 4)) (f.x.extractLsb' 0 2)
  | 6 => planAmoXor f.d f.a f.b (Ty.ofCode (f.x.extractLsb' 10 4)) (f.x.extractLsb' 0 2)
  | 7 => planAmoMin f.d f.a f.b (Ty.ofCode (f.x.extractLsb' 10 4)) (f.x.extractLsb' 0 2)
  | 8 => planAmoMax f.d f.a f.b (Ty.ofCode (f.x.extractLsb' 10 4)) (f.x.extractLsb' 0 2)
  | 9 => planAmoMinn f.d f.a f.b (Ty.ofCode (f.x.extractLsb' 10 4)) (f.x.extractLsb' 0 2)
  | 10 => planAmoMaxn f.d f.a f.b (Ty.ofCode (f.x.extractLsb' 10 4)) (f.x.extractLsb' 0 2)
  | _ => planIllegal

/-- Primary opcode 0x71 (R51). -/
def planOp71 (f : Full) (_rm : Rm) : Plan :=
  match f.fn.toNat with
  | 0 => planVamoSwap ⟨f.ls, f.q, f.k⟩ f.d f.a f.b (f.x.extractLsb' 14 6) (Ty.ofCode (f.x.extractLsb' 10 4)) (f.x.extractLsb' 7 2) (f.x.extractLsb' 6 1) (f.x.extractLsb' 4 2) (f.x.extractLsb' 0 2)
  | 1 => planVamoCas ⟨f.ls, f.q, f.k⟩ f.d f.a f.b (f.x.extractLsb' 14 6) (Ty.ofCode (f.x.extractLsb' 10 4)) (f.x.extractLsb' 7 2) (f.x.extractLsb' 6 1) (f.x.extractLsb' 4 2) (f.x.extractLsb' 0 2)
  | 2 => planVamoAdd ⟨f.ls, f.q, f.k⟩ f.d f.a f.b (f.x.extractLsb' 14 6) (Ty.ofCode (f.x.extractLsb' 10 4)) (f.x.extractLsb' 7 2) (f.x.extractLsb' 6 1) (f.x.extractLsb' 4 2) (f.x.extractLsb' 0 2)
  | 3 => planVamoFadd ⟨f.ls, f.q, f.k⟩ f.d f.a f.b (f.x.extractLsb' 14 6) (Ty.ofCode (f.x.extractLsb' 10 4)) (f.x.extractLsb' 7 2) (f.x.extractLsb' 6 1) (f.x.extractLsb' 4 2) (f.x.extractLsb' 0 2)
  | 4 => planVamoAnd ⟨f.ls, f.q, f.k⟩ f.d f.a f.b (f.x.extractLsb' 14 6) (Ty.ofCode (f.x.extractLsb' 10 4)) (f.x.extractLsb' 7 2) (f.x.extractLsb' 6 1) (f.x.extractLsb' 4 2) (f.x.extractLsb' 0 2)
  | 5 => planVamoOr ⟨f.ls, f.q, f.k⟩ f.d f.a f.b (f.x.extractLsb' 14 6) (Ty.ofCode (f.x.extractLsb' 10 4)) (f.x.extractLsb' 7 2) (f.x.extractLsb' 6 1) (f.x.extractLsb' 4 2) (f.x.extractLsb' 0 2)
  | 6 => planVamoXor ⟨f.ls, f.q, f.k⟩ f.d f.a f.b (f.x.extractLsb' 14 6) (Ty.ofCode (f.x.extractLsb' 10 4)) (f.x.extractLsb' 7 2) (f.x.extractLsb' 6 1) (f.x.extractLsb' 4 2) (f.x.extractLsb' 0 2)
  | 7 => planVamoMin ⟨f.ls, f.q, f.k⟩ f.d f.a f.b (f.x.extractLsb' 14 6) (Ty.ofCode (f.x.extractLsb' 10 4)) (f.x.extractLsb' 7 2) (f.x.extractLsb' 6 1) (f.x.extractLsb' 4 2) (f.x.extractLsb' 0 2)
  | 8 => planVamoMax ⟨f.ls, f.q, f.k⟩ f.d f.a f.b (f.x.extractLsb' 14 6) (Ty.ofCode (f.x.extractLsb' 10 4)) (f.x.extractLsb' 7 2) (f.x.extractLsb' 6 1) (f.x.extractLsb' 4 2) (f.x.extractLsb' 0 2)
  | 9 => planVamoMinn ⟨f.ls, f.q, f.k⟩ f.d f.a f.b (f.x.extractLsb' 14 6) (Ty.ofCode (f.x.extractLsb' 10 4)) (f.x.extractLsb' 7 2) (f.x.extractLsb' 6 1) (f.x.extractLsb' 4 2) (f.x.extractLsb' 0 2)
  | 10 => planVamoMaxn ⟨f.ls, f.q, f.k⟩ f.d f.a f.b (f.x.extractLsb' 14 6) (Ty.ofCode (f.x.extractLsb' 10 4)) (f.x.extractLsb' 7 2) (f.x.extractLsb' 6 1) (f.x.extractLsb' 4 2) (f.x.extractLsb' 0 2)
  | _ => planIllegal

/-- Primary opcode 0x72 (R51). -/
def planOp72 (f : Full) (rm : Rm) : Plan :=
  match f.fn.toNat with
  | 0 => planVgl ⟨f.ls, f.q, f.k⟩ f.d f.a f.b rm (Ty.ofCode (f.x.extractLsb' 10 4)) (f.x.extractLsb' 9 1) (f.x.extractLsb' 7 2) (f.x.extractLsb' 0 2)
  | 1 => planVscc ⟨f.ls, f.q, f.k⟩ f.d f.a f.b (f.x.extractLsb' 14 6) (Ty.ofCode (f.x.extractLsb' 10 4)) (f.x.extractLsb' 7 2) (f.x.extractLsb' 0 2)
  | _ => planIllegal

/-- Primary opcode 0x73 (R51). -/
def planOp73 (f : Full) (_rm : Rm) : Plan :=
  match f.fn.toNat with
  | 0 => planXredAdd ⟨f.ls, f.q, f.k⟩ f.d f.a (Ty.ofCode (f.x.extractLsb' 10 4)) (f.x.extractLsb' 0 3)
  | 1 => planXredMin ⟨f.ls, f.q, f.k⟩ f.d f.a (Ty.ofCode (f.x.extractLsb' 10 4)) (f.x.extractLsb' 0 3)
  | 2 => planXredMax ⟨f.ls, f.q, f.k⟩ f.d f.a (Ty.ofCode (f.x.extractLsb' 10 4)) (f.x.extractLsb' 0 3)
  | _ => planIllegal

/-- Primary opcode 0x74 (R51). -/
def planOp74 (f : Full) (_rm : Rm) : Plan :=
  match f.fn.toNat with
  | 0 => planFence
  | 1 => if f.x.extractLsb' 0 3 == 0#3 then (planFenceFab)
      else if f.x.extractLsb' 0 3 == 1#3 then (planFenceFabAcq)
      else if f.x.extractLsb' 0 3 == 2#3 then (planFenceFabRel)
      else if f.x.extractLsb' 0 3 == 5#3 then (planFenceFabAcqLoad f.d f.a)
      else if f.x.extractLsb' 0 3 == 6#3 then (planFenceFabRelStore f.a f.b)
      else planIllegal
  | 2 => if f.x.extractLsb' 0 3 == 0#3 then (planFencePool)
      else if f.x.extractLsb' 0 3 == 1#3 then (planFencePoolAcq)
      else if f.x.extractLsb' 0 3 == 2#3 then (planFencePoolRel)
      else if f.x.extractLsb' 0 3 == 5#3 then (planFencePoolAcqLoad f.d f.a)
      else if f.x.extractLsb' 0 3 == 6#3 then (planFencePoolRelStore f.a f.b)
      else planIllegal
  | _ => planIllegal

/-- Primary opcode 0x75 (R51). -/
def planOp75 (f : Full) (_rm : Rm) : Plan :=
  match f.fn.toNat with
  | 0 => planWaitTl f.a f.b
  | 1 => planTlNext f.d f.a
  | _ => planIllegal

/-- Primary opcode 0x78 (R51). -/
def planOp78 (f : Full) (_rm : Rm) : Plan :=
  match f.fn.toNat with
  | 0 => if f.x.extractLsb' 4 1 == 0#1 then (planTwalk ⟨f.ls, f.q, f.k⟩ f.d f.a f.b (f.x.extractLsb' 14 6) (Ty.ofCode (f.x.extractLsb' 10 4)) (f.x.extractLsb' 0 4))
      else if f.x.extractLsb' 4 1 == 1#1 then (planTwalkX ⟨f.ls, f.q, f.k⟩ f.d f.a f.b (f.x.extractLsb' 14 6) (Ty.ofCode (f.x.extractLsb' 10 4)) (f.x.extractLsb' 0 4))
      else planIllegal
  | 1 => planTwupd f.d f.a f.b (f.x.extractLsb' 14 6) (Ty.ofCode (f.x.extractLsb' 10 4))
  | 2 => planTwrd ⟨f.ls, f.q, f.k⟩ f.d f.a (f.x.extractLsb' 0 2)
  | _ => planIllegal

/-- Primary opcode 0x79 (R51). -/
def planOp79 (f : Full) (_rm : Rm) : Plan :=
  match f.fn.toNat with
  | 0 => planTwbuild f.d f.a f.b (f.x.extractLsb' 14 6) (Ty.ofCode (f.x.extractLsb' 10 4))
  | _ => planIllegal

/-- Primary opcode 0x7F (R51). -/
def planOp7F (f : Full) (rm : Rm) : Plan :=
  match f.fn.toNat with
  | 0 => planNop
  | 1 => planYield_
  | 2 => if f.x.extractLsb' 10 1 == 0#1 then (planPf f.a (f.x.extractLsb' 0 9))
      else if f.x.extractLsb' 10 1 == 1#1 then (planPfW f.a (f.x.extractLsb' 0 9))
      else planIllegal
  | _ => planHintNop f.fn f.d f.a f.b ⟨f.ls, f.q, f.k⟩ rm f.x

/-- The meaning that the opcode and function code name, with operands read from their fields. -/
def planFull (f : Full) (rm : Rm) : Plan :=
  match f.op.toNat with
  | 0x01 => planOp01 f rm
  | 0x02 => planOp02 f rm
  | 0x03 => planOp03 f rm
  | 0x04 => planOp04 f rm
  | 0x05 => planOp05 f rm
  | 0x06 => planOp06 f rm
  | 0x07 => planOp07 f rm
  | 0x08 => planOp08 f rm
  | 0x09 => planOp09 f rm
  | 0x0A => planOp0A f rm
  | 0x0B => planOp0B f rm
  | 0x0C => planOp0C f rm
  | 0x0D => planOp0D f rm
  | 0x10 => planOp10 f rm
  | 0x11 => planOp11 f rm
  | 0x12 => planOp12 f rm
  | 0x13 => planOp13 f rm
  | 0x14 => planOp14 f rm
  | 0x15 => planOp15 f rm
  | 0x16 => planOp16 f rm
  | 0x17 => planOp17 f rm
  | 0x20 => planOp20 f rm
  | 0x21 => planOp21 f rm
  | 0x22 => planOp22 f rm
  | 0x23 => planOp23 f rm
  | 0x28 => planOp28 f rm
  | 0x29 => planOp29 f rm
  | 0x2A => planOp2A f rm
  | 0x2B => planOp2B f rm
  | 0x2C => planOp2C f rm
  | 0x2D => planOp2D f rm
  | 0x2E => planOp2E f rm
  | 0x2F => planOp2F f rm
  | 0x30 => planOp30 f rm
  | 0x31 => planOp31 f rm
  | 0x32 => planOp32 f rm
  | 0x33 => planOp33 f rm
  | 0x40 => planOp40 f rm
  | 0x41 => planOp41 f rm
  | 0x42 => planOp42 f rm
  | 0x43 => planOp43 f rm
  | 0x44 => planOp44 f rm
  | 0x45 => planOp45 f rm
  | 0x46 => planOp46 f rm
  | 0x50 => planOp50 f rm
  | 0x51 => planOp51 f rm
  | 0x58 => planOp58 f rm
  | 0x59 => planOp59 f rm
  | 0x5A => planOp5A f rm
  | 0x60 => planOp60 f rm
  | 0x61 => planOp61 f rm
  | 0x62 => planOp62 f rm
  | 0x64 => planOp64 f rm
  | 0x65 => planOp65 f rm
  | 0x66 => planOp66 f rm
  | 0x67 => planOp67 f rm
  | 0x68 => planOp68 f rm
  | 0x69 => planOp69 f rm
  | 0x6A => planOp6A f rm
  | 0x6B => planOp6B f rm
  | 0x6C => planOp6C f rm
  | 0x6D => planOp6D f rm
  | 0x70 => planOp70 f rm
  | 0x71 => planOp71 f rm
  | 0x72 => planOp72 f rm
  | 0x73 => planOp73 f rm
  | 0x74 => planOp74 f rm
  | 0x75 => planOp75 f rm
  | 0x78 => planOp78 f rm
  | 0x79 => planOp79 f rm
  | 0x7F => planOp7F f rm
  | _ => planIllegal

/-- The compact op of a slot (R44), before its checks. -/
def planSlot (s : BitVec 30) : Plan :=
  let d := s.extractLsb' 20 5
  let o := CArg.ofBits (s.extractLsb' 0 20)
  match (s.extractLsb' 25 5).toNat with
  | 1 => planAddC d o
  | 2 => planSubC d o
  | 3 => planMulC d o
  | 4 => planAndC d o
  | 5 => planOrC d o
  | 6 => planXorC d o
  | 7 => planAndnC d o
  | 8 => planShlC d o
  | 9 => planShrC d o
  | 10 => planSraC d o
  | 11 => planMinC d o
  | 12 => planMaxC d o
  | 13 => planMinnC d o
  | 14 => planMaxnC d o
  | 15 => planLiC d o
  | 16 => planVaddC d o
  | 17 => planVsubC d o
  | 18 => planVmulC d o
  | 19 => planVandC d o
  | 20 => planVorC d o
  | 21 => planVxorC d o
  | 22 => planVshlC d o
  | 23 => planVshrC d o
  | 24 => planVsraC d o
  | 25 => planVminC d o
  | 26 => planVmaxC d o
  | 27 => planVfaddC d o
  | 28 => planVfsubC d o
  | 29 => planVfmulC d o
  | 30 => planVfminC d o
  | 31 => planVfmaxC d o
  | _ => planNopC

/-- The meaning of a word, of slot B of a pair word where `slotB` says so. -/
def planOfWord (w : Word) (slotB : Bool) : Plan :=
  if w.getLsbD 62 then planSlot (if slotB then w.extractLsb' 1 30 else w.extractLsb' 31 30)
  else
    let f := Full.unpack (w.extractLsb' 0 61)
    match Rm.ofCode f.rm with
    | none => planIllegal
    | some rm => planFull f rm

end Sys2Proof.Machine
end

