-- ==== Sys2Proof/Machine/Convoy.lean ====
section
/-!
DEFINITION. The words of a convoy (03, R46–R48; 05, R89): their fetch, the structural rules of R47, and the checks of R48
said of the words alone, for the events of fetch and illegality and for convoys reissued from an image (R317).
-/

namespace Sys2Proof.Machine

/-- A word of `asid.sw.set` (R236): op 0x6D, x[1:0] 0. -/
def isSwSet (w : Word) : Bool := !w.getLsbD 62 && field w 54 7 == 0x6D && field w 0 2 == 0

/-- The strand has an `asid.sw.set` in flight, which has still to give it the ASID of its next fetch (R236). -/
def Strand.swapping (t : Strand) : Bool := t.flight.any fun c => c.entries.any fun e => isSwSet e.word && !e.done

/-- A strand that may issue: not stopped, not in `halt`, its newest convoy's next address and its ASID known. -/
def Strand.mayIssue (t : Strand) : Bool :=
  !t.stopped && !t.halting && !t.swapping && t.flight.all fun c => c.next.isSome

/-- The word that a fetch gets at a place (R91): what stands there, or, in loaded code that has been written to since, any
of its older values. -/
def State.codeWord (s : State) (p : Place) : Word :=
  let now : Word := BitVec.ofNat 64 (s.readNat p 8)
  match p.line with
  | none => now
  | some l =>
    let d := 8 * l + p.offset / 8
    match (s.oldCode.filter fun w => w.1 == d).map Prod.snd with
    | [] => now
    | ws => (now :: ws).getD (Config.oldWord s.choice d % (ws.length + 1)) now

/-- The words of a convoy from an address on, up to the first with E = 1, at most `n`, and not past an all-zero word
(R46, R89, R90); or the fetch fault of the first word that fails (R48 check 1). -/
def State.fetchWords (s : State) (core asid : Nat) (lvl : Level) (at_ : Word) : Nat → Except Trap (List Word)
  | 0 => .ok []
  | n + 1 =>
    match s.xlate (clusterOf core) asid lvl .fetch .fetch at_ with
    | .error r => .error { cause := 4, info := r, addr := at_ }
    | .ok p =>
      if s.poisoned p then .error { cause := 4, info := 10, addr := at_, log := p.errRecord }
      else
        let w := s.codeWord p
        if w.getLsbD 63 || w == 0 then .ok [w]
        else
          match s.fetchWords core asid lvl (at_ + 8#64) n with
          | .error e => .error e
          | .ok ws => .ok (w :: ws)

/-- The tiles among some names. -/
def tilesIn (ns : List Name) : List Name := ns.filter fun n => match n with | .t _ => true | _ => false

/-- `tst`: of class M, it reads a tile (R189). -/
def Plan.drains (p : Plan) : Bool := p.cls == .m && !(tilesIn p.reads).isEmpty

/-- `mmr.t`: of class X, it reads a tile and leaves the latch (R192). -/
def Plan.rows (p : Plan) : Bool := p.cls == .x && !(tilesIn p.reads).isEmpty && !p.writes.contains .latch

/-- Two instructions name one tile, and they are not `tst` together with `mmr.t` (R185). -/
def tilesClash (a b : Plan) : Bool :=
  !((a.drains && b.rows) || (a.rows && b.drains)) &&
    (tilesIn (a.reads ++ a.writes)).any fun n => (tilesIn (b.reads ++ b.writes)).contains n

/-- A name of one of the files of R41, which R47 speaks of. -/
def Name.filed : Name → Bool
  | .s _ => true
  | .v _ => true
  | .q _ => true
  | .t _ => true
  | .h _ => true
  | .td _ => true
  | .tl _ => true
  | .fmt _ => true
  | .latch => true
  | .spr => false
  | .p _ => false
  | .spill _ => false
  | .frst => false
  | .fsz => false
  | .fctl => false
  | .flags => false

/-- R47 on two instructions of one convoy, `a` the earlier. -/
def pairLegal (a b : Plan) : Bool :=
  !(a.writes.any fun n => n.filed && b.writes.contains n) && !tilesClash a b &&
    (match b.len with
      | none => true
      | some ls => !a.writes.contains (.s (40 + ls.toNat)))

/-- Every earlier instruction with every later one. -/
def pairsLegal : List Plan → Bool
  | [] => true
  | a :: rest => rest.all (pairLegal a) && pairsLegal rest

/-- The structural rules of R47 and R185 (R48 check 5). -/
def structural (ps : List Plan) : Bool :=
  let count := fun k => (ps.filter fun p => p.cls == k).length
  count .m ≤ 2 && count .x ≤ 1 && (count .z == 0 || ps.length == 1) &&
    (ps.dropLast.all fun p => p.cls != .c) && pairsLegal ps

/-! ### The checks of R48 on words -/

/-- The instructions of a list of words: the word's place, the word, and whether it is slot B of a pair word (R46). -/
def piecesOf (ws : List Word) : List (Nat × Word × Bool) :=
  (ws.mapIdx fun i w => if w.getLsbD 62 then [(i, w, false), (i, w, true)] else [(i, w, false)]).flatten

/-- The bank rule of R45 is all that is wrong with a pair word, and slot A, an even register, keeps it. -/
def bankBrokenByB (w : Word) : Bool :=
  !w.getLsbD 0 && !bankOk (w.extractLsb' 31 30) (w.extractLsb' 1 30) && !w.getLsbD 51

/-- Check 3 of R48: the first word that is illegal, slot B where only that slot is. -/
def illegalTrap (ws : List Word) : Option Trap :=
  (ws.mapIdx fun i w => (i, w)).findSome? fun p =>
    if !legalWord p.2 || (p.1 != 0 && p.2.getLsbD 61) then
      some { cause := 1, word := p.1
             slotB := p.2.getLsbD 62 && legalSlot (p.2.extractLsb' 31 30) &&
               (!legalSlot (p.2.extractLsb' 1 30) || bankBrokenByB p.2) }
    else none

/-- The trap that the convoy at the strand's PC raises by R48, if any: fetch, landing, illegality, privilege, structure. -/
def State.convoyTrap (s : State) (core : Nat) (t : Strand) : Option Trap :=
  match s.fetchWords core t.asid t.lvl t.pc 4 with
  | .error e => some e
  | .ok ws =>
    let ps := piecesOf ws
    firstTrap [require (!t.landing || (ws.headD 0).getLsbD 61) { cause := 5, info := 1, xinfo := t.xfer },
      illegalTrap ws,
      ps.findSome? (fun p => require ((planOfWord p.2.1 p.2.2).lvl.num ≤ t.lvl.num) { cause := 3, word := p.1, slotB := p.2.2 }),
      require ((ws.getLast?.getD 0).getLsbD 63 && structural (ps.map fun p => planOfWord p.2.1 p.2.2)) { cause := 2 }]

/-- The checks of R48, in their order, on a convoy that is reissued from an image (R317): the first instruction that fails,
by its place, and the trap. An instruction that is DONE is not checked. `lands` is the convoy of a `jmp` or `calli` that
leads here. -/
def Convoy.refused (c : Convoy) (lvl : Level) (lands : Option Word) : Option (Nat × Trap) :=
  let es := (c.entries.mapIdx fun j e => (j, e)).filter fun x => !x.2.done
  let word := fun (e : Entry) => wordsIn (c.entries.filter fun x => x.pos ≤ e.pos) - 1
  let first := fun (f : Entry → Option Trap) => es.findSome? fun x => (f x.2).map fun t => (x.1, t)
  (lands.bind fun x => first fun e => require (e.pos != 0 || e.word.getLsbD 61) { cause := 5, info := 1, xinfo := x }).or
    ((first fun e => require (legalWord e.word && (word e == 0 || !e.word.getLsbD 61))
        { cause := 1, word := word e, slotB := e.slotB }).or
      ((first fun e => require ((planOfWord e.word e.slotB).lvl.num ≤ lvl.num) { cause := 3, word := word e, slotB := e.slotB }).or
        (first fun _ => require (structural (c.entries.map fun x => planOfWord x.word x.slotB)) { cause := 2 })))

end Sys2Proof.Machine
end

