-- ==== Sys2Proof/Machine/Run.lean ====
section
/-!
DEFINITION. Issue and retirement (05, R80–R82; 07, R133, R136–R138; 16, R306, R316, R317): what every
instruction's meaning goes through. `run` makes the checks of R49 and issues the instruction; the last
instruction of a convoy closes it, and the strand's work in flight then settles: what can fire fires,
complete convoys retire oldest first, and a fault of the oldest convoy is delivered.
-/

namespace Sys2Proof.Machine

/-- Names that hold an instruction back in its own convoy: masks chain through the tags of their bits (R137), and a tensor
identifier is read as it stood when the convoy issued (R171). -/
def Name.chains : Name → Bool
  | .q _ => false
  | .td _ => false
  | n => n.boards

/-- A source or destination is still pending in an older instruction of the same convoy, or an `mts` there has not taken
effect (R110). -/
def blockedBy (p : Plan) (before : List Entry) : Bool :=
  let pend := before.flatMap Entry.pend
  pend.contains .spr || (p.reads.any fun n => n.chains && pend.contains n) ||
    p.writes.any fun n => n.chains && n.writeWaits pend

/-- The scoreboard (R81 reason 2): a name that the instruction reads or writes through the window at `fb` is pending. -/
def Plan.boarded (p : Plan) (fb : Nat) (pend : List Name) : Bool :=
  (p.reads.any fun n => n.boards && pend.contains (n.through fb)) || p.writes.any fun n => (n.through fb).writeWaits pend

/-- Destinations in flight in a core: fresh physical registers not yet freed (R137, R138). -/
def Core.fresh (k : Core) (f : Entry → Nat) : Nat :=
  k.slots.foldl (fun n t => t.2.flight.foldl (fun n c => c.entries.foldl (fun n e => n + f e) n) n) 0

/-- Free physical registers for the names the instruction writes (R138 reason 10): 128 and 32 less one per
name and those in flight; and the 96 destination slots of an image (R312). -/
def Plan.renames (p : Plan) (k : Core) : Bool :=
  let nv := (p.writes.filterMap Name.vreg).length
  let nq := (p.writes.filterMap Name.qreg).length
  nv + nq == 0 || (decide (nv + k.fresh (fun e => e.vd.length) ≤ 96) &&
    decide (nq + k.fresh (fun e => e.qd.length) ≤ 25) && decide (nv + nq + k.fresh Entry.dests ≤ 96))

/-- Checked instructions in flight: entries of the dailies queue in use (R328). -/
def Core.checked (k : Core) : Nat := k.fresh fun e => if e.chk then 1 else 0

/-- The dailies queue has no entry for a checked instruction that has to have one (R328 MODE 2). -/
def Plan.queueFull (p : Plan) (s : State) : Bool := p.chk && s.curCore.dmode == 2 && decide (32 ≤ s.curCore.checked)

/-- A word of `bar.k`. -/
def isBarrier (w : Word) : Bool := !w.getLsbD 62 && field w 54 7 == 8 && field w 48 6 == 1

/-- The strand waits at a barrier (R78): younger convoys do not issue. -/
def Strand.atBarrier (t : Strand) : Bool :=
  t.flight.any fun c => c.closed && c.entries.any fun e => !e.done && isBarrier e.word

/-- The reasons of R81 for which the convoy of this instruction waits now. -/
def Plan.reasons (p : Plan) (s : State) : List Nat :=
  let k := s.curCore
  (if p.boarded s.me.r.fb s.me.pending || s.me.pending.contains .spr || (p.strict && blockedBy p s.me.same) then [2] else []) ++
    (if s.cur.pos = 0 && s.me.monitor.isSome then [8] else []) ++
    (if s.cur.pos = 0 && s.me.atBarrier then [7] else []) ++
    (if p.renames k then [] else [10]) ++
    (if p.queueFull s then [10] else []) ++
    (if s.me.vec.isSome && (p.lanes || p.cls == .z) then [9] else if p.lanes && !s.holdsLanes then [] else p.waits s)

/-- The privilege check (R48 check 4). -/
def Plan.privileged (p : Plan) (s : State) : Option Trap :=
  require (p.lvl.num ≤ s.me.lvl.num) { cause := 3, word := s.cur.idx, slotB := s.cur.slotB }

/-- The frame check of R94: with a link pending, only `frame` issues; a link that stood when a handler began asks
nothing of the handler (R309, log 8). -/
def Plan.frameCheck (p : Plan) (s : State) : Option Trap :=
  require (p.frame || s.me.r.plink.isNone || s.me.kept.headD false) { cause := 5, info := 2, xinfo := s.me.xfer }

/-- The word of the register file behind scalar operand `n` (R324): a physical register, or 256 and more for g. -/
def Scalars.wordNo (r : Scalars) (n : Nat) : Nat := if n < 32 then r.physNo n else 224 + n

/-- The words behind the scalar names of a list. -/
def Scalars.wordsOf (r : Scalars) (ns : List Name) : List Nat :=
  ns.filterMap fun n =>
    match n with
    | .s i => some (r.wordNo i)
    | _ => none

/-- A scalar source whose word holds an uncorrectable error (R324). -/
def Plan.lostCheck (p : Plan) (s : State) : Option Trap :=
  ((s.me.r.wordsOf p.reads).find? fun w => s.me.lost.contains w).map fun w => { cause := 9, info := 2, log := some (4, 2, w) }

/-- The checks of R49 in their order, with those of the entry; an uncorrectable register word (R324), which neither rule
ranks among them, comes third (log 114). -/
def Plan.checksWith (p : Plan) (check : Option Trap) (s : State) : Option Trap :=
  firstTrap [p.frameCheck s, require (!p.lanes || s.holdsLanes) { cause := 14 }, p.lostCheck s, check]

/-- The checks of R49 at issue. -/
def Plan.checks (p : Plan) (s : State) : Option Trap := p.checksWith (p.check s) s

/-- What a register word held is gone once it is written. -/
def State.overwrite (s : State) (p : Plan) : State :=
  if s.me.lost.isEmpty then s
  else s.setMe { s.me with lost := s.me.lost.filter fun w => !(s.me.r.wordsOf p.writes).contains w }

/-- The values of the scalar sources (R100). -/
def captureArgs (r : Scalars) (reads : List Name) : Tab Word :=
  reads.filterMap fun n =>
    match n with
    | .s i => some (i, r.get i)
    | _ => none

/-- Names still pending after a firing: a scalar result that has been given is not among them. -/
def Entry.settlePend (e : Entry) (p : Plan) : Entry :=
  if e.done then { e with pend := [] }
  else { e with pend := ((p.writes.filter fun n => !(e.given && n.sreg.isSome)) ++ p.reads.filter (fun n => !n.boards) ++ e.pend).filter Name.kept }

/-- One firing of an entry whose scalar sources are ready. Its faults and holds are found anew. -/
def Plan.fireNow (p : Plan) (s : State) (older : List Entry) (e : Entry) : State × Entry :=
  let e := if e.args.isEmpty then { e with args := captureArgs s.me.r p.reads } else e
  let (s1, e1) := p.fire s older { e with flt := none, held := false, pend := [] }
  (s1, e1.settlePend p)

/-- The entries of a strand's flight older than the newest, newest first. -/
def Strand.olderAll (t : Strand) : List Entry := (t.flight.flatMap Convoy.entries).reverse

/-- A convoy of the strand begins to issue. -/
def Strand.begin (t : Strand) (c : Convoy) : Strand := { t with flight := t.flight ++ [c], wait := 0, landing := false }

/-- A convoy of the strand has issued: where the strand continues. -/
def Strand.issuedAt (t : Strand) (pc : Word) (cycle : Nat) : Strand := { t with pc := pc, lastIssue := cycle }

/-- The oldest convoy of the strand gone. -/
def Strand.pass (t : Strand) : Strand := { t with flight := t.flight.tail }

/-- A convoy opened for the instruction at its first position. -/
def State.openConvoy (s : State) : State :=
  s.setMe (s.me.begin ⟨s.cur.base, s.cur.nwords, s.me.r, [], none, false⟩)

/-- An instruction's entry put at the end of its convoy. -/
def Convoy.add (e : Entry) (c : Convoy) : Convoy := { c with entries := c.entries ++ [e] }

/-- A convoy all of whose instructions have issued. -/
def Convoy.close (next : Option Word) (c : Convoy) : Convoy := { c with next := next, closed := true }

/-- The newest convoy in flight changed. -/
def Strand.mapLast (t : Strand) (f : Convoy → Convoy) : Strand :=
  match t.flight.reverse with
  | [] => t
  | c :: r => { t with flight := (f c :: r).reverse }

/-- A checked instruction takes an entry of the dailies queue, or is counted unchecked (R328). -/
def Plan.enqueue (p : Plan) (s : State) : State × Bool :=
  let k := s.curCore
  if !p.chk || k.dmode == 0 then (s, false)
  else if k.checked < 32 then ({ s with agenda := s.agenda ++ [.dailiesRecheck s.cur.core s.cur.slot] }, true)
  else if k.dmode == 1 then (s.setCore s.cur.core { k with unchk := min (k.unchk + 1) (2 ^ 32 - 1) }, false)
  else (s, false)

/-- The instruction issued: fired once, and its entry put at the end of the open convoy. -/
def Plan.issue (p : Plan) (s : State) : State :=
  let s := (if s.cur.pos = 0 then s.openConvoy else s).overwrite p
  let n := match p.len with
    | none => 0
    | some ls => s.len ls
  let (s, chk) := p.enqueue s
  let e := { Entry.start s.cur.word s.cur.slotB s.cur.pos n p with chk := chk, stamp := s.cycle, aux := p.copies s }
  let (s1, e1) :=
    if blockedBy p s.me.same then (s, { e with pend := (p.reads ++ p.writes).filter Name.kept })
    else p.fireNow s s.me.olderAll e
  s1.setMe (s1.me.mapLast (Convoy.add e1))

/-- The next address of a convoy, once its last instruction gives it (R92); a `ret` gives it before its refill (R105). -/
def nextOf (p : Plan) (e : Entry) (succ : Word) : Option Word :=
  if p.cls == .c then (if e.done || e.res != 0 then some e.res else none) else some succ

/-- The convoy closed after its last instruction: the strand continues at the next address. -/
def Plan.close (p : Plan) (s : State) : State :=
  let t := s.me
  let next := match (t.flight.getLast?.bind fun c => c.entries.getLast?) with
    | none => some s.cur.succ
    | some e => nextOf p e s.cur.succ
  s.setMe ((t.mapLast (Convoy.close next)).issuedAt (next.getD t.pc) s.cycle)

/-- The place of an entry in flight. -/
def State.aim (s : State) (core slot : Nat) (c : Convoy) (e : Entry) : State :=
  s.setCur ⟨core, slot, c.base, c.nwords, e.pos, 0, e.word, e.slotB, c.entries.getLast?.map Entry.pos == some e.pos⟩

/-- An entry of a strand's flight replaced. -/
def Strand.putEntry (t : Strand) (i j : Nat) (e : Entry) : Strand :=
  { t with flight := t.flight.modify i fun c => { c with entries := c.entries.set j e } }

/-- Scalar registers changed through the window at `fb` (R101). -/
def Scalars.through (fb : Nat) (f : Scalars → Scalars) (r : Scalars) : Scalars :=
  { f { r with fb := fb } with fb := r.fb }

/-- The scalar result of an instruction put into registers: as a DONE instruction of an image is reissued (R317),
and into the states before younger convoys, which an image may have to hold (R312). -/
def writeResult (p : Plan) (e : Entry) (r : Scalars) : Scalars :=
  match p.sdest with
  | some n => r.put n e.res
  | none => r

/-- The registers that a refill read, by number. -/
def fillRegs : List Nat → List Nat
  | p :: _ :: rest => p :: fillRegs rest
  | _ => []

/-- What a late refill leaves in the state before a younger convoy (R107): the registers and the frames that it brought
back, which lie below every frame opened since. -/
def refilled (e : Entry) (now r : Scalars) : Scalars :=
  if isRet e.word && !e.aux.isEmpty then
    let regs := fillRegs e.aux
    let frames := now.sizes.filter fun p => regs.contains p.1
    let r1 := { r with
      phys := writePhys e.aux r.phys, nres := r.nres + regs.length, bsp := r.bsp - BitVec.ofNat 64 (8 * (regs.length + frames.length))
      sizes := frames.foldl (fun (t : Tab Nat) (p : Nat × Nat) => Tab.put t p.1 p.2) r.sizes }
    { r1 with fsz := r1.currentSize }
  else r

/-- A late result reaches the states before the convoys younger than convoy `i`, whose window is at `fb`. -/
def Strand.lateResult (t : Strand) (p : Plan) (fb i : Nat) (e : Entry) : Strand :=
  { t with flight := t.flight.mapIdx fun j c =>
      if i < j then { c with before := refilled e t.r (c.before.through fb (writeResult p e)) } else c }

/-- The transfer at the end of convoy `i` of a strand has resolved: the strand, or the next convoy that is reissued,
continues there (R92, R317). -/
def Strand.resolve (t : Strand) (i : Nat) (a : Word) : Strand :=
  let younger := placeConvoys (t.flight.drop (i + 1)) a
  { t with
    pc := afterConvoys younger a
    landing := t.landing && younger.isEmpty
    flight := (t.flight.take (i + 1)).modify i (fun c => { c with next := some a }) ++ younger }

/-- A strand as an entry of its convoy `i` finds it when it is reissued: the convoys before it, the entries before it, and,
but for a `frame`, no link that the `call` of this or a younger convoy has left (R94, R317). -/
def Strand.viewAt (t : Strand) (i j : Nat) (c : Convoy) (frame : Bool) : Strand :=
  { t with
    r := if !frame && (t.flight.drop i).any fun c => c.entries.any fun e => isCall e.word then { t.r with plink := none }
      else t.r
    flight := t.flight.take i ++ [{ c with entries := c.entries.take j, closed := false }] }

/-- A DONE `call` of convoy `i` whose link a `frame` older than it, reissued before it, has not left standing: the link of
the saved state was that frame's (R314), and its own `frame` has still to take its link. -/
def Strand.relink (t : Strand) (i : Nat) (c : Convoy) (e : Entry) : Strand :=
  let frames := fun (cs : List Convoy) => cs.any fun c => c.entries.any fun e => isFrame e.word
  let taken := fun (cs : List Convoy) => cs.any fun c => c.entries.any fun e => isFrame e.word && e.done
  if isCall e.word && t.r.plink.isNone && frames (t.flight.take i) && !taken (t.flight.drop i) then
    t.withLink ((c.base + BitVec.ofNat 64 (8 * c.nwords)) ||| (if field e.word 54 7 == 5 then 1#64 else 0#64))
  else t

/-- One firing of entry `j` of convoy `i`, in the window of its convoy (R101), with what follows from its completion. -/
def State.fireAt (s : State) (i j : Nat) (c : Convoy) (p : Plan) (older : List Entry) (e : Entry) : State :=
  let home := s.me.r.fb
  let (s1, e1) := p.fireNow (s.setR { s.me.r with fb := c.before.fb }) older e
  let r := s1.me.r
  let t := { s1.me with r := { r with fb := if r.fb = c.before.fb then home else r.fb } }
  let t1 := t.putEntry i j e1
  let s1 := s1.setMe (if e1.given && !e.given then t1.lateResult p c.before.fb i e1 else t1)
  if j + 1 = c.entries.length && p.cls == .c && c.next.isNone then
    match nextOf p e1 s1.cur.succ with
    | none => s1
    | some a => s1.setMe (s1.me.resolve i a)
  else s1

/-- A DONE instruction of a convoy that is reissued writes its scalar result, and does nothing else (R317). -/
def State.reissueDone (s : State) (i j : Nat) (c : Convoy) (p : Plan) (e : Entry) : State :=
  let t := s.me
  s.setMe ((({ t with r := t.r.through c.before.fb (writeResult p e) } : Strand).putEntry i j
    { e with again := false, sd := p.sdest, ending := p.ending }).relink i c e)

/-- The machine as entry `j` of convoy `i` finds it when it is reissued: in the window of its convoy. -/
def State.viewAt (s : State) (i j : Nat) (c : Convoy) (p : Plan) : State :=
  let inside := s.setR { s.me.r with fb := c.before.fb }
  inside.setMe (inside.me.viewAt i j c p.frame)

/-- An instruction of a convoy that is reissued waits for what issue waits for (R81); the second says that its own entry
makes it wait. -/
def State.reissueWaits (s : State) (i j : Nat) (c : Convoy) (p : Plan) (e : Entry) : Bool × Bool :=
  let view := s.viewAt i j c p
  let pend := view.me.pending
  ((p.strict && blockedBy p (c.entries.take j)) || p.boarded c.before.fb pend || pend.contains .spr ||
      (j == 0 && (s.me.monitor.isSome || view.me.atBarrier)) || p.queueFull view,
    !p.resumed view e && !(p.waits view).isEmpty)

/-- It issues again: what R317 lets it do, it does as at its first issue. -/
def State.reissueGo (s : State) (i j : Nat) (c : Convoy) (p : Plan) (older : List Entry) (e : Entry) : State :=
  let (s1, chk) := p.enqueue s
  let e := { e with
    n := (p.len.map (s.viewAt i j c p).len).getD 0, w := p.w, sd := p.sdest, ending := p.ending, mem := p.mem, stamp := s.cycle
    aux := e.aux ++ p.copies s, pend := (p.reads ++ p.writes).filter Name.kept
    again := false, held := false, flt := none, chk := chk }
  let s2 := if e.given then s1.setR (s1.me.r.through c.before.fb (writeResult p e)) else s1
  if blockedBy p (c.entries.take j) then s2.setMe (s2.me.putEntry i j e) else s2.fireAt i j c p older e

/-- Why a convoy is not reissued now: at the entry of this number a check fails, or it waits. -/
inductive Snub where
  | trap (j : Nat) (t : Trap)
  | wait (j : Nat) (own : Bool)

/-- The entries of convoy `i` of a strand from `j` on reissued in order, as at issue: each waits, is checked by R49 and
issues, and the first that does not leaves none issued (R48, R49, R317). -/
def State.reissueFrom (s : State) (core slot i j : Nat) : (count : Nat) → Except Snub State
  | 0 => .ok s
  | n + 1 =>
    match s.strandAt core slot with
    | none => .ok s
    | some t =>
      match t.flight[i]?.bind fun c => c.entries[j]?.map fun e => (c, e) with
      | none => .ok s
      | some (c, e) =>
        let p := planOfWord e.word e.slotB
        let s := s.aim core slot c e
        if e.done then (s.reissueDone i j c p e).reissueFrom core slot i (j + 1) n
        else
          let (waits, own) := s.reissueWaits i j c p e
          if waits || own then .error (.wait j (own && !waits))
          else
            match p.checksWith (p.recheck (s.viewAt i j c p) e) (s.viewAt i j c p) with
            | some tr => .error (.trap j tr)
            | none =>
              let older := ((t.flight.take i).flatMap Convoy.entries ++ c.entries.take j).reverse
              (s.reissueGo i j c p older e).reissueFrom core slot i (j + 1) n

/-- An instruction with whether it waits, told before its convoy is reissued: what it waits for by the values of its operands
shows only once those are there. -/
def State.waitsAhead (s : State) (core slot i : Nat) (c : Convoy) : Option Snub :=
  (c.entries.mapIdx fun j e => (j, e)).findSome? fun x =>
    let p := planOfWord x.2.word x.2.slotB
    let before := (c.entries.take x.1).filter fun e => !e.done
    let follows := p.reads.any fun n => before.any fun e => (planOfWord e.word e.slotB).writes.contains n
    if x.2.done then none
    else
      let (waits, own) := (s.aim core slot c x.2).reissueWaits i x.1 { c with entries := c.entries.take x.1 ++ [x.2] }
        (if follows then { p with waits := fun _ => [], strict := false } else { p with strict := false }) x.2
      if waits || own then some (.wait x.1 (own && !waits)) else none

/-- The trap of a convoy that is not reissued stands at one instruction of it. -/
def Strand.blame (t : Strand) (i : Nat) (f : Nat → Entry → Entry) : Strand :=
  { t with flight := t.flight.modify i fun c => { c with entries := c.entries.mapIdx fun j e => f j { e with flt := none, held := false } } }

/-- Convoy `i` of a strand restored from an image and not yet reissued: it is checked by R48, waits, is checked by R49 and
issues as a whole, as at its first issue (R317). -/
def State.reissue (s : State) (core slot i : Nat) (t : Strand) (c : Convoy) : State :=
  let s := s.setStrand core slot { t with flight := t.flight.modify i fun c => { c with before := { t.r with fb := c.before.fb } } }
  let t := (s.strandAt core slot).getD t
  let c := t.flight.getD i c
  let lands := if i = 0 then none else (t.flight[i - 1]?.bind fun p => p.entries.getLast?.bind fun e =>
    if e.done && isJump e.word then some p.base else none)
  let fate : Except Snub State := match c.refused t.lvl lands with
    | some x => .error (.trap x.1 x.2)
    | none =>
      match s.waitsAhead core slot i c with
      | some x => .error x
      | none => s.reissueFrom core slot i 0 c.entries.length
  match fate with
  | .ok s1 => s1
  | .error (.trap j tr) => s.setStrand core slot (t.blame i fun k e => if k = j then { e with flt := some tr } else e)
  | .error (.wait j own) =>
    if !own then s.setStrand core slot (t.blame i fun _ e => e)
    else
      match c.entries[j]? with
      | none => s
      | some e =>
        let p := planOfWord e.word e.slotB
        let s1 := p.onWait ((s.aim core slot c e).viewAt i j c p)
        s1.setMe (({ s1.me with r := t.r, flight := t.flight } : Strand).blame i fun k e => if k = j then { e with held := true } else e)

/-- One entry in flight given another chance to fire. Convoys restored from an image are reissued in order, each once it is
known where it stands. -/
def State.pumpOne (s : State) (core slot i j : Nat) : State :=
  match s.strandAt core slot with
  | none => s
  | some t =>
    match t.flight[i]? with
    | none => s
    | some c =>
      match c.entries[j]? with
      | none => s
      | some e =>
        let p := planOfWord e.word e.slotB
        let s := s.aim core slot c e
        let older := (((t.flight.take i).flatMap Convoy.entries) ++ c.entries.take j).reverse
        if e.again then
          if j ≠ 0 ∨ ((t.flight.take i).any fun c => c.next.isNone) ∨ older.any Entry.again then s
          else s.reissue core slot i t c
        else if e.done || e.stuck || blockedBy p (c.entries.take j) then s
        else s.fireAt i j c p older e

/-- Every entry of a strand's flight, oldest first, given another chance to fire. -/
def State.pump (s : State) (core slot : Nat) : State :=
  match s.strandAt core slot with
  | none => s
  | some t =>
    let places := (t.flight.mapIdx fun i c => (List.range c.entries.length).map fun j => (i, j)).flatten
    places.foldl (fun st p => st.pumpOne core slot p.1 p.2) s

/-- Vector and mask results become what their names hold (R138). -/
def Core.commit (k : Core) (es : List Entry) : Core :=
  es.foldl (fun k e =>
    { k with
      v := e.vd.foldl (fun t r => Tab.set VReg.zero t r.1 r.2) k.v
      q := e.qd.foldl (fun t r => Tab.set QReg.zero t r.1 r.2) k.q }) k

/-- What an instruction's retirement does (R99, R263, R321). -/
def Ending.run (x : Ending) (s : State) (e : Entry) : State :=
  match x with
  | .none => s
  | .halt => s.retireStrand s.cur.core s.cur.slot
  | .sret => s.returnNow
  | .command n => commandRetire n s e
  | .mts n => s.writeSpr n e.res
  | .bind n => s.bindNow n e

/-- The oldest convoy retires (R136, R138). -/
def State.retireConvoy (s : State) (core slot : Nat) (c : Convoy) : State :=
  match s.strandAt core slot with
  | none => s
  | some t =>
    let s := s.setStrand core slot t.pass
    let s := if (s.core core).holder == some slot then s.setCore core ((s.core core).commit c.entries) else s
    c.entries.foldl (fun st e => e.ending.run (st.aim core slot c e) e) s

/-- A trap whose convoy retires first (`trap`, R320). -/
def State.trapAfter (s : State) (core slot : Nat) (c : Convoy) (t : Trap) : Out :=
  (s.retireConvoy core slot c).takeTrap core slot t c.base

/-- A strand that an image left without its lanes takes them, once they are to be had (R322). -/
def State.retakeLanes (s : State) (core slot : Nat) : State :=
  match s.strandAt core slot with
  | none => s
  | some t => if t.vec.isSome && s.lanesFree core slot 0 then s.giveLanes core slot 0 else s

/-- The strand's work in flight settles: it fires, retires and traps until nothing more happens. A trap
that an image held pending is delivered first (R319, R321). -/
def State.settle (s : State) (core slot : Nat) : (fuel : Nat) → Out
  | 0 => .next s
  | fuel + 1 =>
    match s.strandAt core slot with
    | none => .next s
    | some t0 =>
      if t0.stopped then .next s
      else
        match t0.pend with
        | some tr => if s.awaited core slot t0 then .next s else s.takeTrap core slot tr t0.xpc
        | none =>
          let s := s.retakeLanes core slot
          if t0.flight.isEmpty || (s.strandAt core slot).any fun t => t.vec.isSome then .next s
          else
            let s1 := s.pump core slot
            match s1.strandAt core slot with
            | none => .next s1
            | some t =>
              match t.verdict with
              | .stay => .next s1
              | .retire c => (s1.retireConvoy core slot c).settle core slot fuel
              | .deliver c f =>
                if s1.awaited core slot t then .next (s1.setStrand core slot { t with delivering := true })
                else if f.after then s1.trapAfter core slot c f else s1.takeTrap core slot f c.base

/-- How often settling repeats at most: each round retires a convoy. -/
def settleFuel : Nat := 64

/-- The settled machine keeps its place: `cur` is that of the instruction that ran. -/
def State.settleAt (s : State) : Out :=
  match s.settle s.cur.core s.cur.slot settleFuel with
  | .next s1 => .next (s1.setCur s.cur)
  | .fault f => .fault f
  | .refused r => .refused r

/-- A wait at issue: nothing of the convoy issues (R81). What the instruction records as it begins to wait it records once
its own reason is the one reported: a strand takes its place in a queue when nothing else holds it (R126). -/
def State.hold (s : State) (p : Plan) (code : Nat) : State :=
  let s := if s.cur.pos = 0 && (p.waits s).contains code then p.onWait s else s
  let s := if s.cur.pos = 0 then s.setMe { s.me with wait := code } else s
  s.setNote (.wait code)

/-- A trap at issue (R48, R49): nothing of the convoy issues. It is precise: the strand's older convoys
retire first (R316). An instruction that is not the first of its convoy leaves the trap to the convoy. -/
def State.raise (s : State) (p : Plan) (t : Trap) : Out :=
  if s.cur.pos ≠ 0 then .next (s.setNote (.trap t))
  else if s.me.flight.isEmpty && !s.awaited s.cur.core s.cur.slot s.me then (s.setNote (.trap t)).takeTrap s.cur.core s.cur.slot t s.cur.base
  else .next (s.hold p 2)

/-- The lowest code of a list of reasons (R81). -/
def lowest : List Nat → Nat
  | [] => 0
  | [c] => c
  | c :: r => min c (lowest r)

/-- The meaning of an instruction word, for the strand and the place that `cur` names: its checks, its
issue, and, after the last instruction of a convoy, what settles. -/
def run (p : Plan) (s : State) : Out :=
  match s.strandAt s.cur.core s.cur.slot with
  | none => .fault .noStrand
  | some _ =>
    match p.privileged s with
    | some t => s.raise p t
    | none =>
      match p.reasons s with
      | c :: r => .next (s.hold p (lowest (c :: r)))
      | [] =>
        match p.checks s with
        | some t => s.raise p t
        | none =>
          let s1 := (p.issue s).setNote .ok
          if s1.cur.last then (p.close s1).settleAt else .next s1

end Sys2Proof.Machine
end

