-- ==== Sys2Proof/Machine/Events.lean ====
section
/-!
DEFINITION. What the events of the opcode table do (95): the parts of an instruction that happen after its issue, and
what the device, its engines, its firmware and the outside world do. An event of a strand lets the entries in flight that
it names fire; the step settles the rest.
-/

namespace Sys2Proof.Machine

/-! ### Entries in flight -/

/-- The primary opcode of a full-form word; 0 for a pair word. -/
def opOf (w : Word) : Nat := if w.getLsbD 62 then 0 else field w 54 7

/-- Words by what they are. -/
def isFrameWord (w : Word) : Bool := opOf w == 0x17
def isRetWord (w : Word) : Bool := opOf w == 4 && field w 48 6 == 2
def isLoadWord (w : Word) : Bool := opOf w == 0x64
def isStoreWord (w : Word) : Bool := opOf w == 0x65
def isMwaitWord (w : Word) : Bool := opOf w == 6 && field w 48 6 == 0
def isHaltWord (w : Word) : Bool := opOf w == 6 && field w 48 6 == 1
def isAdv (w : Word) : Bool := opOf w == 9 && field w 48 6 == 1
def isXredWord (w : Word) : Bool := opOf w == 0x73

/-- The entries of a strand's flight that a test names, oldest first, given a chance to fire. -/
def State.pumpSome (s : State) (core slot : Nat) (f : Entry → Bool) : State :=
  match s.strandAt core slot with
  | none => s
  | some t =>
    let places := (t.flight.mapIdx fun i c => (c.entries.mapIdx fun j e => (i, j, f e))).flatten
    let s1 := (places.filter fun p => p.2.2).foldl (fun st p => st.pumpOne core slot p.1 p.2.1) s
    s1.setCur s.cur

/-- The same for a test on words. -/
def State.pumpWords (s : State) (core slot : Nat) (f : Word → Bool) : State := s.pumpSome core slot fun e => f e.word

/-- The oldest convoy of a strand retires, if it may (R136). -/
def State.retireOldest (s : State) (core slot : Nat) : State :=
  match s.strandAt core slot with
  | none => s
  | some t =>
    match t.verdict with
    | .retire c => (s.retireConvoy core slot c).setCur s.cur
    | .stay => s
    | .deliver _ _ => s

/-- TRAP_DELIVERY (R307): a trap that waits, or the fault of the oldest convoy, is delivered. -/
def State.deliverTrap (s : State) (core slot : Nat) : Out :=
  match s.strandAt core slot with
  | none => .next s
  | some t =>
    if t.stopped then .next s
    else
      match t.pend with
      | some tr => if s.awaited core slot t then .next s else s.takeTrap core slot tr t.xpc
      | none =>
        match t.verdict with
        | .deliver c f =>
          if s.awaited core slot t then .next s
          else if f.after then s.trapAfter core slot c f else s.takeTrap core slot f c.base
        | .stay => .next s
        | .retire _ => .next s

/-! ### Fetch (R48, R50, R89) -/

/-- A strand whose next convoy the slot has reached, with nothing older in flight. -/
def State.atIssue (s : State) (core slot : Nat) : Option Strand :=
  (s.strandAt core slot).filter fun t =>
    t.mayIssue && t.flight.isEmpty && t.pend.isNone && !s.awaited core slot t

/-- INSTRUCTION_FETCH: the words arrive, or the fetch fails. -/
def State.fetchArrives (s : State) (core slot : Nat) : Out :=
  match s.atIssue core slot with
  | none => .next s
  | some t =>
    match s.convoyTrap core t with
    | some tr =>
      if tr.cause = 4 then s.takeTrap core slot tr t.pc
      else .next (s.setStrand core slot { t with wait := if t.wait = 12 then 0 else t.wait })
    | none => .next (s.setStrand core slot { t with wait := if t.wait = 12 then 0 else t.wait })

/-- ILLEGAL_INSTRUCTION: the slot reaches a convoy that check 3 or 5 of R48 turns away. -/
def State.illegalConvoy (s : State) (core slot : Nat) : Out :=
  match s.atIssue core slot with
  | none => .next s
  | some t =>
    match s.convoyTrap core t with
    | some tr => if tr.cause = 1 ∨ tr.cause = 2 then s.takeTrap core slot tr t.pc else .next s
    | none => .next s

/-! ### The lanes and the tiles (R126, R128–R130, R184, R191) -/

/-- LANE_GRANT: the strand that has waited longest is granted the lanes, if they are to be had. -/
def State.grantLanes (s : State) (core : Nat) : State :=
  match (s.core core).laneQ with
  | [] => s
  | slot :: _ =>
    if s.lanesFree core slot (s.core core).gvl then s.giveLanes core slot (s.core core).gvl else s

/-- TILE_FILL_COMPLETE and TILE_DRAIN_COMPLETE (R184). -/
def State.settleTile (s : State) (core n : Nat) (f : Tile → Tile) : State :=
  s.setTile core n (f (Tab.get Tile.start (s.core core).tiles n))

/-- LATCH_COPY (R191): the codes, the side store and the POISON bits are copied. -/
def State.copyLatch (s : State) (core : Nat) : State :=
  let k := s.core core
  match k.latching, k.latch with
  | some (n, _), some l =>
    let t := Tab.get Tile.start k.tiles n
    (s.setCore core { k with
      latch := some { l with codes := t.codes, side := t.side, poison := t.poison }, latching := some (n, true) }).due
      (.latchCopyComplete core)
  | _, _ => s

/-- LATCH_COPY_COMPLETE (R191): the tile is READY again, its copy made. -/
def State.latchCopied (s : State) (core : Nat) : State :=
  let k := s.core core
  match k.latching with
  | none => s
  | some (_, false) => s
  | some (n, true) =>
    s.setCore core { k with
      latching := none
      tiles := Tab.set Tile.start k.tiles n { Tab.get Tile.start k.tiles n with st := .ready } }

/-- POWER_LIMIT_CHANGE (R128). -/
def State.powerLimit (s : State) (core limit : Nat) : State :=
  if [8, 16, 32].contains limit then s.setCore core { s.core core with limit := limit } else s

/-- What comes up after a lane of a core at power-up (R130, R383 stage 4): its next lane, the lanes of the next core in
service, or the next stage. -/
def State.nextLane (s : State) (core : Nat) : State :=
  s.due (if (s.core core).pwr < (s.core core).mvl then .lanePowerUp core
    else
      match ((List.range 8).flatMap s.serving).find? fun c => core < c with
      | some c => .lanePowerUp c
      | none => .powerUpStage)

/-- LANE_POWER_UP (R130): the next enabled lane is up. -/
def State.lanePower (s : State) (core : Nat) : State :=
  let k := s.core core
  if k.pwr < k.mvl then
    let s1 := s.setCore core { k with pwr := k.pwr + 1 }
    if s.stage = 4 then s1.nextLane core else s1
  else s

/-- A record of a lane (R330): it names the strand that holds the lanes and its ASID. -/
def State.logLane (s : State) (kind core lane syndrome : Nat) : State :=
  let slot := (s.core core).holder.getD 0
  s.logErr kind 0 core lane slot lane (((s.core core).holder.bind fun n => s.strandAt core n).elim 0 Strand.asid) 0 syndrome

/-- LMAP_FAIL_MARK (R129): the lane is marked, and recorded as failed. -/
def State.markLane (s : State) (core lane : Nat) : State :=
  let k := s.core core
  if 32 ≤ lane then s
  else (s.setCore core { k with lmap := k.lmap ||| (1#32 <<< lane) }).logLane 8 core lane 0

/-! ### Reels, banks and walkers -/

/-- REEL_STORAGE_RELEASE (R210): storage goes back once no access through it is open. -/
def State.releaseReel (s : State) (cluster base : Nat) : State :=
  let mine := fun (r : Nat × Root) => r.1 == cluster && r.2.base.toNat == base
  if s.releasing.any fun r => mine r && s.rootOpen r.1 r.2 then s.due (.reelStorageRelease cluster base)
  else { s with releasing := s.releasing.filter fun r => !mine r }

/-- The walker instructions of a core that the walker has still to serve: stamp, place in the convoy, and slot. -/
def Core.walks (k : Core) : List (Nat × Nat × Nat) :=
  k.slots.flatMap fun t => if t.2.stopped then [] else (t.2.flight.flatMap Convoy.entries).filterMap fun e =>
    if walkerServes e.word && !e.done && !e.again && e.flt.isNone then some (e.stamp, e.pos, t.1) else none

/-- The first of them in issue order. -/
def firstWalk : List (Nat × Nat × Nat) → Option (Nat × Nat × Nat)
  | [] => none
  | x :: rest =>
    match firstWalk rest with
    | none => some x
    | some y => if y.1 < x.1 ∨ (y.1 = x.1 ∧ y.2.1 < x.2.1) then some y else some x

/-- WALKER_SERVICE (R364): the walker takes the next walker instruction of the core, in issue order. -/
def State.serveWalker (s : State) (core : Nat) : State :=
  match firstWalk (s.core core).walks with
  | none => s
  | some (stamp, pos, slot) => s.pumpSome core slot fun e => walkerServes e.word && e.stamp == stamp && e.pos == pos

/-! ### Other devices (R253, R302) -/

/-- The access that an element of another device's event makes here. -/
def peerAcc (r : PeerReq) : Acc :=
  match r.kind with
  | 0 => .read
  | 1 => .write
  | _ => .atomic

/-- What an element of another device's event comes to here: a reason, or the place. -/
def State.homePlace (s : State) (acc : Acc) (x : PeerElt) : Except Nat Place :=
  match s.xlate 8 x.asid .u acc .data (BitVec.ofNat 64 x.va) with
  | .error e => .error e
  | .ok p => if s.reelLive p then .error 9 else .ok p

/-- The home's verdict on an element: a reason, 10 for an uncorrectable error that it would read, or 0. -/
def State.homeReason (s : State) (acc : Acc) (x : PeerElt) : Nat :=
  match s.homePlace acc x with
  | .error e => e
  | .ok p => if acc ≠ .write ∧ s.poisoned p then 10 else 0

/-- One element performed at its home: what it leaves, and its answer. -/
def State.homePerform (s : State) (r : PeerReq) (x : PeerElt) : State × Nat × Nat :=
  match s.homeReason (peerAcc r) x, s.homePlace (peerAcc r) x with
  | 0, .ok p =>
    let old := s.readNat p x.width
    let put := fun (v : Nat) => s.storeAt p x.width v
    (match r.kind with
      | 0 => (s.noteRead p, 0, old)
      | 1 =>
        (match x.half with
          | none => (put x.data, 0, 0)
          | some high => (put (if high then old % 16 + 16 * (x.data % 16) else old / 16 * 16 + x.data % 16), 0, 0))
      | 13 => (put (poolAdd r.ty .rne r.sat (some old) x.data), 0, 0)
      | k + 2 => (put (amoNew k r.ty old x.data x.compare), 0, old))
  | n, _ => (s, n, 0)

/-- The elements of a request performed in their order, and the answers. -/
def State.homeAll (s : State) (r : PeerReq) : List PeerElt → State × List (Nat × Nat)
  | [] => (s, [])
  | x :: xs =>
    let (s1, a) := s.homePerform r x
    let (s2, as) := s1.homeAll r xs
    (s2, a :: as)

/-- PEER_ACCESS_REQUEST (R253, R276): the home translates every element, and answers with its verdicts alone, or performs
the elements as one event, by which a line written whole becomes sound (R295). No place that it reaches is a bank's, which
alone can stall (R222, R244). -/
def State.servePeer (s : State) (r : PeerReq) : State :=
  let reply := fun (st : State) (l : List (Nat × Nat)) => { st with out := st.out ++ [.peerReply l] }
  if r.ask then reply s (r.elts.map fun x => (s.homeReason (peerAcc r) x, 0))
  else
    let (s1, l) := s.homeAll r r.elts
    let written := ((r.elts.zip l).filter fun x => x.2.1 == 0 && r.kind == 1 && x.1.half.isNone).filterMap fun x =>
      (s.homePlace .write x.1).toOption.map fun p => (p, x.1.width)
    reply (s1.clearWhole written) l

/-- PEER_TIMEOUT (R253): the strand's accesses bound for a device that does not answer fail. -/
def State.peerLate (s : State) (core slot device : Nat) : State :=
  { ({ s with down := addOnce s.down device } : State).pumpSome core slot Entry.mem with down := s.down }

/-- Pairs of a list. -/
def pairsOf : List Nat → List (Nat × Nat)
  | a :: b :: rest => (a, b) :: pairsOf rest
  | _ => []

/-- Which `xred` of a member a contribution belongs to (R302): its first that is still without some element, or its next. -/
def State.memberInst (s : State) (w : WorkItem) (member : Nat) (terms : List Nat) : Nat :=
  let from_ := s.xreds.filter fun c => c.launch == w.launch && c.linear == w.linear && c.member == member && c.terms != []
  let done := (((Tab.find s.launches w.launch).bind fun l => Tab.find l.items w.linear).map Item.nxred).getD 0
  let total := fun (c : Contribution) => (c.terms.getD 3 0 + 1) * c.terms.getD 4 0
  match from_.find? fun c => c.terms == terms && decide (c.vals.length < total c) with
  | some c => c.inst
  | none => from_.foldl (fun m c => max m (c.inst + 1)) done

/-- XRED_CONTRIBUTION (R302, R303): what a counterpart sends to the strand's work item: its member alone when its item has
retired, or its member, the terms (value(sa), fn, ty, G, n) and elements, each with its number. -/
def State.contributed (s : State) (core slot : Nat) (values : List Nat) : State :=
  match (s.strandAt core slot).bind Strand.work, values with
  | some w, [member] =>
    ({ s with xreds := s.xreds ++ [⟨w.launch, w.linear, 0, member, [], []⟩] } : State).pumpWords core slot isXredWord
  | some w, member :: sa :: fn :: ty :: g :: n :: vals =>
    let terms := [sa, fn, ty, g, n]
    ({ s with xreds := addContribution s.xreds ⟨w.launch, w.linear, s.memberInst w member terms, member, terms, pairsOf vals⟩ } :
      State).pumpWords core slot isXredWord
  | _, _ => s

/-! ### Waits, barriers and marks -/

/-- MONITOR_LOST (R98): the monitor is dropped, and the wait ends. -/
def State.loseMonitor (s : State) (core slot : Nat) : State :=
  match s.strandAt core slot with
  | none => s
  | some t =>
    (s.setStrand core slot { t with monitor := t.monitor.map fun m => (m.1, m.2.1, true) }).pumpWords core slot isMwaitWord

/-- BARRIER_RELEASE (R78): the members of a level group that wait go on, if the last has arrived. -/
def State.releaseBarrier (s : State) (launch level group : Nat) : State :=
  match Tab.find s.launches launch with
  | none => s
  | some l =>
    let here := fun (t : Strand) => t.work.any fun w => w.launch == launch && w.linear / l.groupSize level == group
    s.cores.foldl (fun st c => c.2.slots.foldl (fun st t =>
      if here t.2 then st.pumpWords c.1 t.1 isBarrier else st) st) s

/-- LQAGE_EXPIRY (R69): the launch's group has not fitted for LQAGE cycles, and the placer looks at it. -/
def State.queueAged (s : State) (id : Nat) : State :=
  match (Tab.find s.launches id).bind Launch.since with
  | none => s
  | some c => if c + lqage ≤ s.cycle then s.placerDue else s

/-! ### Checking (R324–R329, R381) -/

/-- DAILIES_RECHECK (R328): the oldest checked instruction of the strand that has completed and has still to be found to
agree, agrees. Its queue entry is freed as its convoy retires. -/
def State.recheck (s : State) (core slot : Nat) : State :=
  match s.strandAt core slot with
  | none => s
  | some t =>
    let places := (t.flight.mapIdx fun i c => (c.entries.mapIdx fun j e => (i, j, e))).flatten
    let open_ := places.filter fun p => p.2.2.chk && !p.2.2.sure
    match open_.find? fun p => p.2.2.done with
    | some (i, j, e) =>
      let s1 := s.setStrand core slot (t.putEntry i j { e with sure := true })
      if open_.length ≤ 1 then s1 else s1.due (.dailiesRecheck core slot)
    | none => if open_.isEmpty then s else s.due (.dailiesRecheck core slot)

/-- An element of an entry's destination replaced. -/
def Entry.overrule (e : Entry) (elem : Nat) (x : Elt) : Entry :=
  { e with
    vd := e.vd.map fun r => (r.1, r.2.put e.w elem x)
    qd := e.qd.map fun r => (r.1, r.2.put elem x) }

/-- The elements of an element group (R127): those that share 64 bits with an element, below the length. -/
def Entry.groupOf (e : Entry) (elem : Nat) : List Nat :=
  let k := max 1 (64 / max 1 e.w)
  ((List.range k).map fun j => elem / k * k + j).filter fun i => i < e.n

/-- Names with what of them has been overruled: 8-bit positions of a vector register, bits of a mask. -/
abbrev Taint := List (Name × List Nat)

/-- What elements of an entry's destinations are, as others read them. -/
def Entry.taint (e : Entry) (elems : List Nat) : Taint :=
  (e.vd.map fun r => (Name.v r.1, (elems.flatMap fun i => (List.range (max 1 (e.w / 8))).map fun b => i * e.w / 8 + b))) ++
    e.qd.map fun r => (Name.q r.1, elems)

/-- The elements of an instruction that read what has been overruled: their own elements of its sources and of its old
destinations, at the widths at which it reads them, or every element where they may read others. -/
def Plan.readersOf (p : Plan) (e : Entry) (t : Taint) : List Nat :=
  let here := t.filter fun x => !x.2.isEmpty && (p.reads.contains x.1 || p.writes.contains x.1)
  match p.widths with
  | none => if here.isEmpty then [] else List.range 2048
  | some ws => (here.flatMap fun x =>
      match x.1 with
      | .v _ => (e.w :: ws).flatMap fun w => x.2.map fun b => b * 8 / max 1 w
      | .q _ => x.2
      | _ => []).dedup

/-- Elements of an entry are to fire again: they and their done bits are cleared, and what it had found of them. The trap of
its lowest element that fired from POISON may hide those of others, which then fire again too. -/
def Entry.refire (e : Entry) (p : Plan) (elems : List Nat) : Entry :=
  let spoilt := fun i => e.vd.any (fun r => r.2.get e.w i == .poison) || e.qd.any fun r => r.2.get i == .poison
  let more := if e.bad.any fun t => elems.contains (t.elem.getD 0) then (List.range 2048).filter spoilt else []
  let all := elems ++ more
  { all.foldl (fun e i => e.overrule i .empty) e with
    mask := all.foldl (fun m i => m &&& ~~~(1#2048 <<< i)) e.mask
    done := false, sure := false, stuck := false, flt := none, bad := if more.isEmpty then e.bad else none
    later := if e.begun then [(0, 2 ^ 128)] else e.later
    pend := (p.reads ++ p.writes).filter Name.kept }

/-- Younger elements that read an overruled value, directly or through one another, fire again (R329). No write to memory has
read one (R250), nor has an instruction that gives a scalar, and what an instruction read of memory it reads again (log 103). -/
def refireReaders : List Entry → Taint → List Entry
  | [], _ => []
  | e :: rest, t =>
    let p := planOfWord e.word e.slotB
    let elems := p.readersOf e t
    let left := t.filter fun x => !p.writes.contains x.1
    if elems.isEmpty || (e.mem && e.begun && !p.rereads) then e :: refireReaders rest left
    else e.refire p elems :: refireReaders rest (e.taint elems ++ left)

/-- A strand's entries in flight replaced in order. -/
def putEntries : List Convoy → List Entry → List Convoy
  | [], _ => []
  | c :: cs, es => { c with entries := es.take c.entries.length } :: putEntries cs (es.drop c.entries.length)

/-- The lane that does the work of a lane of the grant: itself, or its stand-in, the first lane after it, modulo W, that has
not failed (R129). -/
def Core.standIn (k : Core) (lane : Nat) : Nat :=
  (((List.range k.width).map fun i => (lane + i) % k.width).find? fun l => !k.lmap.getLsbD l).getD lane

/-- The lane on which an element group ran first: where it lies (R12, R127), or the stand-in. -/
def Core.firstLane (k : Core) (e : Entry) (elem : Nat) : Nat := k.standIn (groupLane k.width (groupOf e.w elem))

/-- The lane of its second run: the next one in service after that (R328). -/
def Core.secondLane (k : Core) (e : Entry) (elem : Nat) : Nat := k.standIn ((k.firstLane e elem + 1) % k.width)

/-- A vote counted and recorded (R329): the record names the lane whose value does not stand. -/
def State.logVote (s : State) (core slot asid lane : Nat) : State :=
  let k := s.core core
  (s.setCore core { k with voted := min (k.voted + 1) 65535 }).logErr 6 0 core lane slot lane asid 0 0

/-- Entry `n` of a strand's flight has its element group replaced, and its readers fire again. -/
def Strand.overruled (t : Strand) (n : Nat) (e : Entry) (elem : Nat) (f : Entry → Entry) : Strand :=
  let es := t.flight.flatMap Convoy.entries
  { t with flight := putEntries t.flight (es.take n ++ f e :: refireReaders (es.drop (n + 1)) (e.taint (e.groupOf elem))) }

/-- DAILIES_VOTE (R329): the third run decides over an element group. The record names the lane of the run that is outvoted:
the second, or the first; where all three differ it names the second's (log 148). -/
def State.settleVote (s : State) (core slot : Nat) (v : Vote) : State :=
  let vote := fun (n : Nat) (f : Strand → Entry → State) =>
    match (s.strandAt core slot).bind fun t => (t.flight.flatMap Convoy.entries)[n]?.map fun e => (t, e) with
    | none => s
    | some (t, e) => f t e
  let k := s.core core
  match v with
  | .firstStands n elem => vote n fun t e => s.logVote core slot t.asid (k.secondLane e elem)
  | .secondStands n elem values => vote n fun t e =>
      let take := fun (e : Entry) => ((e.groupOf elem).zip values).foldl (fun e x => e.overrule x.1 (.full x.2)) e
      (s.setStrand core slot (t.overruled n e elem take)).logVote core slot t.asid (k.firstLane e elem)
  | .threeDiffer n elem => vote n fun t e =>
      let group := e.groupOf elem
      let drop := fun (e : Entry) => { group.foldl (fun e i => e.overrule i .empty) e with
        done := false, stuck := true, flt := some { cause := 32, info := 1, elem := some (group.headD elem) } }
      let lane := k.secondLane e elem
      ((s.setStrand core slot (t.overruled n e elem drop)).logVote core slot t.asid lane).logErr 7 3 core lane slot lane t.asid 32 0

/-! ### Uncorrectable errors of registers (R324) -/

/-- The positions of a word that hold something become POISON. -/
def VReg.spoil (r : VReg) (word : Nat) : VReg :=
  (List.range 8).foldl (fun r i => if r.get 8 (8 * word + i) == .empty then r else r.put 8 (8 * word + i) .poison) r
def QReg.spoil (r : QReg) (word : Nat) : QReg :=
  (List.range 64).foldl (fun r i => if r.get (64 * word + i) == .empty then r else r.put (64 * word + i) .poison) r

/-- The rows that a word of codes or of the side store belongs to: `rows` rows of `bits` bits, or the 32 of a run (R180). -/
def rowsOfWord (rows bits : Nat) (side : Bool) (word : Nat) : List Nat :=
  if side then (List.range 32).map fun i => 32 * (word / 64) + i
  else (List.range rows).filter fun r => decide (r * bits < 64 * word + 64) && decide (64 * word < (r + 1) * bits)

/-- POISON bits of rows set. -/
def spoilRows (p : BitVec 256) (rows : List Nat) : BitVec 256 := rows.foldl (fun p r => p ||| (1#256 <<< r)) p

/-- The rows of a word become POISON (log 149). -/
def Tile.spoil (t : Tile) (side : Bool) (word : Nat) : Tile :=
  if t.st = .empty then t else { t with poison := spoilRows t.poison (rowsOfWord t.rows (t.cols * t.ebits) side word) }
def Latch.spoil (l : Latch) (side : Bool) (word : Nat) : Latch :=
  { l with poison := spoilRows l.poison (rowsOfWord l.k (l.n * (4 * 2 ^ l.ew)) side word) }

/-- The vector state of a holder other than the core changed: an entry in flight, or what a strand keeps (R137, R322). -/
def State.mapHeld (s : State) (core : Nat) (h : Holder) (f : Entry → Entry) (g : Vectors → Vectors) : State :=
  match h with
  | .named => s
  | .inFlight slot n =>
    (match s.strandAt core slot with
      | none => s
      | some t => s.setStrand core slot { t with flight := putEntries t.flight ((t.flight.flatMap Convoy.entries).modify n f) })
  | .saved slot =>
    match s.strandAt core slot with
    | none => s
    | some t => s.setStrand core slot { t with vec := t.vec.map g }

/-- ECC_CORRECTION (R324): a corrected error is recorded; an uncorrectable one in a vector register makes its eight
positions POISON, which no instruction can tell from their becoming so when the word is read (log 99); one in a scalar
register is found by the instruction that reads it. For a mask, a tile and the latch see log 149. -/
def State.eccError (s : State) (x : Ecc) : State :=
  match x with
  | .corrected kind core lane slot asid location syndrome => s.logErr kind 0 core lane slot location asid 0 syndrome
  | .scalar core slot reg =>
    (match s.strandAt core slot with
      | none => s
      | some t => s.setStrand core slot { t with lost := addOnce t.lost reg })
  | .vector core h reg word =>
    let f := fun (t : Tab VReg) => Tab.set VReg.zero t reg ((Tab.get VReg.zero t reg).spoil word)
    let k := s.core core
    if h = .named then s.setCore core { k with v := f k.v }
    else s.mapHeld core h (fun e => { e with vd := e.vd.map fun r => (r.1, if r.1 = reg then r.2.spoil word else r.2) })
      fun x => { x with v := f x.v }
  | .mask core h reg word =>
    let f := fun (t : Tab QReg) => Tab.set QReg.zero t reg ((Tab.get QReg.zero t reg).spoil word)
    let k := s.core core
    if h = .named then s.setCore core { k with q := f k.q }
    else s.mapHeld core h (fun e => { e with qd := e.qd.map fun r => (r.1, if r.1 = reg then r.2.spoil word else r.2) })
      fun x => { x with q := f x.q }
  | .tile core h reg side word =>
    let f := fun (t : Tab Tile) => Tab.set Tile.start t reg ((Tab.get Tile.start t reg).spoil side word)
    let k := s.core core
    if h = .named then s.setCore core { k with tiles := f k.tiles } else s.mapHeld core h id fun x => { x with tiles := f x.tiles }
  | .latch core h side word =>
    let k := s.core core
    if h = .named then s.setCore core { k with latch := k.latch.map fun l => l.spoil side word }
    else s.mapHeld core h id fun x => { x with latch := x.latch.map fun l => l.spoil side word }

/-- CXL_POISON_REPORT (R381): a line of pooled memory is poisoned. -/
def State.poolPoison (s : State) (addr syndrome : Nat) : State :=
  ({ s with poison := Tab.put s.poison (2 ^ 60 + s.poolAt addr / 64) true } : State).logErr 10 1 0x1FF 0 0 addr 0 0 syndrome

/-! ### The host (R371, R372) -/

/-- One byte of the MSI-X table written. -/
def State.msixByte (s : State) (at_ : Nat) (b : Byte) : State :=
  let k := at_ / 8
  { s with msix := Tab.put s.msix k (putBits (s.msixDword k) (8 * (at_ % 8)) 8 b.toNat) }

/-- HOST_WRITE: BAR0 takes writes to the MSI-X table alone; BAR2 writes the window while it is open, one event for each
line in ascending order: the lines after the first stay due under the window of the first, before what has arrived later;
BAR4 discards them. -/
def State.hostWrites (s : State) (bar offset : Nat) (data : List Nat) (relaxed : Bool) (began : Option Word) : State :=
  match bar with
  | 0 =>
    let cells := (data.mapIdx fun i b => (offset + i, BitVec.ofNat 8 b)).filter fun c => 0x4000 ≤ c.1 ∧ c.1 < 0xC000
    let s1 := cells.foldl (fun st c => st.msixByte (c.1 - 0x4000) c.2) s
    ((cells.map fun c => (c.1 - 0x4000) / 16).dedup).foldl State.sendPending s1
  | 2 =>
    let hwin := began.getD s.hwin
    if (began.isSome || s.windowOpen) && decide (offset + data.length ≤ 2 ^ 30) then
      let n := 64 - offset % 64
      let s1 := s.nearWrite (field hwin 48 9) (windowAddr hwin offset) ((data.take n).map (BitVec.ofNat 8))
      if (data.drop n).isEmpty then s1
      else { s1 with agenda := .hostWrite bar (offset + n) ⟨data.drop n, relaxed, some hwin⟩ :: s1.agenda }
    else s
  | _ => s

/-- One byte that the host reads. -/
def State.hostByte (s : State) (bar off : Nat) : Nat :=
  match bar with
  | 0 =>
    let part := fun (w : Word) => field w (8 * (off % 8)) 8
    if off < 0x1000 then part (s.devRead 0 (off / 8 * 8))
    else if 0x1000 ≤ off ∧ off < 0x1008 then part (BitVec.ofNat 64 s.jhead)
    else if 0x4000 ≤ off ∧ off < 0xC000 then part (s.msixDword ((off - 0x4000) / 8))
    else if 0xC000 ≤ off ∧ off < 0xC100 then
      (List.range 8).foldl (fun n i => n + (if Tab.get false s.msixPend (8 * (off - 0xC000) + i) then 2 ^ i else 0)) 0
    else 0
  | 2 =>
    if s.windowOpen then
      let a := windowAddr s.hwin off
      let p := Place.near ((nearPhys 0 a).getD 0) (field s.hwin 48 9) a
      if s.poisoned p then (Config.freeWord s.choice off).toNat % 256 else (s.readByte p).toNat
    else 255
  | 4 =>
    let a := (if off < 2 ^ 28 then 63 else 319) * 2 ^ 30 + off % 2 ^ 28
    (Tab.get memDefault s.hbm a).toNat
  | _ => 0

/-- HOST_READ: the bytes go to the host. -/
def State.hostReads (s : State) (bar offset len : Nat) : State :=
  { s with out := s.out ++ [.hostData ((List.range len).map fun i => s.hostByte bar (offset + i))] }

/-! ### Device registers (R370, R375, R384) -/

/-- An action of a store that may have to wait (R370): it is tried again. -/
def State.orAgain (r : Option State) (s : State) (e : Instr) : State := r.getD (s.due e)

/-- A request of the firmware port by itself. -/
def State.request (s : State) (addr : Nat) (f : State → Nat → State) : State := if inNear addr 256 then f s addr else s

/-! ### Which event comes next -/

/-- A write of the host. -/
def isHostWrite (e : Instr) : Bool :=
  match e with
  | .hostWrite _ _ _ => true
  | _ => false

/-- A write of the host that may perform before earlier ones: it carries the Relaxed Ordering attribute (R372). -/
def isRelaxed (e : Instr) : Bool :=
  match e with
  | .hostWrite _ _ x => x.relaxed
  | _ => false

/-- The event that happens when the one at `n` is chosen: a posted write performs in arrival order (R372). -/
def inOrder (agenda : List Instr) (n : Nat) : Nat :=
  match agenda[n]? with
  | none => n
  | some e => if isHostWrite e && !isRelaxed e then agenda.findIdx isHostWrite else n

/-- An event taken from those that are due, as a free choice (log 11), and the state without it. -/
def State.nextEvent (s : State) : Option (Instr × State) :=
  let n := inOrder s.agenda (Config.pick s.choice s.agenda.length % max 1 s.agenda.length)
  s.agenda[n]?.map fun e => (e, { s with agenda := s.agenda.eraseIdx n })

/-- What other devices have written to pooled memory arrives, at a time that is not this device's choice (R283; log 60). -/
def State.poolArrives (s : State) : State :=
  match s.poolIn with
  | [] => s
  | (a, b) :: rest =>
    if Config.takes s.choice 51 then { s.keepPoolCode a with pool := Tab.set memDefault s.pool a b, poolIn := rest } else s

/-- A cached far line evicted at the device's own choice (R283). -/
def State.mayEvict (s : State) : State :=
  match s.far[Config.pick s.choice 52 % max 1 s.far.length]? with
  | none => s
  | some l => if Config.takes s.choice 52 then s.due (.cacheEviction l.1) else s

/-- A device behind a port that has answered no flit for FTMO cycles is reported down (R380). -/
def State.mayReport (s : State) : State :=
  if s.pst.isEmpty then s
  else
    match Config.portPeer (Config.pick s.choice 53 % 96) with
    | none => s
    | some d => if s.ftmo ≤ Config.silence s.choice d ∧ !s.down.contains d then s.due (.deviceDownReport d) else s

/-- What happens of itself as time passes. -/
def State.unprompted (s : State) : State := s.poolArrives.mayEvict.mayReport

end Sys2Proof.Machine
end

