-- ==== Sys2Proof/Machine/ExecEvents.lean ====
section
/-!
DEFINITION. The meaning of every event of the opcode table, in its order.
-/

namespace Sys2Proof.Machine

/-- The spill writes of a `frame` perform (R105). -/
def execBackingStoreSpill (core slot : Nat) (s : State) : Out := .next (s.pumpWords core slot isFrameWord)
/-- The refill reads of a `ret` perform (R105). -/
def execBackingStoreRefill (core slot : Nat) (s : State) : Out := .next (s.pumpWords core slot isRetWord)
/-- The lanes are granted (R126). -/
def execLaneGrant (core : Nat) (s : State) : Out := .next (s.grantLanes core)
/-- A fill has ended (R184). -/
def execTileFillComplete (core tile : Nat) (s : State) : Out := .next (s.settleTile core tile Tile.finishFill)
/-- A drain has ended (R184). -/
def execTileDrainComplete (core tile : Nat) (s : State) : Out := .next (s.settleTile core tile Tile.finishDrain)
/-- The latch is filled (R191). -/
def execLatchCopy (core : Nat) (s : State) : Out := .next (s.copyLatch core)
/-- The copy ends (R191). -/
def execLatchCopyComplete (core : Nat) (s : State) : Out := .next (s.latchCopied core)
/-- Reel storage goes back (R210). -/
def execReelStorageRelease (cluster root : Nat) (s : State) : Out := .next (s.releaseReel cluster root)
/-- A moved handle arrives (R211). -/
def execHmovDelivery (cluster entry : Nat) (s : State) : Out := .next (s.deliver cluster entry)
/-- A bank serves in its new mode (R243). -/
def execBankModeSwitchComplete (cluster bank : Nat) (s : State) : Out := .next (s.finishSwitch (256 * cluster + bank))
/-- A waiting push goes in (R246). -/
def execFifoPush (core slot : Nat) (s : State) : Out := .next (s.pumpWords core slot isStoreWord)
/-- A waiting pop is served (R246). -/
def execFifoPop (core slot : Nat) (s : State) : Out := .next (s.pumpWords core slot isLoadWord)
/-- Data for a vector access arrives (R251, R252). -/
def execVmuLineReply (core slot : Nat) (s : State) : Out := .next (s.pumpSome core slot fun e => e.mem && e.hasDm)
/-- Another device reaches memory here (R253, R284). -/
def execPeerAccessRequest (req : PeerReq) (s : State) : Out := .next (s.servePeer req)
/-- Another device does not answer (R253). -/
def execPeerTimeout (core slot device : Nat) (s : State) : Out := .next (s.peerLate core slot device)
/-- Memory events of a strand perform (R275, R278). -/
def execMemoryEventPerform (core slot : Nat) (s : State) : Out := .next (s.pumpSome core slot Entry.mem)
/-- One chunk of a copy (R265). -/
def execTcopyChunk (cmd : Nat) (s : State) : Out := .next (s.chunk cmd)
/-- A progress record is written (R332). -/
def execEngineFaultQueueWrite (cmd : Nat) (s : State) : Out := .next (s.faultQueueWrite cmd)
/-- One line of a migrating page (R233). -/
def execMigrationLineCopy (cmd : Nat) (s : State) : Out := .next (s.migrateLine cmd)
/-- One line of a growing slab (R273). -/
def execSlabLineCopy (cmd : Nat) (s : State) : Out := .next (s.slabLine cmd)
/-- A command has completed (R263). -/
def execCommandComplete (cmd : Nat) (s : State) : Out := .next (s.finishCmd cmd)
/-- A counterpart's contribution arrives (R302). -/
def execXredContribution (core slot : Nat) (values : List Nat) (s : State) : Out := .next (s.contributed core slot values)
/-- The walker of a core takes its next instruction (R364). -/
def execWalkerService (core : Nat) (s : State) : Out := .next (s.serveWalker core)
/-- Elements whose sources are ready fire (R133). -/
def execElementFire (core slot : Nat) (s : State) : Out := .next (s.pumpSome core slot fun e => !e.mem)
/-- The oldest convoy retires (R136). -/
def execConvoyRetire (core slot : Nat) (s : State) : Out := .next (s.retireOldest core slot)
/-- A trap is delivered (R307). -/
def execTrapDelivery (core slot : Nat) (s : State) : Out := s.deliverTrap core slot
/-- A write to the monitored block ends a wait (R98). -/
def execMwaitWake (core slot : Nat) (s : State) : Out := .next (s.pumpWords core slot isMwaitWord)
/-- The limit of a wait has passed (R98). -/
def execMwaitTimeout (core slot : Nat) (s : State) : Out := .next (s.pumpWords core slot isMwaitWord)
/-- The device drops a monitor (R98). -/
def execMonitorLost (core slot : Nat) (s : State) : Out := .next (s.loseMonitor core slot)
/-- A tide mark rises (R73). -/
def execTideMarkRise (core slot : Nat) (s : State) : Out := .next (s.pumpWords core slot isAdv)
/-- A barrier releases its group (R78). -/
def execBarrierRelease (launchId level group : Nat) (s : State) : Out := .next (s.releaseBarrier launchId level group)
/-- The placer starts a group (R65). -/
def execLaunchGroupStart (s : State) : Out := .next s.place
/-- A core is scrubbed for a new owner (R232). -/
def execOwnerScrub (core owner : Nat) (s : State) : Out := .next (s.scrubCore core owner)
/-- A bank is zeroed for a new owner (R232). -/
def execBankOwnerZeroing (cluster bank owner : Nat) (s : State) : Out := .next (s.zeroBank (256 * cluster + bank) owner)
/-- A launch has waited LQAGE cycles (R69). -/
def execLqageExpiry (launchId : Nat) (s : State) : Out := .next (s.queueAged launchId)
/-- A halted strand retires (R67, R99). -/
def execHaltRetire (core slot : Nat) (s : State) : Out := .next ((s.pumpWords core slot isHaltWord).retireOldest core slot)
/-- The power controller sets its limit (R128). -/
def execPowerLimitChange (core limit : Nat) (s : State) : Out := .next (s.powerLimit core limit)
/-- A lane is powered up (R130). -/
def execLanePowerUp (core : Nat) (s : State) : Out := .next (s.lanePower core)
/-- A lane runs its element group again (R326): a record of kind 5, and no value changes. -/
def execLaneRollback (core lane syndrome : Nat) (s : State) : Out := .next (s.logLane 5 core lane syndrome)
/-- Firmware marks a lane failed (R129). -/
def execLmapFailMark (core lane : Nat) (s : State) : Out := .next (s.markLane core lane)
/-- A checked instruction agrees with its second run (R328). -/
def execDailiesRecheck (core slot : Nat) (s : State) : Out := .next (s.recheck core slot)
/-- A third run decides (R329). -/
def execDailiesVote (core slot : Nat) (vote : Vote) (s : State) : Out := .next (s.settleVote core slot vote)
/-- An error-correcting code finds an error (R324). -/
def execEccCorrection (err : Ecc) (s : State) : Out := .next (s.eccError err)
/-- The host writes (R372). -/
def execHostWrite (bar offset : Nat) (data : Posted) (s : State) : Out :=
  .next (s.hostWrites bar offset data.bytes data.relaxed data.began)
/-- The host reads (R372). -/
def execHostRead (bar offset len : Nat) (s : State) : Out := .next (s.hostReads bar offset len)
/-- A store to HMSI (R371). -/
def execHmsiStore (value : Nat) (s : State) : Out := .next (s.hmsi value)
/-- A store to a device register (R370). -/
def execDevregWrite (page offset value : Nat) (s : State) : Out :=
  .next (State.orAgain (s.devWrite page offset (BitVec.ofNat 64 value)) (s.devBegin page offset (BitVec.ofNat 64 value))
    (.devregWrite page offset value))
/-- A store to JAPP (R374, R375). -/
def execJapp (addr : Nat) (s : State) : Out := .next (State.orAgain (s.japp addr) s (.japp addr))
/-- A store to JSTAT (R374, R375). -/
def execJstat (value : Nat) (s : State) : Out := .next (s.jstat value)
/-- Firmware installs a key (R384). -/
def execFwreqInstallKey (addr : Nat) (s : State) : Out := .next (s.request addr State.installKey)
/-- Firmware removes a key (R230, R384). -/
def execFwreqRemoveKey (addr : Nat) (s : State) : Out :=
  .next (s.request addr fun st a => State.orAgain (st.removeKey a) (st.beginRemove a) (.fwreqRemoveKey a))
/-- Firmware writes an attestation report (R384). -/
def execFwreqAttestation (addr : Nat) (s : State) : Out := .next (s.request addr State.attest)
/-- A store that sets EN of a pool decoder (R382). -/
def execPdecEnable (k value : Nat) (s : State) : Out := .next (s.pdecEnable k (BitVec.ofNat 64 value))
/-- A store that clears EN of a pool decoder (R382). -/
def execPdecDisable (k value : Nat) (s : State) : Out := .next (s.pdecDisable k (BitVec.ofNat 64 value))
/-- A pool device reports poison (R381). -/
def execCxlPoisonReport (poolAddr syndrome : Nat) (s : State) : Out := .next (s.poolPoison poolAddr syndrome)
/-- A flit is replayed (R379). -/
def execFlitReplay (port lane : Nat) (s : State) : Out := .next (s.replay port lane)
/-- A data lane recalibrates (R379). -/
def execLaneRecalibration (port : Nat) (s : State) : Out := .next (s.recalibrate port)
/-- A port retrains (R379). -/
def execPortRetrain (port : Nat) (s : State) : Out := .next (s.retrain port)
/-- A device is reported down (R380). -/
def execDeviceDownReport (device : Nat) (s : State) : Out := .next (s.deviceDown device)
/-- A gang header arrives at a member (R378). -/
def execGangPrepareAck (gseq member header : Nat) (s : State) : Out := .next (s.joinGang gseq member header)
/-- COMMIT arrives (R378). -/
def execGangCommit (gseq : Nat) (s : State) : Out := .next (s.beginGang gseq)
/-- COMMIT is sent again (R378). -/
def execGangCommitResend (gseq : Nat) (s : State) : Out := .next (s.resendCommit gseq)
/-- The issuer gives up (R378). -/
def execGangAbort (gseq : Nat) (s : State) : Out := .next (s.abortGang gseq)
/-- A member's part has retired (R75). -/
def execGangPartRetired (gseq member : Nat) (s : State) : Out := .next (s.partRetired gseq member)
/-- A device reset (R376). -/
def execDeviceReset (s : State) : Out := .next s.deviceReset
/-- The next power-up stage (R383). -/
def execPowerUpStage (s : State) : Out := .next s.powerUp
/-- A boot image is verified and measured (R383). -/
def execBootImageVerify (k : Nat) (s : State) : Out := .next (s.verifyImage k)
/-- Firmware recovers the journal (R376). -/
def execJournalRecovery (s : State) : Out := .next s.recoverJournal
/-- The supervisor strands start (R373). -/
def execSupervisorStart (s : State) : Out := .next s.startSupervisors
/-- A core or a pseudo-channel leaves service (R376). -/
def execUnitOutOfService (isCore : Bool) (unit : Nat) (s : State) : Out := .next (s.unitOut isCore unit)
/-- Instruction words arrive (R89). -/
def execInstructionFetch (core slot : Nat) (s : State) : Out := s.fetchArrives core slot
/-- An illegal instruction or convoy is reached (R48, R50). -/
def execIllegalInstruction (core slot : Nat) (s : State) : Out := s.illegalConvoy core slot
/-- The device evicts a far line (R283). -/
def execCacheEviction (line : Nat) (s : State) : Out := .next (s.displaceFar line)
/-- A recalibration ends (R379). -/
def execLaneRecalibrationEnd (port : Nat) (ok : Bool) (s : State) : Out := .next (s.recalibrated port ok)
/-- A port has retrained (R379). -/
def execPortRetrainEnd (port : Nat) (s : State) : Out := .next (s.retrained port)
/-- An acknowledgement arrives at the issuer (R378). -/
def execGangAcknowledgement (gseq member : Nat) (commit : Bool) (s : State) : Out := .next (s.gangAcked gseq member commit)
/-- ABORT arrives at a member (R378). -/
def execMemberAbort (gseq : Nat) (s : State) : Out := .next (s.memberAborted gseq)

end Sys2Proof.Machine
end

