-- ==== Sys2Proof/Machine/ExecWords.lean ====
section
/-!
DEFINITION. The meaning of every instruction word and compact slot, in the order of the opcode table: each runs its plan
(`Plan.lean`), which its family's file gives, for the strand and the place that `cur` names.
-/

namespace Sys2Proof.Machine

/-- `b` (R95). -/
def execB (off : BitVec 20) (s : State) : Out := run (planB off) s
/-- `b.eq` (R95). -/
def execBeq (a : BitVec 6) (b : BitVec 6) (off : BitVec 20) (s : State) : Out := run (planBeq a b off) s
/-- `b.ne` (R95). -/
def execBne (a : BitVec 6) (b : BitVec 6) (off : BitVec 20) (s : State) : Out := run (planBne a b off) s
/-- `b.lt` (R95). -/
def execBlt (a : BitVec 6) (b : BitVec 6) (off : BitVec 20) (s : State) : Out := run (planBlt a b off) s
/-- `b.ge` (R95). -/
def execBge (a : BitVec 6) (b : BitVec 6) (off : BitVec 20) (s : State) : Out := run (planBge a b off) s
/-- `b.ltn` (R95). -/
def execBltn (a : BitVec 6) (b : BitVec 6) (off : BitVec 20) (s : State) : Out := run (planBltn a b off) s
/-- `b.gen` (R95). -/
def execBgen (a : BitVec 6) (b : BitVec 6) (off : BitVec 20) (s : State) : Out := run (planBgen a b off) s
/-- `bz` (R95). -/
def execBz (a : BitVec 6) (off : BitVec 20) (s : State) : Out := run (planBz a off) s
/-- `bnz` (R95). -/
def execBnz (a : BitVec 6) (off : BitVec 20) (s : State) : Out := run (planBnz a off) s
/-- `jmp` (R96). -/
def execJmp (a : BitVec 6) (s : State) : Out := run (planJmp a) s
/-- `calli` (R96). -/
def execCalli (a : BitVec 6) (s : State) : Out := run (planCalli a) s
/-- `ret` (R96). -/
def execRet (s : State) : Out := run planRet s
/-- `call` (R96). -/
def execCall (off : BitVec 20) (s : State) : Out := run (planCall off) s
/-- `mwait` (R98). -/
def execMwait (d : BitVec 6) (a : BitVec 6) (b : BitVec 6) (c : BitVec 6) (s : State) : Out := run (planMwait d a b c) s
/-- `halt` (R99). -/
def execHalt (s : State) : Out := run planHalt s
/-- `launch` (R76). -/
def execLaunch (d : BitVec 6) (a : BitVec 6) (s : State) : Out := run (planLaunch d a) s
/-- `glaunch` (R75). -/
def execGlaunch (d : BitVec 6) (a : BitVec 6) (s : State) : Out := run (planGlaunch d a) s
/-- `wid.get` (R77). -/
def execWidGet (d : BitVec 6) (s : State) : Out := run (planWidGet d) s
/-- `wid.get` (R77). -/
def execWidGetField (d : BitVec 6) (f : BitVec 3) (s : State) : Out := run (planWidGetField d f) s
/-- `bar.k` (R78). -/
def execBarK (k : BitVec 3) (s : State) : Out := run (planBarK k) s
/-- `tm.bind` (R74). -/
def execTmBind (a : BitVec 6) (b : BitVec 6) (c : BitVec 6) (n : BitVec 4) (s : State) : Out := run (planTmBind a b c n) s
/-- `tm.adv` (R74). -/
def execTmAdv (a : BitVec 6) (b : BitVec 6) (n : BitVec 4) (s : State) : Out := run (planTmAdv a b n) s
/-- `tm.rd` (R74). -/
def execTmRd (d : BitVec 6) (n : BitVec 4) (s : State) : Out := run (planTmRd d n) s
/-- `ldco` (R59). -/
def execLdco (d : BitVec 6) (a : BitVec 6) (b : BitVec 6) (s : State) : Out := run (planLdco d a b) s
/-- `ldco.drop` (R59). -/
def execLdcoDrop (d : BitVec 6) (a : BitVec 6) (s : State) : Out := run (planLdcoDrop d a) s
/-- `trap` (R320). -/
def execTrap (imm : BitVec 20) (s : State) : Out := run (planTrap imm) s
/-- `sret` (R321). -/
def execSret (s : State) : Out := run planSret s
/-- `ctx.save` (R322). -/
def execCtxSave (d : BitVec 6) (a : BitVec 6) (b : BitVec 6) (s : State) : Out := run (planCtxSave d a b) s
/-- `ctx.load` (R322). -/
def execCtxLoad (d : BitVec 6) (a : BitVec 6) (b : BitVec 6) (s : State) : Out := run (planCtxLoad d a b) s
/-- `erec.rd` (R331). -/
def execErecRd (d : BitVec 6) (a : BitVec 6) (k : BitVec 3) (s : State) : Out := run (planErecRd d a k) s
/-- `add` (R113). -/
def execAdd (d : BitVec 6) (a : BitVec 6) (b : BitVec 6) (s : State) : Out := run (planAdd d a b) s
/-- `sub` (R113). -/
def execSub (d : BitVec 6) (a : BitVec 6) (b : BitVec 6) (s : State) : Out := run (planSub d a b) s
/-- `mul` (R113). -/
def execMul (d : BitVec 6) (a : BitVec 6) (b : BitVec 6) (s : State) : Out := run (planMul d a b) s
/-- `mulh` (R113). -/
def execMulh (d : BitVec 6) (a : BitVec 6) (b : BitVec 6) (s : State) : Out := run (planMulh d a b) s
/-- `mulhn` (R113). -/
def execMulhn (d : BitVec 6) (a : BitVec 6) (b : BitVec 6) (s : State) : Out := run (planMulhn d a b) s
/-- `and` (R113). -/
def execSAnd (d : BitVec 6) (a : BitVec 6) (b : BitVec 6) (s : State) : Out := run (planSAnd d a b) s
/-- `or` (R113). -/
def execSOr (d : BitVec 6) (a : BitVec 6) (b : BitVec 6) (s : State) : Out := run (planSOr d a b) s
/-- `xor` (R113). -/
def execSXor (d : BitVec 6) (a : BitVec 6) (b : BitVec 6) (s : State) : Out := run (planSXor d a b) s
/-- `andn` (R113). -/
def execAndn (d : BitVec 6) (a : BitVec 6) (b : BitVec 6) (s : State) : Out := run (planAndn d a b) s
/-- `shl` (R113). -/
def execShl (d : BitVec 6) (a : BitVec 6) (b : BitVec 6) (s : State) : Out := run (planShl d a b) s
/-- `shr` (R113). -/
def execShr (d : BitVec 6) (a : BitVec 6) (b : BitVec 6) (s : State) : Out := run (planShr d a b) s
/-- `sra` (R113). -/
def execSra (d : BitVec 6) (a : BitVec 6) (b : BitVec 6) (s : State) : Out := run (planSra d a b) s
/-- `rol` (R113). -/
def execRol (d : BitVec 6) (a : BitVec 6) (b : BitVec 6) (s : State) : Out := run (planRol d a b) s
/-- `min` (R113). -/
def execSMin (d : BitVec 6) (a : BitVec 6) (b : BitVec 6) (s : State) : Out := run (planSMin d a b) s
/-- `max` (R113). -/
def execSMax (d : BitVec 6) (a : BitVec 6) (b : BitVec 6) (s : State) : Out := run (planSMax d a b) s
/-- `minn` (R113). -/
def execMinn (d : BitVec 6) (a : BitVec 6) (b : BitVec 6) (s : State) : Out := run (planMinn d a b) s
/-- `maxn` (R113). -/
def execMaxn (d : BitVec 6) (a : BitVec 6) (b : BitVec 6) (s : State) : Out := run (planMaxn d a b) s
/-- `slt` (R113). -/
def execSlt (d : BitVec 6) (a : BitVec 6) (b : BitVec 6) (s : State) : Out := run (planSlt d a b) s
/-- `sltn` (R113). -/
def execSltn (d : BitVec 6) (a : BitVec 6) (b : BitVec 6) (s : State) : Out := run (planSltn d a b) s
/-- `addi` (R114). -/
def execAddi (d : BitVec 6) (a : BitVec 6) (imm : BitVec 20) (s : State) : Out := run (planAddi d a imm) s
/-- `subi` (R114). -/
def execSubi (d : BitVec 6) (a : BitVec 6) (imm : BitVec 20) (s : State) : Out := run (planSubi d a imm) s
/-- `muli` (R114). -/
def execMuli (d : BitVec 6) (a : BitVec 6) (imm : BitVec 20) (s : State) : Out := run (planMuli d a imm) s
/-- `mulhi` (R114). -/
def execMulhi (d : BitVec 6) (a : BitVec 6) (imm : BitVec 20) (s : State) : Out := run (planMulhi d a imm) s
/-- `mulhni` (R114). -/
def execMulhni (d : BitVec 6) (a : BitVec 6) (imm : BitVec 20) (s : State) : Out := run (planMulhni d a imm) s
/-- `andi` (R114). -/
def execAndi (d : BitVec 6) (a : BitVec 6) (imm : BitVec 20) (s : State) : Out := run (planAndi d a imm) s
/-- `ori` (R114). -/
def execOri (d : BitVec 6) (a : BitVec 6) (imm : BitVec 20) (s : State) : Out := run (planOri d a imm) s
/-- `xori` (R114). -/
def execXori (d : BitVec 6) (a : BitVec 6) (imm : BitVec 20) (s : State) : Out := run (planXori d a imm) s
/-- `andni` (R114). -/
def execAndni (d : BitVec 6) (a : BitVec 6) (imm : BitVec 20) (s : State) : Out := run (planAndni d a imm) s
/-- `shli` (R114). -/
def execShli (d : BitVec 6) (a : BitVec 6) (imm : BitVec 20) (s : State) : Out := run (planShli d a imm) s
/-- `shri` (R114). -/
def execShri (d : BitVec 6) (a : BitVec 6) (imm : BitVec 20) (s : State) : Out := run (planShri d a imm) s
/-- `srai` (R114). -/
def execSrai (d : BitVec 6) (a : BitVec 6) (imm : BitVec 20) (s : State) : Out := run (planSrai d a imm) s
/-- `roli` (R114). -/
def execRoli (d : BitVec 6) (a : BitVec 6) (imm : BitVec 20) (s : State) : Out := run (planRoli d a imm) s
/-- `mini` (R114). -/
def execMini (d : BitVec 6) (a : BitVec 6) (imm : BitVec 20) (s : State) : Out := run (planMini d a imm) s
/-- `maxi` (R114). -/
def execMaxi (d : BitVec 6) (a : BitVec 6) (imm : BitVec 20) (s : State) : Out := run (planMaxi d a imm) s
/-- `minni` (R114). -/
def execMinni (d : BitVec 6) (a : BitVec 6) (imm : BitVec 20) (s : State) : Out := run (planMinni d a imm) s
/-- `maxni` (R114). -/
def execMaxni (d : BitVec 6) (a : BitVec 6) (imm : BitVec 20) (s : State) : Out := run (planMaxni d a imm) s
/-- `slti` (R114). -/
def execSlti (d : BitVec 6) (a : BitVec 6) (imm : BitVec 20) (s : State) : Out := run (planSlti d a imm) s
/-- `sltni` (R114). -/
def execSltni (d : BitVec 6) (a : BitVec 6) (imm : BitVec 20) (s : State) : Out := run (planSltni d a imm) s
/-- `div` (R115). -/
def execDiv (d : BitVec 6) (a : BitVec 6) (b : BitVec 6) (s : State) : Out := run (planDiv d a b) s
/-- `divn` (R115). -/
def execDivn (d : BitVec 6) (a : BitVec 6) (b : BitVec 6) (s : State) : Out := run (planDivn d a b) s
/-- `rem` (R115). -/
def execRem (d : BitVec 6) (a : BitVec 6) (b : BitVec 6) (s : State) : Out := run (planRem d a b) s
/-- `remn` (R115). -/
def execRemn (d : BitVec 6) (a : BitVec 6) (b : BitVec 6) (s : State) : Out := run (planRemn d a b) s
/-- `clz` (R116). -/
def execClz (d : BitVec 6) (a : BitVec 6) (s : State) : Out := run (planClz d a) s
/-- `ctz` (R116). -/
def execCtz (d : BitVec 6) (a : BitVec 6) (s : State) : Out := run (planCtz d a) s
/-- `popc` (R116). -/
def execPopc (d : BitVec 6) (a : BitVec 6) (s : State) : Out := run (planPopc d a) s
/-- `sel` (R117). -/
def execSel (d : BitVec 6) (a : BitVec 6) (b : BitVec 6) (c : BitVec 6) (s : State) : Out := run (planSel d a b c) s
/-- `li` (R118). -/
def execLi (d : BitVec 6) (imm : BitVec 20) (s : State) : Out := run (planLi d imm) s
/-- `lui` (R118). -/
def execLui (d : BitVec 6) (imm : BitVec 20) (s : State) : Out := run (planLui d imm) s
/-- `adr` (R119). -/
def execAdr (d : BitVec 6) (imm : BitVec 20) (s : State) : Out := run (planAdr d imm) s
/-- `lsa` (R119). -/
def execLsa (d : BitVec 6) (a : BitVec 6) (b : BitVec 6) (k : BitVec 2) (s : State) : Out := run (planLsa d a b k) s
/-- `ext` (R120). -/
def execExt (d : BitVec 6) (a : BitVec 6) (pos : BitVec 6) (len : BitVec 6) (s : State) : Out := run (planExt d a pos len) s
/-- `ext.s` (R120). -/
def execExtS (d : BitVec 6) (a : BitVec 6) (pos : BitVec 6) (len : BitVec 6) (s : State) : Out := run (planExtS d a pos len) s
/-- `ins` (R120). -/
def execIns (d : BitVec 6) (a : BitVec 6) (pos : BitVec 6) (len : BitVec 6) (s : State) : Out := run (planIns d a pos len) s
/-- `frame` (R106). -/
def execFrame (n : BitVec 6) (s : State) : Out := run (planFrame n) s
/-- `fadd.s` (R122). -/
def execFaddS (d : BitVec 6) (a : BitVec 6) (b : BitVec 6) (rm : Rm) (s : State) : Out := run (planFaddS d a b rm) s
/-- `fsub.s` (R122). -/
def execFsubS (d : BitVec 6) (a : BitVec 6) (b : BitVec 6) (rm : Rm) (s : State) : Out := run (planFsubS d a b rm) s
/-- `fmul.s` (R122). -/
def execFmulS (d : BitVec 6) (a : BitVec 6) (b : BitVec 6) (rm : Rm) (s : State) : Out := run (planFmulS d a b rm) s
/-- `ffma.s` (R122). -/
def execFfmaS (d : BitVec 6) (a : BitVec 6) (b : BitVec 6) (rm : Rm) (c : BitVec 6) (s : State) : Out := run (planFfmaS d a b rm c) s
/-- `fdiv.s` (R122). -/
def execFdivS (d : BitVec 6) (a : BitVec 6) (b : BitVec 6) (rm : Rm) (s : State) : Out := run (planFdivS d a b rm) s
/-- `fsqrt.s` (R122). -/
def execFsqrtS (d : BitVec 6) (a : BitVec 6) (rm : Rm) (s : State) : Out := run (planFsqrtS d a rm) s
/-- `fcmp.s.eq` (R123). -/
def execFcmpSEq (d : BitVec 6) (a : BitVec 6) (b : BitVec 6) (s : State) : Out := run (planFcmpSEq d a b) s
/-- `fcmp.s.lt` (R123). -/
def execFcmpSLt (d : BitVec 6) (a : BitVec 6) (b : BitVec 6) (s : State) : Out := run (planFcmpSLt d a b) s
/-- `fcmp.s.le` (R123). -/
def execFcmpSLe (d : BitVec 6) (a : BitVec 6) (b : BitVec 6) (s : State) : Out := run (planFcmpSLe d a b) s
/-- `fcmp.s.un` (R123). -/
def execFcmpSUn (d : BitVec 6) (a : BitVec 6) (b : BitVec 6) (s : State) : Out := run (planFcmpSUn d a b) s
/-- `fcvt.s.fi` (R124). -/
def execFcvtSFi (d : BitVec 6) (a : BitVec 6) (rm : Rm) (s : State) : Out := run (planFcvtSFi d a rm) s
/-- `fcvt.s.fn` (R124). -/
def execFcvtSFn (d : BitVec 6) (a : BitVec 6) (rm : Rm) (s : State) : Out := run (planFcvtSFn d a rm) s
/-- `fcvt.s.if` (R124). -/
def execFcvtSIf (d : BitVec 6) (a : BitVec 6) (rm : Rm) (s : State) : Out := run (planFcvtSIf d a rm) s
/-- `fcvt.s.nf` (R124). -/
def execFcvtSNf (d : BitVec 6) (a : BitVec 6) (rm : Rm) (s : State) : Out := run (planFcvtSNf d a rm) s
/-- `mfs` (R110). -/
def execMfs (d : BitVec 6) (num : BitVec 12) (s : State) : Out := run (planMfs d num) s
/-- `mts` (R110). -/
def execMts (a : BitVec 6) (num : BitVec 12) (s : State) : Out := run (planMts a num) s
/-- `mts` (R129). -/
def execMvlWrite (a : BitVec 6) (num : BitVec 12) (s : State) : Out := run (planMvlWrite a num) s
/-- `mts` (R182). -/
def execTshapeWrite (a : BitVec 6) (num : BitVec 12) (s : State) : Out := run (planTshapeWrite a num) s
/-- `mts` (R327). -/
def execDlymodeClr (a : BitVec 6) (num : BitVec 12) (s : State) : Out := run (planDlymodeClr a num) s
/-- `mts` (R332). -/
def execEfqWrite (a : BitVec 6) (num : BitVec 12) (s : State) : Out := run (planEfqWrite a num) s
/-- `vsetl` (R131). -/
def execVsetl (d : BitVec 6) (a : BitVec 6) (ty : Ty) (s : State) : Out := run (planVsetl d a ty) s
/-- `vrel` (R131). -/
def execVrel (s : State) : Out := run planVrel s
/-- `vspill` (R140). -/
def execVspill (v : VCtl) (a : BitVec 6) (b : BitVec 6) (ty : Ty) (disp : BitVec 9) (s : State) : Out := run (planVspill v a b ty disp) s
/-- `vfill` (R140). -/
def execVfill (d : BitVec 6) (a : BitVec 6) (ty : Ty) (disp : BitVec 9) (s : State) : Out := run (planVfill d a ty disp) s
/-- `vadd` (R143). -/
def execVadd (v : VCtl) (d : BitVec 6) (a : BitVec 6) (b : BitVec 6) (ty : Ty) (sat : BitVec 1) (s : State) : Out := run (planVadd v d a b ty sat) s
/-- `vsub` (R143). -/
def execVsub (v : VCtl) (d : BitVec 6) (a : BitVec 6) (b : BitVec 6) (ty : Ty) (sat : BitVec 1) (s : State) : Out := run (planVsub v d a b ty sat) s
/-- `vmul` (R143). -/
def execVmul (v : VCtl) (d : BitVec 6) (a : BitVec 6) (b : BitVec 6) (ty : Ty) (sat : BitVec 1) (s : State) : Out := run (planVmul v d a b ty sat) s
/-- `vmulh` (R143). -/
def execVmulh (v : VCtl) (d : BitVec 6) (a : BitVec 6) (b : BitVec 6) (ty : Ty) (s : State) : Out := run (planVmulh v d a b ty) s
/-- `vmin` (R143). -/
def execVmin (v : VCtl) (d : BitVec 6) (a : BitVec 6) (b : BitVec 6) (ty : Ty) (s : State) : Out := run (planVmin v d a b ty) s
/-- `vmax` (R143). -/
def execVmax (v : VCtl) (d : BitVec 6) (a : BitVec 6) (b : BitVec 6) (ty : Ty) (s : State) : Out := run (planVmax v d a b ty) s
/-- `vand` (R143). -/
def execVand (v : VCtl) (d : BitVec 6) (a : BitVec 6) (b : BitVec 6) (ty : Ty) (s : State) : Out := run (planVand v d a b ty) s
/-- `vor` (R143). -/
def execVor (v : VCtl) (d : BitVec 6) (a : BitVec 6) (b : BitVec 6) (ty : Ty) (s : State) : Out := run (planVor v d a b ty) s
/-- `vxor` (R143). -/
def execVxor (v : VCtl) (d : BitVec 6) (a : BitVec 6) (b : BitVec 6) (ty : Ty) (s : State) : Out := run (planVxor v d a b ty) s
/-- `vshl` (R143). -/
def execVshl (v : VCtl) (d : BitVec 6) (a : BitVec 6) (b : BitVec 6) (ty : Ty) (s : State) : Out := run (planVshl v d a b ty) s
/-- `vshr` (R143). -/
def execVshr (v : VCtl) (d : BitVec 6) (a : BitVec 6) (b : BitVec 6) (ty : Ty) (s : State) : Out := run (planVshr v d a b ty) s
/-- `vsra` (R143). -/
def execVsra (v : VCtl) (d : BitVec 6) (a : BitVec 6) (b : BitVec 6) (ty : Ty) (s : State) : Out := run (planVsra v d a b ty) s
/-- `vcmp.eq` (R144). -/
def execVcmpEq (v : VCtl) (d : BitVec 6) (a : BitVec 6) (b : BitVec 6) (ty : Ty) (s : State) : Out := run (planVcmpEq v d a b ty) s
/-- `vcmp.ne` (R144). -/
def execVcmpNe (v : VCtl) (d : BitVec 6) (a : BitVec 6) (b : BitVec 6) (ty : Ty) (s : State) : Out := run (planVcmpNe v d a b ty) s
/-- `vcmp.lt` (R144). -/
def execVcmpLt (v : VCtl) (d : BitVec 6) (a : BitVec 6) (b : BitVec 6) (ty : Ty) (s : State) : Out := run (planVcmpLt v d a b ty) s
/-- `vcmp.le` (R144). -/
def execVcmpLe (v : VCtl) (d : BitVec 6) (a : BitVec 6) (b : BitVec 6) (ty : Ty) (s : State) : Out := run (planVcmpLe v d a b ty) s
/-- `vwadd` (R145). -/
def execVwadd (v : VCtl) (d : BitVec 6) (a : BitVec 6) (b : BitVec 6) (rm : Rm) (ty : Ty) (wf : BitVec 2) (s : State) : Out := run (planVwadd v d a b rm ty wf) s
/-- `vwmul` (R145). -/
def execVwmul (v : VCtl) (d : BitVec 6) (a : BitVec 6) (b : BitVec 6) (rm : Rm) (ty : Ty) (wf : BitVec 2) (s : State) : Out := run (planVwmul v d a b rm ty wf) s
/-- `vwmac` (R145). -/
def execVwmac (v : VCtl) (d : BitVec 6) (a : BitVec 6) (b : BitVec 6) (rm : Rm) (c : BitVec 6) (ty : Ty) (sat : BitVec 1) (wf : BitVec 2) (s : State) : Out := run (planVwmac v d a b rm c ty sat wf) s
/-- `vmov` (R146). -/
def execVmov (v : VCtl) (d : BitVec 6) (a : BitVec 6) (ty : Ty) (s : State) : Out := run (planVmov v d a ty) s
/-- `vid` (R146). -/
def execVid (v : VCtl) (d : BitVec 6) (ty : Ty) (s : State) : Out := run (planVid v d ty) s
/-- `vsel` (R146). -/
def execVsel (v : VCtl) (d : BitVec 6) (a : BitVec 6) (b : BitVec 6) (ty : Ty) (s : State) : Out := run (planVsel v d a b ty) s
/-- `vdup` (R146). -/
def execVdup (v : VCtl) (d : BitVec 6) (a : BitVec 6) (b : BitVec 6) (ty : Ty) (s : State) : Out := run (planVdup v d a b ty) s
/-- `vperm` (R147). -/
def execVperm (v : VCtl) (d : BitVec 6) (a : BitVec 6) (b : BitVec 6) (ty : Ty) (s : State) : Out := run (planVperm v d a b ty) s
/-- `vslup` (R147). -/
def execVslup (v : VCtl) (d : BitVec 6) (a : BitVec 6) (b : BitVec 6) (ty : Ty) (s : State) : Out := run (planVslup v d a b ty) s
/-- `vsldn` (R147). -/
def execVsldn (v : VCtl) (d : BitVec 6) (a : BitVec 6) (b : BitVec 6) (ty : Ty) (s : State) : Out := run (planVsldn v d a b ty) s
/-- `vcmprs` (R147). -/
def execVcmprs (v : VCtl) (d : BitVec 6) (a : BitVec 6) (ty : Ty) (s : State) : Out := run (planVcmprs v d a ty) s
/-- `vexpnd` (R147). -/
def execVexpnd (v : VCtl) (d : BitVec 6) (a : BitVec 6) (ty : Ty) (s : State) : Out := run (planVexpnd v d a ty) s
/-- `qand` (R148). -/
def execQand (v : VCtl) (d : BitVec 6) (a : BitVec 6) (b : BitVec 6) (s : State) : Out := run (planQand v d a b) s
/-- `qor` (R148). -/
def execQor (v : VCtl) (d : BitVec 6) (a : BitVec 6) (b : BitVec 6) (s : State) : Out := run (planQor v d a b) s
/-- `qxor` (R148). -/
def execQxor (v : VCtl) (d : BitVec 6) (a : BitVec 6) (b : BitVec 6) (s : State) : Out := run (planQxor v d a b) s
/-- `qnot` (R148). -/
def execQnot (v : VCtl) (d : BitVec 6) (a : BitVec 6) (s : State) : Out := run (planQnot v d a) s
/-- `qpopc` (R148). -/
def execQpopc (v : VCtl) (d : BitVec 6) (a : BitVec 6) (s : State) : Out := run (planQpopc v d a) s
/-- `qfirst` (R148). -/
def execQfirst (v : VCtl) (d : BitVec 6) (a : BitVec 6) (s : State) : Out := run (planQfirst v d a) s
/-- `vbmand` (R149). -/
def execVbmand (v : VCtl) (d : BitVec 6) (a : BitVec 6) (b : BitVec 6) (ty : Ty) (s : State) : Out := run (planVbmand v d a b ty) s
/-- `vbpfx` (R149). -/
def execVbpfx (v : VCtl) (d : BitVec 6) (a : BitVec 6) (ty : Ty) (s : State) : Out := run (planVbpfx v d a ty) s
/-- `vxsect` (R149). -/
def execVxsect (v : VCtl) (d : BitVec 6) (a : BitVec 6) (b : BitVec 6) (ty : Ty) (s : State) : Out := run (planVxsect v d a b ty) s
/-- `vconf` (R150). -/
def execVconf (v : VCtl) (d : BitVec 6) (a : BitVec 6) (ty : Ty) (qe : BitVec 3) (s : State) : Out := run (planVconf v d a ty qe) s
/-- `vfadd` (R151). -/
def execVfadd (v : VCtl) (d : BitVec 6) (a : BitVec 6) (b : BitVec 6) (rm : Rm) (ty : Ty) (s : State) : Out := run (planVfadd v d a b rm ty) s
/-- `vfsub` (R151). -/
def execVfsub (v : VCtl) (d : BitVec 6) (a : BitVec 6) (b : BitVec 6) (rm : Rm) (ty : Ty) (s : State) : Out := run (planVfsub v d a b rm ty) s
/-- `vfmul` (R151). -/
def execVfmul (v : VCtl) (d : BitVec 6) (a : BitVec 6) (b : BitVec 6) (rm : Rm) (ty : Ty) (s : State) : Out := run (planVfmul v d a b rm ty) s
/-- `vfmin` (R151). -/
def execVfmin (v : VCtl) (d : BitVec 6) (a : BitVec 6) (b : BitVec 6) (ty : Ty) (s : State) : Out := run (planVfmin v d a b ty) s
/-- `vfmax` (R151). -/
def execVfmax (v : VCtl) (d : BitVec 6) (a : BitVec 6) (b : BitVec 6) (ty : Ty) (s : State) : Out := run (planVfmax v d a b ty) s
/-- `vfma` (R151). -/
def execVfma (v : VCtl) (d : BitVec 6) (a : BitVec 6) (b : BitVec 6) (rm : Rm) (c : BitVec 6) (ty : Ty) (s : State) : Out := run (planVfma v d a b rm c ty) s
/-- `vfms` (R151). -/
def execVfms (v : VCtl) (d : BitVec 6) (a : BitVec 6) (b : BitVec 6) (rm : Rm) (c : BitVec 6) (ty : Ty) (s : State) : Out := run (planVfms v d a b rm c ty) s
/-- `vfnma` (R151). -/
def execVfnma (v : VCtl) (d : BitVec 6) (a : BitVec 6) (b : BitVec 6) (rm : Rm) (c : BitVec 6) (ty : Ty) (s : State) : Out := run (planVfnma v d a b rm c ty) s
/-- `vfdiv` (R151). -/
def execVfdiv (v : VCtl) (d : BitVec 6) (a : BitVec 6) (b : BitVec 6) (rm : Rm) (ty : Ty) (s : State) : Out := run (planVfdiv v d a b rm ty) s
/-- `vfsqrt` (R151). -/
def execVfsqrt (v : VCtl) (d : BitVec 6) (a : BitVec 6) (rm : Rm) (ty : Ty) (s : State) : Out := run (planVfsqrt v d a rm ty) s
/-- `vrcp` (R151). -/
def execVrcp (v : VCtl) (d : BitVec 6) (a : BitVec 6) (rm : Rm) (ty : Ty) (s : State) : Out := run (planVrcp v d a rm ty) s
/-- `vrsqrt` (R151). -/
def execVrsqrt (v : VCtl) (d : BitVec 6) (a : BitVec 6) (rm : Rm) (ty : Ty) (s : State) : Out := run (planVrsqrt v d a rm ty) s
/-- `vexp2` (R151). -/
def execVexp2 (v : VCtl) (d : BitVec 6) (a : BitVec 6) (rm : Rm) (ty : Ty) (s : State) : Out := run (planVexp2 v d a rm ty) s
/-- `vfcmp.eq` (R151). -/
def execVfcmpEq (v : VCtl) (d : BitVec 6) (a : BitVec 6) (b : BitVec 6) (ty : Ty) (s : State) : Out := run (planVfcmpEq v d a b ty) s
/-- `vfcmp.lt` (R151). -/
def execVfcmpLt (v : VCtl) (d : BitVec 6) (a : BitVec 6) (b : BitVec 6) (ty : Ty) (s : State) : Out := run (planVfcmpLt v d a b ty) s
/-- `vfcmp.le` (R151). -/
def execVfcmpLe (v : VCtl) (d : BitVec 6) (a : BitVec 6) (b : BitVec 6) (ty : Ty) (s : State) : Out := run (planVfcmpLe v d a b ty) s
/-- `vfcmp.un` (R151). -/
def execVfcmpUn (v : VCtl) (d : BitVec 6) (a : BitVec 6) (b : BitVec 6) (ty : Ty) (s : State) : Out := run (planVfcmpUn v d a b ty) s
/-- `vredo.add` (R152). -/
def execVredoAdd (v : VCtl) (d : BitVec 6) (a : BitVec 6) (b : BitVec 6) (rm : Rm) (ty : Ty) (sat : BitVec 1) (s : State) : Out := run (planVredoAdd v d a b rm ty sat) s
/-- `vredo.min` (R152). -/
def execVredoMin (v : VCtl) (d : BitVec 6) (a : BitVec 6) (b : BitVec 6) (ty : Ty) (s : State) : Out := run (planVredoMin v d a b ty) s
/-- `vredo.max` (R152). -/
def execVredoMax (v : VCtl) (d : BitVec 6) (a : BitVec 6) (b : BitVec 6) (ty : Ty) (s : State) : Out := run (planVredoMax v d a b ty) s
/-- `vredo.and` (R152). -/
def execVredoAnd (v : VCtl) (d : BitVec 6) (a : BitVec 6) (b : BitVec 6) (ty : Ty) (s : State) : Out := run (planVredoAnd v d a b ty) s
/-- `vredo.or` (R152). -/
def execVredoOr (v : VCtl) (d : BitVec 6) (a : BitVec 6) (b : BitVec 6) (ty : Ty) (s : State) : Out := run (planVredoOr v d a b ty) s
/-- `vredo.xor` (R152). -/
def execVredoXor (v : VCtl) (d : BitVec 6) (a : BitVec 6) (b : BitVec 6) (ty : Ty) (s : State) : Out := run (planVredoXor v d a b ty) s
/-- `vredt.add` (R152). -/
def execVredtAdd (v : VCtl) (d : BitVec 6) (a : BitVec 6) (b : BitVec 6) (rm : Rm) (ty : Ty) (sat : BitVec 1) (s : State) : Out := run (planVredtAdd v d a b rm ty sat) s
/-- `vredt.min` (R152). -/
def execVredtMin (v : VCtl) (d : BitVec 6) (a : BitVec 6) (b : BitVec 6) (ty : Ty) (s : State) : Out := run (planVredtMin v d a b ty) s
/-- `vredt.max` (R152). -/
def execVredtMax (v : VCtl) (d : BitVec 6) (a : BitVec 6) (b : BitVec 6) (ty : Ty) (s : State) : Out := run (planVredtMax v d a b ty) s
/-- `vredt.and` (R152). -/
def execVredtAnd (v : VCtl) (d : BitVec 6) (a : BitVec 6) (b : BitVec 6) (ty : Ty) (s : State) : Out := run (planVredtAnd v d a b ty) s
/-- `vredt.or` (R152). -/
def execVredtOr (v : VCtl) (d : BitVec 6) (a : BitVec 6) (b : BitVec 6) (ty : Ty) (s : State) : Out := run (planVredtOr v d a b ty) s
/-- `vredt.xor` (R152). -/
def execVredtXor (v : VCtl) (d : BitVec 6) (a : BitVec 6) (b : BitVec 6) (ty : Ty) (s : State) : Out := run (planVredtXor v d a b ty) s
/-- `vscan.add` (R152). -/
def execVscanAdd (v : VCtl) (d : BitVec 6) (a : BitVec 6) (b : BitVec 6) (rm : Rm) (ty : Ty) (sat : BitVec 1) (s : State) : Out := run (planVscanAdd v d a b rm ty sat) s
/-- `vscan.min` (R152). -/
def execVscanMin (v : VCtl) (d : BitVec 6) (a : BitVec 6) (b : BitVec 6) (ty : Ty) (s : State) : Out := run (planVscanMin v d a b ty) s
/-- `vscan.max` (R152). -/
def execVscanMax (v : VCtl) (d : BitVec 6) (a : BitVec 6) (b : BitVec 6) (ty : Ty) (s : State) : Out := run (planVscanMax v d a b ty) s
/-- `vscan.and` (R152). -/
def execVscanAnd (v : VCtl) (d : BitVec 6) (a : BitVec 6) (b : BitVec 6) (ty : Ty) (s : State) : Out := run (planVscanAnd v d a b ty) s
/-- `vscan.or` (R152). -/
def execVscanOr (v : VCtl) (d : BitVec 6) (a : BitVec 6) (b : BitVec 6) (ty : Ty) (s : State) : Out := run (planVscanOr v d a b ty) s
/-- `vscan.xor` (R152). -/
def execVscanXor (v : VCtl) (d : BitVec 6) (a : BitVec 6) (b : BitVec 6) (ty : Ty) (s : State) : Out := run (planVscanXor v d a b ty) s
/-- `fmt.set` (R162). -/
def execFmtSet (d : BitVec 6) (a : BitVec 6) (s : State) : Out := run (planFmtSet d a) s
/-- `tid.bind` (R172). -/
def execTidBind (d : BitVec 6) (a : BitVec 6) (s : State) : Out := run (planTidBind d a) s
/-- `tid.rd` (R172). -/
def execTidRd (d : BitVec 6) (a : BitVec 6) (k : BitVec 3) (s : State) : Out := run (planTidRd d a k) s
/-- `vcvt` (R176). -/
def execVcvtTo (v : VCtl) (d : BitVec 6) (a : BitVec 6) (rm : Rm) (ty : Ty) (sat : BitVec 1) (fc : BitVec 6) (s : State) : Out := run (planVcvtTo v d a rm ty sat fc) s
/-- `vcvt` (R176). -/
def execVcvtFrom (v : VCtl) (d : BitVec 6) (a : BitVec 6) (rm : Rm) (ty : Ty) (sat : BitVec 1) (fc : BitVec 6) (s : State) : Out := run (planVcvtFrom v d a rm ty sat fc) s
/-- `vpack` (R177). -/
def execVpack (v : VCtl) (d : BitVec 6) (a : BitVec 6) (ty : Ty) (fc : BitVec 6) (s : State) : Out := run (planVpack v d a ty fc) s
/-- `vunpk` (R177). -/
def execVunpk (v : VCtl) (d : BitVec 6) (a : BitVec 6) (ty : Ty) (fc : BitVec 6) (s : State) : Out := run (planVunpk v d a ty fc) s
/-- `vscl` (R178). -/
def execVscl (v : VCtl) (d : BitVec 6) (a : BitVec 6) (b : BitVec 6) (rm : Rm) (ty : Ty) (sat : BitVec 1) (fc : BitVec 6) (s : State) : Out := run (planVscl v d a b rm ty sat fc) s
/-- `vquant` (R179). -/
def execVquant (v : VCtl) (d : BitVec 6) (a : BitVec 6) (b : BitVec 6) (rm : Rm) (ty : Ty) (fc : BitVec 6) (s : State) : Out := run (planVquant v d a b rm ty fc) s
/-- `tld` (R188). -/
def execTld (d : BitVec 6) (a : BitVec 6) (b : BitVec 6) (c : BitVec 6) (s : State) : Out := run (planTld d a b c) s
/-- `tldt` (R188). -/
def execTldt (d : BitVec 6) (a : BitVec 6) (b : BitVec 6) (c : BitVec 6) (s : State) : Out := run (planTldt d a b c) s
/-- `tst` (R189). -/
def execTst (d : BitVec 6) (a : BitVec 6) (b : BitVec 6) (c : BitVec 6) (s : State) : Out := run (planTst d a b c) s
/-- `tzero` (R190). -/
def execTzero (d : BitVec 6) (a : BitVec 6) (s : State) : Out := run (planTzero d a) s
/-- `tlatch` (R191). -/
def execTlatch (a : BitVec 6) (b : BitVec 6) (s : State) : Out := run (planTlatch a b) s
/-- `mmr` (R192). -/
def execMmr (v : VCtl) (d : BitVec 6) (a : BitVec 6) (b : BitVec 6) (acc : BitVec 1) (s : State) : Out := run (planMmr v d a b acc) s
/-- `mmr.t` (R193). -/
def execMmrT (v : VCtl) (d : BitVec 6) (a : BitVec 6) (b : BitVec 6) (c : BitVec 6) (acc : BitVec 1) (s : State) : Out := run (planMmrT v d a b c acc) s
/-- `mmr.rep` (R195). -/
def execMmrRep (v : VCtl) (d : BitVec 6) (a : BitVec 6) (b : BitVec 6) (acc : BitVec 1) (n : BitVec 3) (s : State) : Out := run (planMmrRep v d a b acc n) s
/-- `mmr.sk` (R194). -/
def execMmrSk (v : VCtl) (d : BitVec 6) (a : BitVec 6) (b : BitVec 6) (c : BitVec 6) (acc : BitVec 1) (s : State) : Out := run (planMmrSk v d a b c acc) s
/-- `rnew` (R207). -/
def execRnew (d : BitVec 6) (a : BitVec 6) (b : BitVec 6) (nw : BitVec 1) (s : State) : Out := run (planRnew d a b nw) s
/-- `rcut` (R208). -/
def execRcut (d : BitVec 6) (a : BitVec 6) (b : BitVec 6) (nw : BitVec 1) (axis : BitVec 1) (s : State) : Out := run (planRcut d a b nw axis) s
/-- `rsplc` (R209). -/
def execRsplc (d : BitVec 6) (a : BitVec 6) (b : BitVec 6) (s : State) : Out := run (planRsplc d a b) s
/-- `rfree` (R210). -/
def execRfree (a : BitVec 6) (s : State) : Out := run (planRfree a) s
/-- `hmov` (R211). -/
def execHmov (d : BitVec 6) (a : BitVec 6) (b : BitVec 6) (s : State) : Out := run (planHmov d a b) s
/-- `hinfo` (R212). -/
def execHinfo (d : BitVec 6) (a : BitVec 6) (k : BitVec 2) (s : State) : Out := run (planHinfo d a k) s
/-- `rld` (R213). -/
def execRld (v : VCtl) (d : BitVec 6) (a : BitVec 6) (b : BitVec 6) (s : State) : Out := run (planRld v d a b) s
/-- `rst` (R213). -/
def execRst (v : VCtl) (a : BitVec 6) (b : BitVec 6) (c : BitVec 6) (s : State) : Out := run (planRst v a b c) s
/-- `ld.i8` (R254). -/
def execLdI8 (d : BitVec 6) (a : BitVec 6) (imm : BitVec 20) (s : State) : Out := run (planLdI8 d a imm) s
/-- `ld.i16` (R254). -/
def execLdI16 (d : BitVec 6) (a : BitVec 6) (imm : BitVec 20) (s : State) : Out := run (planLdI16 d a imm) s
/-- `ld.i32` (R254). -/
def execLdI32 (d : BitVec 6) (a : BitVec 6) (imm : BitVec 20) (s : State) : Out := run (planLdI32 d a imm) s
/-- `ld.i64` (R254). -/
def execLdI64 (d : BitVec 6) (a : BitVec 6) (imm : BitVec 20) (s : State) : Out := run (planLdI64 d a imm) s
/-- `ld.n8` (R254). -/
def execLdN8 (d : BitVec 6) (a : BitVec 6) (imm : BitVec 20) (s : State) : Out := run (planLdN8 d a imm) s
/-- `ld.n16` (R254). -/
def execLdN16 (d : BitVec 6) (a : BitVec 6) (imm : BitVec 20) (s : State) : Out := run (planLdN16 d a imm) s
/-- `ld.n32` (R254). -/
def execLdN32 (d : BitVec 6) (a : BitVec 6) (imm : BitVec 20) (s : State) : Out := run (planLdN32 d a imm) s
/-- `st.i8` (R254). -/
def execSt8 (d : BitVec 6) (a : BitVec 6) (imm : BitVec 20) (s : State) : Out := run (planSt8 d a imm) s
/-- `st.i16` (R254). -/
def execSt16 (d : BitVec 6) (a : BitVec 6) (imm : BitVec 20) (s : State) : Out := run (planSt16 d a imm) s
/-- `st.i32` (R254). -/
def execSt32 (d : BitVec 6) (a : BitVec 6) (imm : BitVec 20) (s : State) : Out := run (planSt32 d a imm) s
/-- `st.i64` (R254). -/
def execSt64 (d : BitVec 6) (a : BitVec 6) (imm : BitVec 20) (s : State) : Out := run (planSt64 d a imm) s
/-- `vld` (R258). -/
def execVld (v : VCtl) (d : BitVec 6) (a : BitVec 6) (b : BitVec 6) (rm : Rm) (ty : Ty) (sat : BitVec 1) (t : BitVec 1) (disp : BitVec 8) (s : State) : Out := run (planVld v d a b rm ty sat t disp) s
/-- `vst` (R258). -/
def execVst (v : VCtl) (a : BitVec 6) (b : BitVec 6) (c : BitVec 6) (ty : Ty) (t : BitVec 1) (disp : BitVec 8) (s : State) : Out := run (planVst v a b c ty t disp) s
/-- `vlds` (R258). -/
def execVlds (v : VCtl) (d : BitVec 6) (a : BitVec 6) (b : BitVec 6) (ty : Ty) (disp : BitVec 8) (s : State) : Out := run (planVlds v d a b ty disp) s
/-- `vsts` (R258). -/
def execVsts (v : VCtl) (a : BitVec 6) (b : BitVec 6) (c : BitVec 6) (ty : Ty) (disp : BitVec 8) (s : State) : Out := run (planVsts v a b c ty disp) s
/-- `vgat` (R258). -/
def execVgat (v : VCtl) (d : BitVec 6) (a : BitVec 6) (b : BitVec 6) (rm : Rm) (ty : Ty) (sat : BitVec 1) (mode : BitVec 2) (k : BitVec 2) (s : State) : Out := run (planVgat v d a b rm ty sat mode k) s
/-- `vsca` (R258). -/
def execVsca (v : VCtl) (a : BitVec 6) (b : BitVec 6) (c : BitVec 6) (ty : Ty) (mode : BitVec 2) (k : BitVec 2) (s : State) : Out := run (planVsca v a b c ty mode k) s
/-- `vgpool` (R259). -/
def execVgpool (v : VCtl) (d : BitVec 6) (a : BitVec 6) (b : BitVec 6) (rm : Rm) (c : BitVec 6) (ty : Ty) (sat : BitVec 1) (mode : BitVec 2) (k : BitVec 2) (s : State) : Out := run (planVgpool v d a b rm c ty sat mode k) s
/-- `vsadd` (R260). -/
def execVsadd (v : VCtl) (a : BitVec 6) (b : BitVec 6) (c : BitVec 6) (ty : Ty) (sat : BitVec 1) (mode : BitVec 2) (k : BitVec 2) (s : State) : Out := run (planVsadd v a b c ty sat mode k) s
/-- `tcopy` (R265). -/
def execTcopy (d : BitVec 6) (a : BitVec 6) (b : BitVec 6) (c : BitVec 6) (s : State) : Out := run (planTcopy d a b c) s
/-- `tcopy.mig` (R268). -/
def execTcopyMig (d : BitVec 6) (a : BitVec 6) (b : BitVec 6) (s : State) : Out := run (planTcopyMig d a b) s
/-- `tcopy.res` (R266). -/
def execTcopyRes (d : BitVec 6) (a : BitVec 6) (s : State) : Out := run (planTcopyRes d a) s
/-- `slab.grow` (R273). -/
def execSlabGrow (d : BitVec 6) (a : BitVec 6) (b : BitVec 6) (s : State) : Out := run (planSlabGrow d a b) s
/-- `smap.set` (R271). -/
def execSmapSet (d : BitVec 6) (a : BitVec 6) (b : BitVec 6) (s : State) : Out := run (planSmapSet d a b) s
/-- `smap.inv` (R272). -/
def execSmapInv (d : BitVec 6) (a : BitVec 6) (b : BitVec 6) (s : State) : Out := run (planSmapInv d a b) s
/-- `bank.mode` (R243). -/
def execBankMode (d : BitVec 6) (a : BitVec 6) (b : BitVec 6) (s : State) : Out := run (planBankMode d a b) s
/-- `tlbinv.pg` (R234). -/
def execTlbinvPg (a : BitVec 6) (b : BitVec 6) (s : State) : Out := run (planTlbinvPg a b) s
/-- `tlbinv.as` (R234). -/
def execTlbinvAs (a : BitVec 6) (s : State) : Out := run (planTlbinvAs a) s
/-- `tlbinv.all` (R234). -/
def execTlbinvAll (s : State) : Out := run planTlbinvAll s
/-- `pprobe` (R235). -/
def execPprobe (d : BitVec 6) (a : BitVec 6) (s : State) : Out := run (planPprobe d a) s
/-- `asid.sw.set` (R236). -/
def execAsidSwSet (a : BitVec 6) (s : State) : Out := run (planAsidSwSet a) s
/-- `asid.sw.bind` (R236). -/
def execAsidSwBind (d : BitVec 6) (a : BitVec 6) (b : BitVec 6) (s : State) : Out := run (planAsidSwBind d a b) s
/-- `asid.sw.drop` (R236). -/
def execAsidSwDrop (d : BitVec 6) (a : BitVec 6) (s : State) : Out := run (planAsidSwDrop d a) s
/-- `amo.swap` (R291). -/
def execAmoSwap (d : BitVec 6) (a : BitVec 6) (b : BitVec 6) (ty : Ty) (ord : BitVec 2) (s : State) : Out := run (planAmoSwap d a b ty ord) s
/-- `amo.cas` (R291). -/
def execAmoCas (d : BitVec 6) (a : BitVec 6) (b : BitVec 6) (c : BitVec 6) (ty : Ty) (ord : BitVec 2) (s : State) : Out := run (planAmoCas d a b c ty ord) s
/-- `amo.add` (R291). -/
def execAmoAdd (d : BitVec 6) (a : BitVec 6) (b : BitVec 6) (ty : Ty) (ord : BitVec 2) (s : State) : Out := run (planAmoAdd d a b ty ord) s
/-- `amo.fadd` (R291). -/
def execAmoFadd (d : BitVec 6) (a : BitVec 6) (b : BitVec 6) (ty : Ty) (ord : BitVec 2) (s : State) : Out := run (planAmoFadd d a b ty ord) s
/-- `amo.and` (R291). -/
def execAmoAnd (d : BitVec 6) (a : BitVec 6) (b : BitVec 6) (ty : Ty) (ord : BitVec 2) (s : State) : Out := run (planAmoAnd d a b ty ord) s
/-- `amo.or` (R291). -/
def execAmoOr (d : BitVec 6) (a : BitVec 6) (b : BitVec 6) (ty : Ty) (ord : BitVec 2) (s : State) : Out := run (planAmoOr d a b ty ord) s
/-- `amo.xor` (R291). -/
def execAmoXor (d : BitVec 6) (a : BitVec 6) (b : BitVec 6) (ty : Ty) (ord : BitVec 2) (s : State) : Out := run (planAmoXor d a b ty ord) s
/-- `amo.min` (R291). -/
def execAmoMin (d : BitVec 6) (a : BitVec 6) (b : BitVec 6) (ty : Ty) (ord : BitVec 2) (s : State) : Out := run (planAmoMin d a b ty ord) s
/-- `amo.max` (R291). -/
def execAmoMax (d : BitVec 6) (a : BitVec 6) (b : BitVec 6) (ty : Ty) (ord : BitVec 2) (s : State) : Out := run (planAmoMax d a b ty ord) s
/-- `amo.minn` (R291). -/
def execAmoMinn (d : BitVec 6) (a : BitVec 6) (b : BitVec 6) (ty : Ty) (ord : BitVec 2) (s : State) : Out := run (planAmoMinn d a b ty ord) s
/-- `amo.maxn` (R291). -/
def execAmoMaxn (d : BitVec 6) (a : BitVec 6) (b : BitVec 6) (ty : Ty) (ord : BitVec 2) (s : State) : Out := run (planAmoMaxn d a b ty ord) s
/-- `vamo.swap` (R294). -/
def execVamoSwap (v : VCtl) (d : BitVec 6) (a : BitVec 6) (b : BitVec 6) (c : BitVec 6) (ty : Ty) (mode : BitVec 2) (ret : BitVec 1) (ord : BitVec 2) (k : BitVec 2) (s : State) : Out := run (planVamoSwap v d a b c ty mode ret ord k) s
/-- `vamo.cas` (R294). -/
def execVamoCas (v : VCtl) (d : BitVec 6) (a : BitVec 6) (b : BitVec 6) (c : BitVec 6) (ty : Ty) (mode : BitVec 2) (ret : BitVec 1) (ord : BitVec 2) (k : BitVec 2) (s : State) : Out := run (planVamoCas v d a b c ty mode ret ord k) s
/-- `vamo.add` (R294). -/
def execVamoAdd (v : VCtl) (d : BitVec 6) (a : BitVec 6) (b : BitVec 6) (c : BitVec 6) (ty : Ty) (mode : BitVec 2) (ret : BitVec 1) (ord : BitVec 2) (k : BitVec 2) (s : State) : Out := run (planVamoAdd v d a b c ty mode ret ord k) s
/-- `vamo.fadd` (R294). -/
def execVamoFadd (v : VCtl) (d : BitVec 6) (a : BitVec 6) (b : BitVec 6) (c : BitVec 6) (ty : Ty) (mode : BitVec 2) (ret : BitVec 1) (ord : BitVec 2) (k : BitVec 2) (s : State) : Out := run (planVamoFadd v d a b c ty mode ret ord k) s
/-- `vamo.and` (R294). -/
def execVamoAnd (v : VCtl) (d : BitVec 6) (a : BitVec 6) (b : BitVec 6) (c : BitVec 6) (ty : Ty) (mode : BitVec 2) (ret : BitVec 1) (ord : BitVec 2) (k : BitVec 2) (s : State) : Out := run (planVamoAnd v d a b c ty mode ret ord k) s
/-- `vamo.or` (R294). -/
def execVamoOr (v : VCtl) (d : BitVec 6) (a : BitVec 6) (b : BitVec 6) (c : BitVec 6) (ty : Ty) (mode : BitVec 2) (ret : BitVec 1) (ord : BitVec 2) (k : BitVec 2) (s : State) : Out := run (planVamoOr v d a b c ty mode ret ord k) s
/-- `vamo.xor` (R294). -/
def execVamoXor (v : VCtl) (d : BitVec 6) (a : BitVec 6) (b : BitVec 6) (c : BitVec 6) (ty : Ty) (mode : BitVec 2) (ret : BitVec 1) (ord : BitVec 2) (k : BitVec 2) (s : State) : Out := run (planVamoXor v d a b c ty mode ret ord k) s
/-- `vamo.min` (R294). -/
def execVamoMin (v : VCtl) (d : BitVec 6) (a : BitVec 6) (b : BitVec 6) (c : BitVec 6) (ty : Ty) (mode : BitVec 2) (ret : BitVec 1) (ord : BitVec 2) (k : BitVec 2) (s : State) : Out := run (planVamoMin v d a b c ty mode ret ord k) s
/-- `vamo.max` (R294). -/
def execVamoMax (v : VCtl) (d : BitVec 6) (a : BitVec 6) (b : BitVec 6) (c : BitVec 6) (ty : Ty) (mode : BitVec 2) (ret : BitVec 1) (ord : BitVec 2) (k : BitVec 2) (s : State) : Out := run (planVamoMax v d a b c ty mode ret ord k) s
/-- `vamo.minn` (R294). -/
def execVamoMinn (v : VCtl) (d : BitVec 6) (a : BitVec 6) (b : BitVec 6) (c : BitVec 6) (ty : Ty) (mode : BitVec 2) (ret : BitVec 1) (ord : BitVec 2) (k : BitVec 2) (s : State) : Out := run (planVamoMinn v d a b c ty mode ret ord k) s
/-- `vamo.maxn` (R294). -/
def execVamoMaxn (v : VCtl) (d : BitVec 6) (a : BitVec 6) (b : BitVec 6) (c : BitVec 6) (ty : Ty) (mode : BitVec 2) (ret : BitVec 1) (ord : BitVec 2) (k : BitVec 2) (s : State) : Out := run (planVamoMaxn v d a b c ty mode ret ord k) s
/-- `vgl` (R298). -/
def execVgl (v : VCtl) (d : BitVec 6) (a : BitVec 6) (b : BitVec 6) (rm : Rm) (ty : Ty) (sat : BitVec 1) (mode : BitVec 2) (k : BitVec 2) (s : State) : Out := run (planVgl v d a b rm ty sat mode k) s
/-- `vscc` (R299). -/
def execVscc (v : VCtl) (d : BitVec 6) (a : BitVec 6) (b : BitVec 6) (c : BitVec 6) (ty : Ty) (mode : BitVec 2) (k : BitVec 2) (s : State) : Out := run (planVscc v d a b c ty mode k) s
/-- `xred.add` (R302). -/
def execXredAdd (v : VCtl) (d : BitVec 6) (a : BitVec 6) (ty : Ty) (g : BitVec 3) (s : State) : Out := run (planXredAdd v d a ty g) s
/-- `xred.min` (R302). -/
def execXredMin (v : VCtl) (d : BitVec 6) (a : BitVec 6) (ty : Ty) (g : BitVec 3) (s : State) : Out := run (planXredMin v d a ty g) s
/-- `xred.max` (R302). -/
def execXredMax (v : VCtl) (d : BitVec 6) (a : BitVec 6) (ty : Ty) (g : BitVec 3) (s : State) : Out := run (planXredMax v d a ty g) s
/-- `fence` (R286). -/
def execFence (s : State) : Out := run planFence s
/-- `fence.fab` (R286). -/
def execFenceFab (s : State) : Out := run planFenceFab s
/-- `fence.fab.acq` (R286). -/
def execFenceFabAcq (s : State) : Out := run planFenceFabAcq s
/-- `fence.fab.rel` (R286). -/
def execFenceFabRel (s : State) : Out := run planFenceFabRel s
/-- `fence.fab.acq` (R286). -/
def execFenceFabAcqLoad (d : BitVec 6) (a : BitVec 6) (s : State) : Out := run (planFenceFabAcqLoad d a) s
/-- `fence.fab.rel` (R286). -/
def execFenceFabRelStore (a : BitVec 6) (b : BitVec 6) (s : State) : Out := run (planFenceFabRelStore a b) s
/-- `fence.pool` (R286). -/
def execFencePool (s : State) : Out := run planFencePool s
/-- `fence.pool.acq` (R286). -/
def execFencePoolAcq (s : State) : Out := run planFencePoolAcq s
/-- `fence.pool.rel` (R286). -/
def execFencePoolRel (s : State) : Out := run planFencePoolRel s
/-- `fence.pool.acq` (R286). -/
def execFencePoolAcqLoad (d : BitVec 6) (a : BitVec 6) (s : State) : Out := run (planFencePoolAcqLoad d a) s
/-- `fence.pool.rel` (R286). -/
def execFencePoolRelStore (a : BitVec 6) (b : BitVec 6) (s : State) : Out := run (planFencePoolRelStore a b) s
/-- `wait.tl` (R264). -/
def execWaitTl (a : BitVec 6) (b : BitVec 6) (s : State) : Out := run (planWaitTl a b) s
/-- `tl.next` (R264). -/
def execTlNext (d : BitVec 6) (a : BitVec 6) (s : State) : Out := run (planTlNext d a) s
/-- `twalk` (R356). -/
def execTwalk (v : VCtl) (d : BitVec 6) (a : BitVec 6) (b : BitVec 6) (c : BitVec 6) (ty : Ty) (gn : BitVec 4) (s : State) : Out := run (planTwalk v d a b c ty gn) s
/-- `twalk.x` (R356). -/
def execTwalkX (v : VCtl) (d : BitVec 6) (a : BitVec 6) (b : BitVec 6) (c : BitVec 6) (ty : Ty) (gn : BitVec 4) (s : State) : Out := run (planTwalkX v d a b c ty gn) s
/-- `twupd` (R359). -/
def execTwupd (d : BitVec 6) (a : BitVec 6) (b : BitVec 6) (c : BitVec 6) (ty : Ty) (s : State) : Out := run (planTwupd d a b c ty) s
/-- `twrd` (R362). -/
def execTwrd (v : VCtl) (d : BitVec 6) (a : BitVec 6) (p : BitVec 2) (s : State) : Out := run (planTwrd v d a p) s
/-- `twbuild` (R361). -/
def execTwbuild (d : BitVec 6) (a : BitVec 6) (b : BitVec 6) (c : BitVec 6) (ty : Ty) (s : State) : Out := run (planTwbuild d a b c ty) s
/-- `nop` (R97). -/
def execNop (s : State) : Out := run planNop s
/-- `yield` (R97). -/
def execYield_ (s : State) : Out := run planYield_ s
/-- `pf` (R261). -/
def execPf (a : BitVec 6) (disp : BitVec 9) (s : State) : Out := run (planPf a disp) s
/-- `pf.w` (R261). -/
def execPfW (a : BitVec 6) (disp : BitVec 9) (s : State) : Out := run (planPfW a disp) s
/-- `HINT_NOP` (R52). -/
def execHintNop (fn d a b : BitVec 6) (v : VCtl) (rm : Rm) (x : BitVec 20) (s : State) : Out := run (planHintNop fn d a b v rm x) s
/-- `nop` (R44). -/
def execNopC (s : State) : Out := run planNopC s
/-- `add` (R44). -/
def execAddC (d : BitVec 5) (o : CArg) (s : State) : Out := run (planAddC d o) s
/-- `sub` (R44). -/
def execSubC (d : BitVec 5) (o : CArg) (s : State) : Out := run (planSubC d o) s
/-- `mul` (R44). -/
def execMulC (d : BitVec 5) (o : CArg) (s : State) : Out := run (planMulC d o) s
/-- `and` (R44). -/
def execAndC (d : BitVec 5) (o : CArg) (s : State) : Out := run (planAndC d o) s
/-- `or` (R44). -/
def execOrC (d : BitVec 5) (o : CArg) (s : State) : Out := run (planOrC d o) s
/-- `xor` (R44). -/
def execXorC (d : BitVec 5) (o : CArg) (s : State) : Out := run (planXorC d o) s
/-- `andn` (R44). -/
def execAndnC (d : BitVec 5) (o : CArg) (s : State) : Out := run (planAndnC d o) s
/-- `shl` (R44). -/
def execShlC (d : BitVec 5) (o : CArg) (s : State) : Out := run (planShlC d o) s
/-- `shr` (R44). -/
def execShrC (d : BitVec 5) (o : CArg) (s : State) : Out := run (planShrC d o) s
/-- `sra` (R44). -/
def execSraC (d : BitVec 5) (o : CArg) (s : State) : Out := run (planSraC d o) s
/-- `min` (R44). -/
def execMinC (d : BitVec 5) (o : CArg) (s : State) : Out := run (planMinC d o) s
/-- `max` (R44). -/
def execMaxC (d : BitVec 5) (o : CArg) (s : State) : Out := run (planMaxC d o) s
/-- `minn` (R44). -/
def execMinnC (d : BitVec 5) (o : CArg) (s : State) : Out := run (planMinnC d o) s
/-- `maxn` (R44). -/
def execMaxnC (d : BitVec 5) (o : CArg) (s : State) : Out := run (planMaxnC d o) s
/-- `li` (R44). -/
def execLiC (d : BitVec 5) (o : CArg) (s : State) : Out := run (planLiC d o) s
/-- `vadd` (R44). -/
def execVaddC (d : BitVec 5) (o : CArg) (s : State) : Out := run (planVaddC d o) s
/-- `vsub` (R44). -/
def execVsubC (d : BitVec 5) (o : CArg) (s : State) : Out := run (planVsubC d o) s
/-- `vmul` (R44). -/
def execVmulC (d : BitVec 5) (o : CArg) (s : State) : Out := run (planVmulC d o) s
/-- `vand` (R44). -/
def execVandC (d : BitVec 5) (o : CArg) (s : State) : Out := run (planVandC d o) s
/-- `vor` (R44). -/
def execVorC (d : BitVec 5) (o : CArg) (s : State) : Out := run (planVorC d o) s
/-- `vxor` (R44). -/
def execVxorC (d : BitVec 5) (o : CArg) (s : State) : Out := run (planVxorC d o) s
/-- `vshl` (R44). -/
def execVshlC (d : BitVec 5) (o : CArg) (s : State) : Out := run (planVshlC d o) s
/-- `vshr` (R44). -/
def execVshrC (d : BitVec 5) (o : CArg) (s : State) : Out := run (planVshrC d o) s
/-- `vsra` (R44). -/
def execVsraC (d : BitVec 5) (o : CArg) (s : State) : Out := run (planVsraC d o) s
/-- `vmin` (R44). -/
def execVminC (d : BitVec 5) (o : CArg) (s : State) : Out := run (planVminC d o) s
/-- `vmax` (R44). -/
def execVmaxC (d : BitVec 5) (o : CArg) (s : State) : Out := run (planVmaxC d o) s
/-- `vfadd` (R44). -/
def execVfaddC (d : BitVec 5) (o : CArg) (s : State) : Out := run (planVfaddC d o) s
/-- `vfsub` (R44). -/
def execVfsubC (d : BitVec 5) (o : CArg) (s : State) : Out := run (planVfsubC d o) s
/-- `vfmul` (R44). -/
def execVfmulC (d : BitVec 5) (o : CArg) (s : State) : Out := run (planVfmulC d o) s
/-- `vfmin` (R44). -/
def execVfminC (d : BitVec 5) (o : CArg) (s : State) : Out := run (planVfminC d o) s
/-- `vfmax` (R44). -/
def execVfmaxC (d : BitVec 5) (o : CArg) (s : State) : Out := run (planVfmaxC d o) s

end Sys2Proof.Machine
end

