-- ==== Sys2Proof/Machine/Dispatch.lean ====
section
/-!
DEFINITION. One arm per constructor of `Instr`: each calls the instruction's meaning.
-/

namespace Sys2Proof.Machine

def exec (i : Instr) (s : State) : Host.Outcome State Fault Refusal :=
  match i with
  | .backingStoreSpill core slot => Sys2Proof.Machine.execBackingStoreSpill core slot s
  | .backingStoreRefill core slot => Sys2Proof.Machine.execBackingStoreRefill core slot s
  | .laneGrant core => Sys2Proof.Machine.execLaneGrant core s
  | .tileFillComplete core tile => Sys2Proof.Machine.execTileFillComplete core tile s
  | .tileDrainComplete core tile => Sys2Proof.Machine.execTileDrainComplete core tile s
  | .latchCopy core => Sys2Proof.Machine.execLatchCopy core s
  | .latchCopyComplete core => Sys2Proof.Machine.execLatchCopyComplete core s
  | .reelStorageRelease cluster root => Sys2Proof.Machine.execReelStorageRelease cluster root s
  | .hmovDelivery cluster entry => Sys2Proof.Machine.execHmovDelivery cluster entry s
  | .bankModeSwitchComplete cluster bank => Sys2Proof.Machine.execBankModeSwitchComplete cluster bank s
  | .fifoPush core slot => Sys2Proof.Machine.execFifoPush core slot s
  | .fifoPop core slot => Sys2Proof.Machine.execFifoPop core slot s
  | .vmuLineReply core slot => Sys2Proof.Machine.execVmuLineReply core slot s
  | .peerAccessRequest req => Sys2Proof.Machine.execPeerAccessRequest req s
  | .peerTimeout core slot device => Sys2Proof.Machine.execPeerTimeout core slot device s
  | .memoryEventPerform core slot => Sys2Proof.Machine.execMemoryEventPerform core slot s
  | .tcopyChunk cmd => Sys2Proof.Machine.execTcopyChunk cmd s
  | .engineFaultQueueWrite cmd => Sys2Proof.Machine.execEngineFaultQueueWrite cmd s
  | .migrationLineCopy cmd => Sys2Proof.Machine.execMigrationLineCopy cmd s
  | .slabLineCopy cmd => Sys2Proof.Machine.execSlabLineCopy cmd s
  | .commandComplete cmd => Sys2Proof.Machine.execCommandComplete cmd s
  | .xredContribution core slot values => Sys2Proof.Machine.execXredContribution core slot values s
  | .walkerService core => Sys2Proof.Machine.execWalkerService core s
  | .elementFire core slot => Sys2Proof.Machine.execElementFire core slot s
  | .convoyRetire core slot => Sys2Proof.Machine.execConvoyRetire core slot s
  | .trapDelivery core slot => Sys2Proof.Machine.execTrapDelivery core slot s
  | .mwaitWake core slot => Sys2Proof.Machine.execMwaitWake core slot s
  | .mwaitTimeout core slot => Sys2Proof.Machine.execMwaitTimeout core slot s
  | .monitorLost core slot => Sys2Proof.Machine.execMonitorLost core slot s
  | .tideMarkRise core slot => Sys2Proof.Machine.execTideMarkRise core slot s
  | .barrierRelease launchId level group => Sys2Proof.Machine.execBarrierRelease launchId level group s
  | .launchGroupStart => Sys2Proof.Machine.execLaunchGroupStart s
  | .ownerScrub core owner => Sys2Proof.Machine.execOwnerScrub core owner s
  | .bankOwnerZeroing cluster bank owner => Sys2Proof.Machine.execBankOwnerZeroing cluster bank owner s
  | .lqageExpiry launchId => Sys2Proof.Machine.execLqageExpiry launchId s
  | .haltRetire core slot => Sys2Proof.Machine.execHaltRetire core slot s
  | .powerLimitChange core limit => Sys2Proof.Machine.execPowerLimitChange core limit s
  | .lanePowerUp core => Sys2Proof.Machine.execLanePowerUp core s
  | .laneRollback core lane syndrome => Sys2Proof.Machine.execLaneRollback core lane syndrome s
  | .lmapFailMark core lane => Sys2Proof.Machine.execLmapFailMark core lane s
  | .dailiesRecheck core slot => Sys2Proof.Machine.execDailiesRecheck core slot s
  | .dailiesVote core slot vote => Sys2Proof.Machine.execDailiesVote core slot vote s
  | .eccCorrection err => Sys2Proof.Machine.execEccCorrection err s
  | .hostWrite bar offset data => Sys2Proof.Machine.execHostWrite bar offset data s
  | .hostRead bar offset len => Sys2Proof.Machine.execHostRead bar offset len s
  | .hmsiStore value => Sys2Proof.Machine.execHmsiStore value s
  | .devregWrite page offset value => Sys2Proof.Machine.execDevregWrite page offset value s
  | .japp addr => Sys2Proof.Machine.execJapp addr s
  | .jstat value => Sys2Proof.Machine.execJstat value s
  | .fwreqInstallKey addr => Sys2Proof.Machine.execFwreqInstallKey addr s
  | .fwreqRemoveKey addr => Sys2Proof.Machine.execFwreqRemoveKey addr s
  | .fwreqAttestation addr => Sys2Proof.Machine.execFwreqAttestation addr s
  | .pdecEnable k value => Sys2Proof.Machine.execPdecEnable k value s
  | .pdecDisable k value => Sys2Proof.Machine.execPdecDisable k value s
  | .cxlPoisonReport poolAddr syndrome => Sys2Proof.Machine.execCxlPoisonReport poolAddr syndrome s
  | .flitReplay port lane => Sys2Proof.Machine.execFlitReplay port lane s
  | .laneRecalibration port => Sys2Proof.Machine.execLaneRecalibration port s
  | .portRetrain port => Sys2Proof.Machine.execPortRetrain port s
  | .deviceDownReport device => Sys2Proof.Machine.execDeviceDownReport device s
  | .gangPrepareAck gseq member header => Sys2Proof.Machine.execGangPrepareAck gseq member header s
  | .gangCommit gseq => Sys2Proof.Machine.execGangCommit gseq s
  | .gangCommitResend gseq => Sys2Proof.Machine.execGangCommitResend gseq s
  | .gangAbort gseq => Sys2Proof.Machine.execGangAbort gseq s
  | .gangPartRetired gseq member => Sys2Proof.Machine.execGangPartRetired gseq member s
  | .deviceReset => Sys2Proof.Machine.execDeviceReset s
  | .powerUpStage => Sys2Proof.Machine.execPowerUpStage s
  | .bootImageVerify k => Sys2Proof.Machine.execBootImageVerify k s
  | .journalRecovery => Sys2Proof.Machine.execJournalRecovery s
  | .supervisorStart => Sys2Proof.Machine.execSupervisorStart s
  | .unitOutOfService isCore unit => Sys2Proof.Machine.execUnitOutOfService isCore unit s
  | .instructionFetch core slot => Sys2Proof.Machine.execInstructionFetch core slot s
  | .illegalInstruction core slot => Sys2Proof.Machine.execIllegalInstruction core slot s
  | .cacheEviction line => Sys2Proof.Machine.execCacheEviction line s
  | .laneRecalibrationEnd port ok => Sys2Proof.Machine.execLaneRecalibrationEnd port ok s
  | .portRetrainEnd port => Sys2Proof.Machine.execPortRetrainEnd port s
  | .gangAcknowledgement gseq member commit => Sys2Proof.Machine.execGangAcknowledgement gseq member commit s
  | .memberAbort gseq => Sys2Proof.Machine.execMemberAbort gseq s
  | .b off => Sys2Proof.Machine.execB off s
  | .beq a b off => Sys2Proof.Machine.execBeq a b off s
  | .bne a b off => Sys2Proof.Machine.execBne a b off s
  | .blt a b off => Sys2Proof.Machine.execBlt a b off s
  | .bge a b off => Sys2Proof.Machine.execBge a b off s
  | .bltn a b off => Sys2Proof.Machine.execBltn a b off s
  | .bgen a b off => Sys2Proof.Machine.execBgen a b off s
  | .bz a off => Sys2Proof.Machine.execBz a off s
  | .bnz a off => Sys2Proof.Machine.execBnz a off s
  | .jmp a => Sys2Proof.Machine.execJmp a s
  | .calli a => Sys2Proof.Machine.execCalli a s
  | .ret => Sys2Proof.Machine.execRet s
  | .call off => Sys2Proof.Machine.execCall off s
  | .mwait d a b c => Sys2Proof.Machine.execMwait d a b c s
  | .halt => Sys2Proof.Machine.execHalt s
  | .launch d a => Sys2Proof.Machine.execLaunch d a s
  | .glaunch d a => Sys2Proof.Machine.execGlaunch d a s
  | .widGet d => Sys2Proof.Machine.execWidGet d s
  | .widGetField d f => Sys2Proof.Machine.execWidGetField d f s
  | .barK k => Sys2Proof.Machine.execBarK k s
  | .tmBind a b c n => Sys2Proof.Machine.execTmBind a b c n s
  | .tmAdv a b n => Sys2Proof.Machine.execTmAdv a b n s
  | .tmRd d n => Sys2Proof.Machine.execTmRd d n s
  | .ldco d a b => Sys2Proof.Machine.execLdco d a b s
  | .ldcoDrop d a => Sys2Proof.Machine.execLdcoDrop d a s
  | .trap imm => Sys2Proof.Machine.execTrap imm s
  | .sret => Sys2Proof.Machine.execSret s
  | .ctxSave d a b => Sys2Proof.Machine.execCtxSave d a b s
  | .ctxLoad d a b => Sys2Proof.Machine.execCtxLoad d a b s
  | .erecRd d a k => Sys2Proof.Machine.execErecRd d a k s
  | .add d a b => Sys2Proof.Machine.execAdd d a b s
  | .sub d a b => Sys2Proof.Machine.execSub d a b s
  | .mul d a b => Sys2Proof.Machine.execMul d a b s
  | .mulh d a b => Sys2Proof.Machine.execMulh d a b s
  | .mulhn d a b => Sys2Proof.Machine.execMulhn d a b s
  | .sAnd d a b => Sys2Proof.Machine.execSAnd d a b s
  | .sOr d a b => Sys2Proof.Machine.execSOr d a b s
  | .sXor d a b => Sys2Proof.Machine.execSXor d a b s
  | .andn d a b => Sys2Proof.Machine.execAndn d a b s
  | .shl d a b => Sys2Proof.Machine.execShl d a b s
  | .shr d a b => Sys2Proof.Machine.execShr d a b s
  | .sra d a b => Sys2Proof.Machine.execSra d a b s
  | .rol d a b => Sys2Proof.Machine.execRol d a b s
  | .sMin d a b => Sys2Proof.Machine.execSMin d a b s
  | .sMax d a b => Sys2Proof.Machine.execSMax d a b s
  | .minn d a b => Sys2Proof.Machine.execMinn d a b s
  | .maxn d a b => Sys2Proof.Machine.execMaxn d a b s
  | .slt d a b => Sys2Proof.Machine.execSlt d a b s
  | .sltn d a b => Sys2Proof.Machine.execSltn d a b s
  | .addi d a imm => Sys2Proof.Machine.execAddi d a imm s
  | .subi d a imm => Sys2Proof.Machine.execSubi d a imm s
  | .muli d a imm => Sys2Proof.Machine.execMuli d a imm s
  | .mulhi d a imm => Sys2Proof.Machine.execMulhi d a imm s
  | .mulhni d a imm => Sys2Proof.Machine.execMulhni d a imm s
  | .andi d a imm => Sys2Proof.Machine.execAndi d a imm s
  | .ori d a imm => Sys2Proof.Machine.execOri d a imm s
  | .xori d a imm => Sys2Proof.Machine.execXori d a imm s
  | .andni d a imm => Sys2Proof.Machine.execAndni d a imm s
  | .shli d a imm => Sys2Proof.Machine.execShli d a imm s
  | .shri d a imm => Sys2Proof.Machine.execShri d a imm s
  | .srai d a imm => Sys2Proof.Machine.execSrai d a imm s
  | .roli d a imm => Sys2Proof.Machine.execRoli d a imm s
  | .mini d a imm => Sys2Proof.Machine.execMini d a imm s
  | .maxi d a imm => Sys2Proof.Machine.execMaxi d a imm s
  | .minni d a imm => Sys2Proof.Machine.execMinni d a imm s
  | .maxni d a imm => Sys2Proof.Machine.execMaxni d a imm s
  | .slti d a imm => Sys2Proof.Machine.execSlti d a imm s
  | .sltni d a imm => Sys2Proof.Machine.execSltni d a imm s
  | .div d a b => Sys2Proof.Machine.execDiv d a b s
  | .divn d a b => Sys2Proof.Machine.execDivn d a b s
  | .rem d a b => Sys2Proof.Machine.execRem d a b s
  | .remn d a b => Sys2Proof.Machine.execRemn d a b s
  | .clz d a => Sys2Proof.Machine.execClz d a s
  | .ctz d a => Sys2Proof.Machine.execCtz d a s
  | .popc d a => Sys2Proof.Machine.execPopc d a s
  | .sel d a b c => Sys2Proof.Machine.execSel d a b c s
  | .li d imm => Sys2Proof.Machine.execLi d imm s
  | .lui d imm => Sys2Proof.Machine.execLui d imm s
  | .adr d imm => Sys2Proof.Machine.execAdr d imm s
  | .lsa d a b k => Sys2Proof.Machine.execLsa d a b k s
  | .ext d a pos len => Sys2Proof.Machine.execExt d a pos len s
  | .extS d a pos len => Sys2Proof.Machine.execExtS d a pos len s
  | .ins d a pos len => Sys2Proof.Machine.execIns d a pos len s
  | .frame n => Sys2Proof.Machine.execFrame n s
  | .faddS d a b rm => Sys2Proof.Machine.execFaddS d a b rm s
  | .fsubS d a b rm => Sys2Proof.Machine.execFsubS d a b rm s
  | .fmulS d a b rm => Sys2Proof.Machine.execFmulS d a b rm s
  | .ffmaS d a b rm c => Sys2Proof.Machine.execFfmaS d a b rm c s
  | .fdivS d a b rm => Sys2Proof.Machine.execFdivS d a b rm s
  | .fsqrtS d a rm => Sys2Proof.Machine.execFsqrtS d a rm s
  | .fcmpSEq d a b => Sys2Proof.Machine.execFcmpSEq d a b s
  | .fcmpSLt d a b => Sys2Proof.Machine.execFcmpSLt d a b s
  | .fcmpSLe d a b => Sys2Proof.Machine.execFcmpSLe d a b s
  | .fcmpSUn d a b => Sys2Proof.Machine.execFcmpSUn d a b s
  | .fcvtSFi d a rm => Sys2Proof.Machine.execFcvtSFi d a rm s
  | .fcvtSFn d a rm => Sys2Proof.Machine.execFcvtSFn d a rm s
  | .fcvtSIf d a rm => Sys2Proof.Machine.execFcvtSIf d a rm s
  | .fcvtSNf d a rm => Sys2Proof.Machine.execFcvtSNf d a rm s
  | .mfs d num => Sys2Proof.Machine.execMfs d num s
  | .mts a num => Sys2Proof.Machine.execMts a num s
  | .mvlWrite a num => Sys2Proof.Machine.execMvlWrite a num s
  | .tshapeWrite a num => Sys2Proof.Machine.execTshapeWrite a num s
  | .dlymodeClr a num => Sys2Proof.Machine.execDlymodeClr a num s
  | .efqWrite a num => Sys2Proof.Machine.execEfqWrite a num s
  | .vsetl d a ty => Sys2Proof.Machine.execVsetl d a ty s
  | .vrel => Sys2Proof.Machine.execVrel s
  | .vspill v a b ty disp => Sys2Proof.Machine.execVspill v a b ty disp s
  | .vfill d a ty disp => Sys2Proof.Machine.execVfill d a ty disp s
  | .vadd v d a b ty sat => Sys2Proof.Machine.execVadd v d a b ty sat s
  | .vsub v d a b ty sat => Sys2Proof.Machine.execVsub v d a b ty sat s
  | .vmul v d a b ty sat => Sys2Proof.Machine.execVmul v d a b ty sat s
  | .vmulh v d a b ty => Sys2Proof.Machine.execVmulh v d a b ty s
  | .vmin v d a b ty => Sys2Proof.Machine.execVmin v d a b ty s
  | .vmax v d a b ty => Sys2Proof.Machine.execVmax v d a b ty s
  | .vand v d a b ty => Sys2Proof.Machine.execVand v d a b ty s
  | .vor v d a b ty => Sys2Proof.Machine.execVor v d a b ty s
  | .vxor v d a b ty => Sys2Proof.Machine.execVxor v d a b ty s
  | .vshl v d a b ty => Sys2Proof.Machine.execVshl v d a b ty s
  | .vshr v d a b ty => Sys2Proof.Machine.execVshr v d a b ty s
  | .vsra v d a b ty => Sys2Proof.Machine.execVsra v d a b ty s
  | .vcmpEq v d a b ty => Sys2Proof.Machine.execVcmpEq v d a b ty s
  | .vcmpNe v d a b ty => Sys2Proof.Machine.execVcmpNe v d a b ty s
  | .vcmpLt v d a b ty => Sys2Proof.Machine.execVcmpLt v d a b ty s
  | .vcmpLe v d a b ty => Sys2Proof.Machine.execVcmpLe v d a b ty s
  | .vwadd v d a b rm ty wf => Sys2Proof.Machine.execVwadd v d a b rm ty wf s
  | .vwmul v d a b rm ty wf => Sys2Proof.Machine.execVwmul v d a b rm ty wf s
  | .vwmac v d a b rm c ty sat wf => Sys2Proof.Machine.execVwmac v d a b rm c ty sat wf s
  | .vmov v d a ty => Sys2Proof.Machine.execVmov v d a ty s
  | .vid v d ty => Sys2Proof.Machine.execVid v d ty s
  | .vsel v d a b ty => Sys2Proof.Machine.execVsel v d a b ty s
  | .vdup v d a b ty => Sys2Proof.Machine.execVdup v d a b ty s
  | .vperm v d a b ty => Sys2Proof.Machine.execVperm v d a b ty s
  | .vslup v d a b ty => Sys2Proof.Machine.execVslup v d a b ty s
  | .vsldn v d a b ty => Sys2Proof.Machine.execVsldn v d a b ty s
  | .vcmprs v d a ty => Sys2Proof.Machine.execVcmprs v d a ty s
  | .vexpnd v d a ty => Sys2Proof.Machine.execVexpnd v d a ty s
  | .qand v d a b => Sys2Proof.Machine.execQand v d a b s
  | .qor v d a b => Sys2Proof.Machine.execQor v d a b s
  | .qxor v d a b => Sys2Proof.Machine.execQxor v d a b s
  | .qnot v d a => Sys2Proof.Machine.execQnot v d a s
  | .qpopc v d a => Sys2Proof.Machine.execQpopc v d a s
  | .qfirst v d a => Sys2Proof.Machine.execQfirst v d a s
  | .vbmand v d a b ty => Sys2Proof.Machine.execVbmand v d a b ty s
  | .vbpfx v d a ty => Sys2Proof.Machine.execVbpfx v d a ty s
  | .vxsect v d a b ty => Sys2Proof.Machine.execVxsect v d a b ty s
  | .vconf v d a ty qe => Sys2Proof.Machine.execVconf v d a ty qe s
  | .vfadd v d a b rm ty => Sys2Proof.Machine.execVfadd v d a b rm ty s
  | .vfsub v d a b rm ty => Sys2Proof.Machine.execVfsub v d a b rm ty s
  | .vfmul v d a b rm ty => Sys2Proof.Machine.execVfmul v d a b rm ty s
  | .vfmin v d a b ty => Sys2Proof.Machine.execVfmin v d a b ty s
  | .vfmax v d a b ty => Sys2Proof.Machine.execVfmax v d a b ty s
  | .vfma v d a b rm c ty => Sys2Proof.Machine.execVfma v d a b rm c ty s
  | .vfms v d a b rm c ty => Sys2Proof.Machine.execVfms v d a b rm c ty s
  | .vfnma v d a b rm c ty => Sys2Proof.Machine.execVfnma v d a b rm c ty s
  | .vfdiv v d a b rm ty => Sys2Proof.Machine.execVfdiv v d a b rm ty s
  | .vfsqrt v d a rm ty => Sys2Proof.Machine.execVfsqrt v d a rm ty s
  | .vrcp v d a rm ty => Sys2Proof.Machine.execVrcp v d a rm ty s
  | .vrsqrt v d a rm ty => Sys2Proof.Machine.execVrsqrt v d a rm ty s
  | .vexp2 v d a rm ty => Sys2Proof.Machine.execVexp2 v d a rm ty s
  | .vfcmpEq v d a b ty => Sys2Proof.Machine.execVfcmpEq v d a b ty s
  | .vfcmpLt v d a b ty => Sys2Proof.Machine.execVfcmpLt v d a b ty s
  | .vfcmpLe v d a b ty => Sys2Proof.Machine.execVfcmpLe v d a b ty s
  | .vfcmpUn v d a b ty => Sys2Proof.Machine.execVfcmpUn v d a b ty s
  | .vredoAdd v d a b rm ty sat => Sys2Proof.Machine.execVredoAdd v d a b rm ty sat s
  | .vredoMin v d a b ty => Sys2Proof.Machine.execVredoMin v d a b ty s
  | .vredoMax v d a b ty => Sys2Proof.Machine.execVredoMax v d a b ty s
  | .vredoAnd v d a b ty => Sys2Proof.Machine.execVredoAnd v d a b ty s
  | .vredoOr v d a b ty => Sys2Proof.Machine.execVredoOr v d a b ty s
  | .vredoXor v d a b ty => Sys2Proof.Machine.execVredoXor v d a b ty s
  | .vredtAdd v d a b rm ty sat => Sys2Proof.Machine.execVredtAdd v d a b rm ty sat s
  | .vredtMin v d a b ty => Sys2Proof.Machine.execVredtMin v d a b ty s
  | .vredtMax v d a b ty => Sys2Proof.Machine.execVredtMax v d a b ty s
  | .vredtAnd v d a b ty => Sys2Proof.Machine.execVredtAnd v d a b ty s
  | .vredtOr v d a b ty => Sys2Proof.Machine.execVredtOr v d a b ty s
  | .vredtXor v d a b ty => Sys2Proof.Machine.execVredtXor v d a b ty s
  | .vscanAdd v d a b rm ty sat => Sys2Proof.Machine.execVscanAdd v d a b rm ty sat s
  | .vscanMin v d a b ty => Sys2Proof.Machine.execVscanMin v d a b ty s
  | .vscanMax v d a b ty => Sys2Proof.Machine.execVscanMax v d a b ty s
  | .vscanAnd v d a b ty => Sys2Proof.Machine.execVscanAnd v d a b ty s
  | .vscanOr v d a b ty => Sys2Proof.Machine.execVscanOr v d a b ty s
  | .vscanXor v d a b ty => Sys2Proof.Machine.execVscanXor v d a b ty s
  | .fmtSet d a => Sys2Proof.Machine.execFmtSet d a s
  | .tidBind d a => Sys2Proof.Machine.execTidBind d a s
  | .tidRd d a k => Sys2Proof.Machine.execTidRd d a k s
  | .vcvtTo v d a rm ty sat fc => Sys2Proof.Machine.execVcvtTo v d a rm ty sat fc s
  | .vcvtFrom v d a rm ty sat fc => Sys2Proof.Machine.execVcvtFrom v d a rm ty sat fc s
  | .vpack v d a ty fc => Sys2Proof.Machine.execVpack v d a ty fc s
  | .vunpk v d a ty fc => Sys2Proof.Machine.execVunpk v d a ty fc s
  | .vscl v d a b rm ty sat fc => Sys2Proof.Machine.execVscl v d a b rm ty sat fc s
  | .vquant v d a b rm ty fc => Sys2Proof.Machine.execVquant v d a b rm ty fc s
  | .tld d a b c => Sys2Proof.Machine.execTld d a b c s
  | .tldt d a b c => Sys2Proof.Machine.execTldt d a b c s
  | .tst d a b c => Sys2Proof.Machine.execTst d a b c s
  | .tzero d a => Sys2Proof.Machine.execTzero d a s
  | .tlatch a b => Sys2Proof.Machine.execTlatch a b s
  | .mmr v d a b acc => Sys2Proof.Machine.execMmr v d a b acc s
  | .mmrT v d a b c acc => Sys2Proof.Machine.execMmrT v d a b c acc s
  | .mmrRep v d a b acc n => Sys2Proof.Machine.execMmrRep v d a b acc n s
  | .mmrSk v d a b c acc => Sys2Proof.Machine.execMmrSk v d a b c acc s
  | .rnew d a b nw => Sys2Proof.Machine.execRnew d a b nw s
  | .rcut d a b nw axis => Sys2Proof.Machine.execRcut d a b nw axis s
  | .rsplc d a b => Sys2Proof.Machine.execRsplc d a b s
  | .rfree a => Sys2Proof.Machine.execRfree a s
  | .hmov d a b => Sys2Proof.Machine.execHmov d a b s
  | .hinfo d a k => Sys2Proof.Machine.execHinfo d a k s
  | .rld v d a b => Sys2Proof.Machine.execRld v d a b s
  | .rst v a b c => Sys2Proof.Machine.execRst v a b c s
  | .ldI8 d a imm => Sys2Proof.Machine.execLdI8 d a imm s
  | .ldI16 d a imm => Sys2Proof.Machine.execLdI16 d a imm s
  | .ldI32 d a imm => Sys2Proof.Machine.execLdI32 d a imm s
  | .ldI64 d a imm => Sys2Proof.Machine.execLdI64 d a imm s
  | .ldN8 d a imm => Sys2Proof.Machine.execLdN8 d a imm s
  | .ldN16 d a imm => Sys2Proof.Machine.execLdN16 d a imm s
  | .ldN32 d a imm => Sys2Proof.Machine.execLdN32 d a imm s
  | .st8 d a imm => Sys2Proof.Machine.execSt8 d a imm s
  | .st16 d a imm => Sys2Proof.Machine.execSt16 d a imm s
  | .st32 d a imm => Sys2Proof.Machine.execSt32 d a imm s
  | .st64 d a imm => Sys2Proof.Machine.execSt64 d a imm s
  | .vld v d a b rm ty sat t disp => Sys2Proof.Machine.execVld v d a b rm ty sat t disp s
  | .vst v a b c ty t disp => Sys2Proof.Machine.execVst v a b c ty t disp s
  | .vlds v d a b ty disp => Sys2Proof.Machine.execVlds v d a b ty disp s
  | .vsts v a b c ty disp => Sys2Proof.Machine.execVsts v a b c ty disp s
  | .vgat v d a b rm ty sat mode k => Sys2Proof.Machine.execVgat v d a b rm ty sat mode k s
  | .vsca v a b c ty mode k => Sys2Proof.Machine.execVsca v a b c ty mode k s
  | .vgpool v d a b rm c ty sat mode k => Sys2Proof.Machine.execVgpool v d a b rm c ty sat mode k s
  | .vsadd v a b c ty sat mode k => Sys2Proof.Machine.execVsadd v a b c ty sat mode k s
  | .tcopy d a b c => Sys2Proof.Machine.execTcopy d a b c s
  | .tcopyMig d a b => Sys2Proof.Machine.execTcopyMig d a b s
  | .tcopyRes d a => Sys2Proof.Machine.execTcopyRes d a s
  | .slabGrow d a b => Sys2Proof.Machine.execSlabGrow d a b s
  | .smapSet d a b => Sys2Proof.Machine.execSmapSet d a b s
  | .smapInv d a b => Sys2Proof.Machine.execSmapInv d a b s
  | .bankMode d a b => Sys2Proof.Machine.execBankMode d a b s
  | .tlbinvPg a b => Sys2Proof.Machine.execTlbinvPg a b s
  | .tlbinvAs a => Sys2Proof.Machine.execTlbinvAs a s
  | .tlbinvAll => Sys2Proof.Machine.execTlbinvAll s
  | .pprobe d a => Sys2Proof.Machine.execPprobe d a s
  | .asidSwSet a => Sys2Proof.Machine.execAsidSwSet a s
  | .asidSwBind d a b => Sys2Proof.Machine.execAsidSwBind d a b s
  | .asidSwDrop d a => Sys2Proof.Machine.execAsidSwDrop d a s
  | .amoSwap d a b ty ord => Sys2Proof.Machine.execAmoSwap d a b ty ord s
  | .amoCas d a b c ty ord => Sys2Proof.Machine.execAmoCas d a b c ty ord s
  | .amoAdd d a b ty ord => Sys2Proof.Machine.execAmoAdd d a b ty ord s
  | .amoFadd d a b ty ord => Sys2Proof.Machine.execAmoFadd d a b ty ord s
  | .amoAnd d a b ty ord => Sys2Proof.Machine.execAmoAnd d a b ty ord s
  | .amoOr d a b ty ord => Sys2Proof.Machine.execAmoOr d a b ty ord s
  | .amoXor d a b ty ord => Sys2Proof.Machine.execAmoXor d a b ty ord s
  | .amoMin d a b ty ord => Sys2Proof.Machine.execAmoMin d a b ty ord s
  | .amoMax d a b ty ord => Sys2Proof.Machine.execAmoMax d a b ty ord s
  | .amoMinn d a b ty ord => Sys2Proof.Machine.execAmoMinn d a b ty ord s
  | .amoMaxn d a b ty ord => Sys2Proof.Machine.execAmoMaxn d a b ty ord s
  | .vamoSwap v d a b c ty mode ret ord k => Sys2Proof.Machine.execVamoSwap v d a b c ty mode ret ord k s
  | .vamoCas v d a b c ty mode ret ord k => Sys2Proof.Machine.execVamoCas v d a b c ty mode ret ord k s
  | .vamoAdd v d a b c ty mode ret ord k => Sys2Proof.Machine.execVamoAdd v d a b c ty mode ret ord k s
  | .vamoFadd v d a b c ty mode ret ord k => Sys2Proof.Machine.execVamoFadd v d a b c ty mode ret ord k s
  | .vamoAnd v d a b c ty mode ret ord k => Sys2Proof.Machine.execVamoAnd v d a b c ty mode ret ord k s
  | .vamoOr v d a b c ty mode ret ord k => Sys2Proof.Machine.execVamoOr v d a b c ty mode ret ord k s
  | .vamoXor v d a b c ty mode ret ord k => Sys2Proof.Machine.execVamoXor v d a b c ty mode ret ord k s
  | .vamoMin v d a b c ty mode ret ord k => Sys2Proof.Machine.execVamoMin v d a b c ty mode ret ord k s
  | .vamoMax v d a b c ty mode ret ord k => Sys2Proof.Machine.execVamoMax v d a b c ty mode ret ord k s
  | .vamoMinn v d a b c ty mode ret ord k => Sys2Proof.Machine.execVamoMinn v d a b c ty mode ret ord k s
  | .vamoMaxn v d a b c ty mode ret ord k => Sys2Proof.Machine.execVamoMaxn v d a b c ty mode ret ord k s
  | .vgl v d a b rm ty sat mode k => Sys2Proof.Machine.execVgl v d a b rm ty sat mode k s
  | .vscc v d a b c ty mode k => Sys2Proof.Machine.execVscc v d a b c ty mode k s
  | .xredAdd v d a ty g => Sys2Proof.Machine.execXredAdd v d a ty g s
  | .xredMin v d a ty g => Sys2Proof.Machine.execXredMin v d a ty g s
  | .xredMax v d a ty g => Sys2Proof.Machine.execXredMax v d a ty g s
  | .fence => Sys2Proof.Machine.execFence s
  | .fenceFab => Sys2Proof.Machine.execFenceFab s
  | .fenceFabAcq => Sys2Proof.Machine.execFenceFabAcq s
  | .fenceFabRel => Sys2Proof.Machine.execFenceFabRel s
  | .fenceFabAcqLoad d a => Sys2Proof.Machine.execFenceFabAcqLoad d a s
  | .fenceFabRelStore a b => Sys2Proof.Machine.execFenceFabRelStore a b s
  | .fencePool => Sys2Proof.Machine.execFencePool s
  | .fencePoolAcq => Sys2Proof.Machine.execFencePoolAcq s
  | .fencePoolRel => Sys2Proof.Machine.execFencePoolRel s
  | .fencePoolAcqLoad d a => Sys2Proof.Machine.execFencePoolAcqLoad d a s
  | .fencePoolRelStore a b => Sys2Proof.Machine.execFencePoolRelStore a b s
  | .waitTl a b => Sys2Proof.Machine.execWaitTl a b s
  | .tlNext d a => Sys2Proof.Machine.execTlNext d a s
  | .twalk v d a b c ty gn => Sys2Proof.Machine.execTwalk v d a b c ty gn s
  | .twalkX v d a b c ty gn => Sys2Proof.Machine.execTwalkX v d a b c ty gn s
  | .twupd d a b c ty => Sys2Proof.Machine.execTwupd d a b c ty s
  | .twrd v d a p => Sys2Proof.Machine.execTwrd v d a p s
  | .twbuild d a b c ty => Sys2Proof.Machine.execTwbuild d a b c ty s
  | .nop => Sys2Proof.Machine.execNop s
  | .yield_ => Sys2Proof.Machine.execYield_ s
  | .pf a disp => Sys2Proof.Machine.execPf a disp s
  | .pfW a disp => Sys2Proof.Machine.execPfW a disp s
  | .hintNop fn d a b v rm x => Sys2Proof.Machine.execHintNop fn d a b v rm x s
  | .nopC => Sys2Proof.Machine.execNopC s
  | .addC d o => Sys2Proof.Machine.execAddC d o s
  | .subC d o => Sys2Proof.Machine.execSubC d o s
  | .mulC d o => Sys2Proof.Machine.execMulC d o s
  | .andC d o => Sys2Proof.Machine.execAndC d o s
  | .orC d o => Sys2Proof.Machine.execOrC d o s
  | .xorC d o => Sys2Proof.Machine.execXorC d o s
  | .andnC d o => Sys2Proof.Machine.execAndnC d o s
  | .shlC d o => Sys2Proof.Machine.execShlC d o s
  | .shrC d o => Sys2Proof.Machine.execShrC d o s
  | .sraC d o => Sys2Proof.Machine.execSraC d o s
  | .minC d o => Sys2Proof.Machine.execMinC d o s
  | .maxC d o => Sys2Proof.Machine.execMaxC d o s
  | .minnC d o => Sys2Proof.Machine.execMinnC d o s
  | .maxnC d o => Sys2Proof.Machine.execMaxnC d o s
  | .liC d o => Sys2Proof.Machine.execLiC d o s
  | .vaddC d o => Sys2Proof.Machine.execVaddC d o s
  | .vsubC d o => Sys2Proof.Machine.execVsubC d o s
  | .vmulC d o => Sys2Proof.Machine.execVmulC d o s
  | .vandC d o => Sys2Proof.Machine.execVandC d o s
  | .vorC d o => Sys2Proof.Machine.execVorC d o s
  | .vxorC d o => Sys2Proof.Machine.execVxorC d o s
  | .vshlC d o => Sys2Proof.Machine.execVshlC d o s
  | .vshrC d o => Sys2Proof.Machine.execVshrC d o s
  | .vsraC d o => Sys2Proof.Machine.execVsraC d o s
  | .vminC d o => Sys2Proof.Machine.execVminC d o s
  | .vmaxC d o => Sys2Proof.Machine.execVmaxC d o s
  | .vfaddC d o => Sys2Proof.Machine.execVfaddC d o s
  | .vfsubC d o => Sys2Proof.Machine.execVfsubC d o s
  | .vfmulC d o => Sys2Proof.Machine.execVfmulC d o s
  | .vfminC d o => Sys2Proof.Machine.execVfminC d o s
  | .vfmaxC d o => Sys2Proof.Machine.execVfmaxC d o s

end Sys2Proof.Machine
end

