-- ==== Sys2Proof/Machine/Fetch.lean ====
section
/-!
DEFINITION. Fetching and checking a convoy (05, R89; 03, R46–R48): its words, whether each is legal, the
privilege of each instruction and the structural rules of R47; and the choice of a strand (R84–R87).
-/

namespace Sys2Proof.Machine

noncomputable section

/-- One instruction of a fetched convoy with its place. -/
structure Fetched where
  instr : Instr
  idx   : Nat
  word  : Word
  slotB : Bool
deriving DecidableEq, Repr

/-- The slot of a pair word that is illegal (R48): slot B only when slot A is legal by itself. The bank rule of R45
is broken by slot B where slot A names an even register. -/
def badSlot (w : Word) : Bool :=
  w.getLsbD 62 &&
    (match decodeSlot (w.extractLsb' 31 30), decodeSlot (w.extractLsb' 1 30) with
      | .ok _, .error _ => true
      | .ok _, .ok _ => bankBrokenByB w
      | _, _ => false)

/-- R48 check 3: each word, in address order, is a legal instruction word, and L = 1 only on the first. -/
def decodeConvoy : List Word → (idx : Nat) → Except Trap (List Fetched)
  | [], _ => .ok []
  | w :: ws, idx =>
    match decodeWord w with
    | .error _ => .error { cause := 1, word := idx, slotB := badSlot w }
    | .ok c =>
      if c.landing && idx ≠ 0 then .error { cause := 1, word := idx }
      else
        match decodeConvoy ws (idx + 1) with
        | .error e => .error e
        | .ok rest =>
          .ok ((match c.body with
            | .one i => [⟨i, idx, w, false⟩]
            | .pair i j => [⟨i, idx, w, false⟩, ⟨j, idx, w, true⟩]) ++ rest)

/-- The plan of a fetched instruction. -/
def Fetched.plan (i : Fetched) : Plan := planOfWord i.word i.slotB

/-- The checks of R48 on the strand in a slot: the instructions of its next convoy, or the trap. -/
def State.nextConvoy (s : State) (core slot : Nat) : Except Trap (List Fetched × Nat) :=
  match s.strandAt core slot with
  | none => .ok ([], 0)
  | some t =>
    match s.fetchWords core t.asid t.lvl t.pc 4 with
    | .error e => .error e
    | .ok ws =>
      if t.landing && !(ws.headD 0).getLsbD 61 then .error { cause := 5, info := 1, xinfo := t.xfer }
      else
        match decodeConvoy ws 0 with
        | .error e => .error e
        | .ok items =>
          match items.find? fun i => !(i.plan.lvl.num ≤ t.lvl.num) with
          | some i => .error { cause := 3, word := i.idx, slotB := i.slotB }
          | none =>
            if (ws.getLast?.getD 0).getLsbD 63 && structural (items.map Fetched.plan) then .ok (items, ws.length)
            else .error { cause := 2 }

/-- `cur` aimed at an instruction of the convoy at the strand's PC. -/
def State.aimAt (s : State) (core slot nwords pos : Nat) (i : Fetched) (last : Bool) : State :=
  s.setCur ⟨core, slot, (s.strandAt core slot).elim 0 Strand.pc, nwords, pos, i.idx, i.word, i.slotB, last⟩

/-- The choice of a strand under greedy-then-oldest (R86): among ready slots with their strands. -/
def chooseGreedy (k : Core) (cycle : Nat) (ready : List (Nat × Strand)) : Option Nat :=
  let time := fun (t : Strand) => cycle - max t.lastReady t.lastIssue
  let best := fun (f : Strand → Nat) (l : List (Nat × Strand)) =>
    l.foldl (fun (b : Option (Nat × Strand)) x =>
      match b with
      | none => some x
      | some y => if f y.2 < f x.2 then some x else some y) none
  match best time (ready.filter fun x => k.age < time x.2) with
  | some x => some x.1
  | none =>
    match k.greedy.filter fun g => ready.any fun x => x.1 == g with
    | some g => some g
    | none =>
      let others := ready.filter fun x => k.yielding != some x.1
      let oldest := others.foldl (fun (b : Option (Nat × Strand)) x =>
        match b with
        | none => some x
        | some y => if x.2.startStamp < y.2.startStamp then some x else some y) none
      match oldest with
      | some x => some x.1
      | none => ready.head?.map Prod.fst

/-- The choice of a strand under round-robin (R87). -/
def chooseRobin (k : Core) (ready : List Nat) : Option Nat :=
  (List.range 8).findSome? fun i =>
    let sl := (k.rr + i) % 8
    if ready.contains sl then some sl else none

/-- The strand that the slot issues from (R84, R86, R87); with one ready strand there is no choice. -/
def choose (k : Core) (cycle : Nat) (ready : List (Nat × Strand)) : Option Nat :=
  match ready with
  | [] => none
  | [x] => some x.1
  | _ => if k.pol then chooseRobin k (ready.map Prod.fst) else chooseGreedy k cycle ready

/-- A convoy of the strand holds `yield` (R86, R97). -/
def holdsYield (items : List Fetched) : Bool :=
  items.any fun i => match i.instr with | .yield_ => true | _ => false

/-- What choosing a slot leaves for the next opportunity (R84, R86, R87), by the policy under which it was chosen: a strand
that trapped has not issued, and none is greedy or yielding then. -/
def State.issued (s : State) (core slot : Nat) (pol yielded : Bool) : State :=
  let k := s.core core
  let went := match s.note with
    | .trap _ => false
    | .ok => true
    | .wait _ => false
  s.setCore core { k with
    greedy := if went && !yielded then some slot else none
    yielding := if went && yielded then some slot else none
    rr := if pol then (slot + 1) % 8 else k.rr }

end

end Sys2Proof.Machine
end

