-- ==== Sys2Proof/Machine/Step.lean ====
section
/-!
DEFINITION. One step of the machine: an event that is due, or one issue opportunity of a core (05, R82).
In an issue opportunity the work in flight of the core's strands settles, every strand's next convoy is
fetched and checked, and the convoy of the strand that SCHED chooses issues.
-/

namespace Sys2Proof.Machine

noncomputable section

/-- The instructions of a convoy run in order. A trap or a wait of any of them undoes the whole convoy, of
which nothing then issues (R48, R49, R81). -/
def runConvoy (s0 : State) (core slot nwords : Nat) : List Fetched → (pos : Nat) → State → Out
  | [], _, s => .next s
  | i :: rest, pos, s =>
    match exec i.instr (s.aimAt core slot nwords pos i rest.isEmpty) with
    | .fault f => .fault f
    | .refused r => .refused r
    | .next s1 =>
      match s1.note with
      | .ok => runConvoy s0 core slot nwords rest (pos + 1) s1
      | .trap t =>
        if pos = 0 then .next s1
        else
          let s2 := s0.aimAt core slot nwords 0 i true
          s2.raise i.plan { t with pos := pos }
      | .wait c =>
        if pos = 0 then .next s1
        else
          let s2 := s0.aimAt core slot nwords 0 i true
          .next (((s2.setR (s.aimAt core slot nwords pos i true).me.r).hold i.plan c).setR s2.me.r)

/-- An instruction reads what an earlier one of its convoy writes: what it waits for by its operands' values shows only
once that has issued. -/
def Plan.follows (p : Plan) (before : List Plan) : Bool := p.reads.any fun n => before.any fun b => b.writes.contains n

/-- A plan with the waits that can be told before its convoy issues. -/
def Plan.known (p : Plan) (before : List Plan) : Plan :=
  if p.follows before then { p with waits := fun _ => [], onWait := id } else p

/-- The plans of a convoy's instructions, each so. -/
def knownPlans : (before : List Plan) → List Fetched → List (Fetched × Plan)
  | _, [] => []
  | before, i :: rest => (i, i.plan.known before) :: knownPlans (before ++ [i.plan]) rest

/-- The reasons for which a convoy waits (R81), over all its instructions. -/
def convoyReasons (s : State) (core slot nwords : Nat) (items : List Fetched) : List Nat :=
  (knownPlans [] items).flatMap fun i => i.2.reasons (s.aimAt core slot nwords 0 i.1 true)

/-- The wait of a convoy that some instruction holds back; what beginning to wait records is recorded. -/
def holdConvoy (s : State) (core slot nwords : Nat) (items : List Fetched) (code : Nat) : State :=
  (knownPlans [] items).foldl (fun st i =>
    if i.2.waits (st.aimAt core slot nwords 0 i.1 true) = [] then st
    else (st.aimAt core slot nwords 0 i.1 true).hold i.2 code)
    ((s.aimAt core slot nwords 0 (items.headD ⟨.nop, 0, 0, false⟩) true).hold { fire := fun s _ e => (s, e) } code)

/-- The next convoy of the strand in a slot, as far as it gets: it issues, it traps, or it waits. -/
def attempt (s : State) (core slot : Nat) : Out :=
  match s.nextConvoy core slot with
  | .error t =>
    let s1 := s.aimAt core slot 1 0 ⟨.nop, t.word, 0, t.slotB⟩ true
    s1.raise { fire := fun s _ e => (s, e) } t
  | .ok (items, nwords) =>
    match items with
    | [] => .next (s.setNote (.wait 12))
    | [i] => exec i.instr (s.aimAt core slot nwords 0 i true)
    | _ =>
      match convoyReasons s core slot nwords items with
      | [] => runConvoy s core slot nwords items 0 s
      | c :: r => .next (holdConvoy s core slot nwords items (lowest (c :: r)))

/-- The work in flight of every strand of a core settles. -/
def settleCore (core : Nat) : List Nat → State → Out
  | [], s => .next s
  | sl :: rest, s =>
    match s.settle core sl settleFuel with
    | .next s1 => settleCore core rest s1
    | .fault f => .fault f
    | .refused r => .refused r

/-- A strand that waited is ready from now on (R86). -/
def State.becomeReady (s : State) (core slot : Nat) (t : Strand) : State :=
  if t.wait = 0 then s else s.setStrand core slot { t with wait := 0, lastReady := s.cycle }

/-- A strand whose newest convoy has not said where it continues waits on the scoreboard, and one that has still to take its
new ASID waits for its fetch (R81, R236). -/
def State.notReady (s : State) (core slot : Nat) (t : Strand) : State :=
  if t.stopped || t.halting || t.wait != 0 then s else s.setStrand core slot { t with wait := if t.swapping then 12 else 2 }

/-- No strand issued at this opportunity: none is greedy or yielding at the next (R86). -/
def State.idle (s : State) (core : Nat) : State :=
  s.setCore core { s.core core with greedy := none, yielding := none }

/-- The slots whose strands are ready (R81): their next convoy issues or traps. A waiting strand is marked
with its reason, and what beginning to wait records is recorded. -/
def readySlots (core : Nat) : List Nat → State → State × List Nat
  | [], s => (s, [])
  | sl :: rest, s =>
    match s.strandAt core sl with
    | none => readySlots core rest s
    | some t =>
      if !t.mayIssue then readySlots core rest (s.notReady core sl t)
      else
        let ready := fun (_ : Unit) =>
          let (s2, l) := readySlots core rest (s.becomeReady core sl t)
          (s2, sl :: l)
        match attempt s core sl with
        | .next s1 =>
          match s1.note with
          | .wait _ => readySlots core rest (s1.setNote .ok)
          | .ok => ready ()
          | .trap _ => ready ()
        | .fault _ => ready ()
        | .refused _ => ready ()

/-- A strand that has just issued waits from now on if its next convoy does (R81, R86; log 147). -/
def State.lookAhead (s : State) (core slot : Nat) : State := ((readySlots core [slot] s).1.setNote s.note).setCur s.cur

/-- The next core in turn that holds a strand. -/
def nextTurn (s : State) : Nat :=
  let busy := (s.cores.filter fun c => !c.2.slots.isEmpty).map Prod.fst
  (busy.find? fun c => s.turn < c).getD (busy.headD 0)

/-- An event that is due happens; which of them is free (log 11). -/
def runEvent (s : State) : Out :=
  match s.nextEvent with
  | none => .next s
  | some (e, s1) => exec e s1

/-- One issue opportunity of the core whose turn it is (R82). Where no strand of it is ready, an event that
is due happens. -/
def opportunity (s : State) : Out :=
  let core := s.turn
  match settleCore core ((s.core core).slots.map Prod.fst) s with
  | .fault f => .fault f
  | .refused r => .refused r
  | .next s1 =>
    let full := 16 ≤ (s1.core core).slots.foldl (fun n t => n + t.2.flight.length) 0
    let (s2, slots) := readySlots core ((s1.core core).slots.map Prod.fst) s1
    let ready := if full then [] else slots.filterMap fun sl => (s2.strandAt core sl).map fun t => (sl, t)
    match choose (s2.core core) s2.cycle ready with
    | none => runEvent { (if full then s2 else s2.idle core) with turn := nextTurn s }
    | some sl =>
      let items := match s2.nextConvoy core sl with
        | .ok (i, _) => i
        | .error _ => []
      match attempt s2 core sl with
      | .fault f => .fault f
      | .refused r => .refused r
      | .next s3 => .next { (s3.issued core sl (s2.core core).pol (holdsYield items)).lookAhead core sl with turn := nextTurn s }

/-- Time passes, the step's free values are new ones, and what happens of itself happens. -/
def tick (s : State) : State :=
  ({ s with cycle := s.cycle + 1 + Config.stepCycles s.choice, choice := s.choice + 1, note := .ok } : State).unprompted

/-- One step. -/
def step (s : State) : Out :=
  let s1 := tick s
  match s1.agenda with
  | [] => opportunity s1
  | _ :: _ => if Config.takes s1.choice 0 then runEvent s1 else opportunity s1

/-- Dwords of HBM at near addresses under skew 00, for `withFetchWord`. -/
def placeDwords (h : Tab Byte) : List (Nat × Nat) → Tab Byte
  | [] => h
  | (a, v) :: r => placeDwords (putBytes h ((nearPhys 0 a).getD 0) (toBytes 8 v)) r

/-- The state with one instruction word placed so that the very next step runs it: a strand at S in slot 0
of core 0 with its PC there, ASID 0 with a table that maps one near page of 1 GiB, key slot 0 installed,
and nothing due. It stands for a load from outside the machine (log 30). -/
def State.withFetchWord (s : State) (nbits w : Nat) : State :=
  let word := w % 2 ^ min nbits 64
  { s with
    turn := 0
    agenda := []
    asids := Tab.put s.asids 0 ⟨0, 0⟩
    keys := Tab.put s.keys 0 ⟨0, 0, none⟩
    lineKey := []
    poison := []
    stale := []
    far := []
    poolIn := []
    pst := []
    hbm := placeDwords s.hbm [(0x0, 0x1001), (0x1000, 0x2001), (0x2000, 0x3F), (0x10000, word), (0x10008, 0)]
    cores := Tab.put s.cores 0 { s.core 0 with slots := [(0, Strand.start 0x10000#64)] } }

end

end Sys2Proof.Machine
end

