-- ==== Sys2Proof/Machine/Terms.lean ====
section
/-!
DEFINITION. The terms in which claims speak of one instruction: the states in which its convoy is the only one of its
strand, and the state in which it has retired.
-/

namespace Sys2Proof.Machine

/-- The acting strand has nothing in flight and nothing waits to be delivered, its registers hold no uncorrectable
error, and the instruction is the only one of its convoy. -/
abbrev State.idleStrand (s : State) : Prop :=
  (s.strandAt s.cur.core s.cur.slot).isSome = true ∧ s.cur.pos = 0 ∧ s.cur.last = true ∧ s.me.flight = [] ∧
    s.me.stopped = false ∧ s.me.pend.isNone = true ∧ s.me.monitor.isNone = true ∧ s.me.vec.isNone = true ∧ s.me.lost = []

/-- The same with no link pending (R94): any instruction but `frame` may issue. -/
abbrev State.alone (s : State) : Prop := s.idleStrand ∧ s.me.r.plink.isNone = true

/-- The acting strand as its convoy retires: it continues at `pc`. -/
def Strand.passed (t : Strand) (pc : Word) (cycle : Nat) : Strand :=
  { t with pc := pc, flight := [], wait := 0, landing := false, lastIssue := cycle }

/-- The convoy has retired with no other effect: the strand continues at `pc`. -/
def State.passTo (s : State) (pc : Word) : State :=
  (s.setMe (s.me.passed pc s.cycle)).setNote .ok

/-- The same at the sequential successor (R92). -/
def State.passOn (s : State) : State := s.passTo s.cur.succ

/-- The strand's scalar state becomes `r`, and the convoy has retired. -/
def State.wrote (s : State) (r : Scalars) : State := (s.setR r).passOn

/-- Scalar operand `d` takes the value, and the convoy has retired: the whole effect of an instruction with a scalar
result. Nothing is written where `d` is g0 (R100). -/
def State.gave (s : State) (d : BitVec 6) (v : Word) : State := (s.setVal d v).passOn

/-- A scalar floating-point result: its value in `d`, its flags added to FCTL (R111, R121). -/
def State.gaveFloat (s : State) (d : BitVec 6) (r : Word × Word) : State :=
  s.wrote { s.me.r.put d.toNat r.1 with fctl := (s.me.r.put d.toNat r.1).fctl ||| r.2 }

/-- What a binary32 result tells beside its value (R111, R121): the code and the flags of `v` rounded once, with DZ and
NV where the operation raises them. -/
def rounded32 (m : Mode) (v : FVal) (dz nv : Bool) : Word × Word :=
  let r := f32.round m false v
  (BitVec.ofNat 64 r.code,
    (if r.inexact || r.overflow then 0x100#64 else 0) ||| (if r.tiny && r.inexact then 0x200#64 else 0) |||
      (if r.overflow then 0x400#64 else 0) ||| (if dz then 0x800#64 else 0) ||| (if nv then 0x1000#64 else 0))

/-- A transfer has retired: the strand continues at `pc` with scalar state `r`; `landing` says whether the landing check
applies there (R96). A link that it leaves pending is its own, not one that a handler found (R94, R309). -/
def State.transferred (s : State) (pc : Word) (r : Scalars) (landing : Bool) : State :=
  (s.setMe { s.me.passed pc s.cycle with
    r := r, landing := landing, xfer := s.cur.base
    kept := if r.plink.isSome then s.me.kept.set 0 false else s.me.kept }).setNote .ok

/-- The acting core changed. -/
def State.withCore (s : State) (f : Core → Core) : State := s.setCore s.cur.core (f s.curCore)

/-- No handle is on its way to the acting strand, so a stop need not wait for one (R318). -/
abbrev State.calm (s : State) : Prop := s.awaited s.cur.core s.cur.slot s.me = false

/-- A trap at issue (R48, R49): the trap is taken on the convoy, of which nothing has issued. -/
def State.trapped (s : State) (t : Trap) : Out :=
  (s.setNote (.trap t)).takeTrap s.cur.core s.cur.slot t s.cur.base

/-- A trap of an instruction that has issued (R306, R316): `o` is the taking of the trap by the strand as it was, with
the convoy at `cur.base` in flight and no effect of its one instruction in the scalar state that the image saves. -/
def State.faulted (s : State) (t : Trap) (o : Out) : Prop :=
  ∃ u : Strand, o = ((s.setMe u).setNote .ok).takeTrap s.cur.core s.cur.slot t s.cur.base ∧
    u.saved = s.me.r ∧ u.savedPc = s.cur.base ∧
    u = { s.me with pc := u.pc, flight := u.flight, wait := u.wait, landing := u.landing, lastIssue := u.lastIssue }

/-- The same of an instruction whose entry in flight is as `P` says, so that its image holds it so (R312). -/
def State.faultedWith (s : State) (t : Trap) (o : Out) (P : Entry → Prop) : Prop :=
  ∃ (u : Strand) (c : Convoy) (e : Entry), o = ((s.setMe u).setNote .ok).takeTrap s.cur.core s.cur.slot t s.cur.base ∧
    u.flight = [c] ∧ c.entries = [e] ∧ e.word = s.cur.word ∧ P e ∧ u.saved = s.me.r ∧ u.savedPc = s.cur.base ∧
    u = { s.me with pc := u.pc, flight := u.flight, wait := u.wait, landing := u.landing, lastIssue := u.lastIssue }

/-! ### Vector instructions -/

/-- An element holds a value. -/
def Elt.isFull : Elt → Bool
  | .full _ => true
  | _ => false

/-- The value it holds. -/
def Elt.num : Elt → Nat
  | .full v => v
  | _ => 0

/-- The strand holds the lanes, no instruction of its core is in flight and none is rechecked (R125, R137, R327). -/
abbrev State.laned (s : State) : Prop :=
  s.alone ∧ s.holdsLanes = true ∧ s.curCore.dmode = 0 ∧ (s.curCore.slots.all fun t => t.2.flight.isEmpty) = true

/-- Element `i` of a vector source operand (R41): of a register, or a scalar's low bits. -/
def State.lane (s : State) (x : BitVec 6) (w i : Nat) : Elt :=
  if x.toNat < 32 then (Tab.get VReg.zero s.curCore.v x.toNat).get w i
  else .full ((if x.toNat < 48 then s.val x else s.val (x - 48#6)).toNat % 2 ^ w)

/-- Bit `i` of a mask operand, q0 reading 1 everywhere (R35). -/
def State.maskAt (s : State) (q i : Nat) : Elt :=
  if q = 0 then .full 1 else (Tab.get QReg.zero s.curCore.q q).get i

/-- The first `n` elements of a source hold values. -/
def State.fullTo (s : State) (x : BitVec 6) (w n : Nat) : Bool := (List.range n).all fun i => (s.lane x w i).isFull

/-- The first `n` bits of a mask hold values. -/
def State.maskTo (s : State) (q n : Nat) : Bool := (List.range n).all fun i => (s.maskAt q i).isFull

/-- No element of a vector register is EMPTY. -/
def State.settledV (s : State) (d : BitVec 6) (w : Nat) : Bool :=
  (List.range (16384 / w)).all fun i => decide ((s.lane d w i) ≠ .empty)

/-- No bit of a mask register is EMPTY. -/
def State.settledQ (s : State) (d : BitVec 6) : Bool :=
  (List.range 2048).all fun i => decide ((Tab.get QReg.zero s.curCore.q d.toNat).get i ≠ .empty)

/-- A vector instruction finds what it needs: a length that its widest width `wide` allows, values in its mask and in
its sources below that length, each at its width (R134). -/
abbrev State.vready (s : State) (v : VCtl) (wide : Nat) (srcs : List (BitVec 6 × Nat)) : Prop :=
  s.laned ∧ s.len v.ls ≤ vlmax wide s.width ∧ s.maskTo v.q.toNat (s.len v.ls) = true ∧
    (srcs.all fun x => s.fullTo x.1 x.2 (s.len v.ls)) = true

/-- Vector register `d` becomes `r`, and the convoy has retired. -/
def State.gaveV (s : State) (d : BitVec 6) (r : VReg) : State :=
  (s.withCore fun k => { k with v := Tab.set VReg.zero k.v d.toNat r }).passOn

/-- Mask register `d` becomes `r`, and the convoy has retired. -/
def State.gaveQ (s : State) (d : BitVec 6) (r : QReg) : State :=
  (s.withCore fun k => { k with q := Tab.set QReg.zero k.q d.toNat r }).passOn

/-- `u` is `s`, but for one error record of latent POISON (R325; log 18 for the register it names) where the old
destination held POISON. -/
def State.recorded (s u : State) (held : Bool) : Prop :=
  u = s ∨ (held = true ∧ u = s.logErr 4 1 s.cur.core 0 s.cur.slot (Config.pick s.choice 128 % 128) s.me.asid 0 0)

/-- An element of a vector register is POISON. -/
def State.poisonV (s : State) (d : BitVec 6) (w : Nat) : Bool :=
  (List.range (16384 / w)).any fun i => s.lane d w i == .poison

/-- A bit of a mask register is POISON. -/
def State.poisonQ (s : State) (d : BitVec 6) : Bool :=
  (List.range 2048).any fun i => (Tab.get QReg.zero s.curCore.q d.toNat).get i == .poison

/-- The whole effect is that vector register `d` holds `f i` in each element `i` of width `w`, with the record of old
POISON that it may have to write. -/
def State.fills (s : State) (o : Out) (d : BitVec 6) (w : Nat) (f : Nat → Elt) : Prop :=
  ∃ (r : VReg) (u : State), o = .next (u.gaveV d r) ∧ s.recorded u (s.poisonV d w) ∧ ∀ i < 16384 / w, r.get w i = f i

/-- The whole effect is that mask register `d` holds `f i` in each bit, with the record of old POISON. -/
def State.marks (s : State) (o : Out) (d : BitVec 6) (f : Nat → Elt) : Prop :=
  ∃ (r : QReg) (u : State), o = .next (u.gaveQ d r) ∧ s.recorded u (s.poisonQ d) ∧ ∀ i < 2048, r.get i = f i

/-- The elements that R134 and R135 give a destination: the old ones at and above the length; below it `f i` where the
mask bit is 1, else 0 or the old one by the policy. -/
def State.under (s : State) (v : VCtl) (w : Nat) (old : Nat → Elt) (f : Nat → Nat) (i : Nat) : Elt :=
  if s.len v.ls ≤ i then old i
  else if (s.maskAt v.q.toNat i).num ≠ 0 then .full (f i % 2 ^ w)
  else if v.k = 1 then .full 0 else old i

/-- The same with the element's own old value below it. -/
def State.into (s : State) (v : VCtl) (d : BitVec 6) (w : Nat) (f : Nat → Nat) : Nat → Elt :=
  s.under v w (fun i => s.lane d w i) f

/-- The same for a mask destination: `f i` is the bit. -/
def State.intoQ (s : State) (v : VCtl) (d : BitVec 6) (f : Nat → Bool) : Nat → Elt :=
  s.under v 1 (fun i => (Tab.get QReg.zero s.curCore.q d.toNat).get i) fun i => if f i then 1 else 0

/-- The active elements below the length, in ascending order. -/
def State.actives (s : State) (v : VCtl) : List Nat :=
  (List.range (s.len v.ls)).filter fun i => decide ((s.maskAt v.q.toNat i).num ≠ 0)

/-! ### Memory -/

/-- A place in memory of this device. -/
def Place.mem : Place → Bool
  | .near _ _ _ => true
  | .far _ _ => true
  | .scratch _ _ => true
  | .peer _ _ _ => false
  | .devreg _ _ => false

/-- The acting strand reads `bytes` bytes at `va`, aligned, and they stand at place `p` of this device's memory, where
nothing holds the access and the data is good (R247, R248, R254). -/
abbrev State.reads (s : State) (f : Form) (va : Word) (bytes : Nat) (p : Place) : Prop :=
  s.checkElt s.me s.cur.core .read f va bytes = .ok p ∧ p.mem = true ∧ s.fifoBank p = none ∧
    s.tideHeld s.me va bytes = false ∧ s.stalled p = false ∧ s.poisoned p = false

/-- The same of a write, or of an atomic (R249, R254). -/
abbrev State.puts (s : State) (acc : Acc) (f : Form) (va : Word) (bytes : Nat) (p : Place) : Prop :=
  s.checkElt s.me s.cur.core acc f va bytes = .ok p ∧ p.mem = true ∧ s.fifoBank p = none ∧ s.stalled p = false

/-- A format record that the identifier was bound with is set and valid (R159). -/
abbrev Tid.recordSet (t : Tid) : Prop := t.fcode < 32 ∨ (t.record ≠ 0 ∧ recordOk t.record = true)

/-- The acting strand's entry `n` holds the identifier `t`, bound and usable (R159, R166). -/
abbrev State.holdsTid (s : State) (n : Nat) (t : Tid) : Prop :=
  n < s.me.ntd ∧ (∃ x, Tab.find s.me.td n = some x ∧ t = tidOf x) ∧ t.recordSet

/-- The addresses of a scatter's or an atomic's active elements (R169, R255, R256), and the half of its byte where an
element is a 4-bit code: MODE 0 from the value of `a` and the index register, MODE 1 by the identifier that `a` names, which
is of type `ty` and has no block scales. -/
def State.aimed (s : State) (v : VCtl) (a b : BitVec 6) (ty : Ty) (mode k : BitVec 2) (t : Tid) (adr : Nat → Word)
    (high : Nat → Bool) : Prop :=
  (mode = 0 ∧ ∀ i, adr i = s.val a + BitVec.ofNat 64 ((s.lane b ty.width i).num * 2 ^ k.toNat) ∧ high i = false) ∨
  (mode = 1 ∧ s.holdsTid a.toNat t ∧ t.fcode < 16 ∧ tyOfNat t.fcode = ty ∧ t.bsen = false ∧ ∀ i ∈ s.actives v, ∃ c,
    t.ofLinear (BitVec.ofNat ty.width (s.lane b ty.width i).num).toInt = some c ∧ adr i = (t.addr c).1 ∧ high i = (t.addr c).2)

/-- One element of a scatter written: raw in MODE 0, else as a code of the identifier's format. -/
def State.scatter (s : State) (mode : BitVec 2) (ty : Ty) (t : Tid) (p : Place) (high : Bool) (x : Nat) : State :=
  if mode = 0 then s.storeAt p (ty.width / 8) x else storeCode s p t.fmt high x

/-- The bytes of memory that the element takes. -/
def Tid.bytesOf (mode : BitVec 2) (ty : Ty) (t : Tid) : Nat := if mode = 0 then ty.width / 8 else t.fmt.bytes

/-! ### Combining two elements -/

/-- What combines two elements gives: in integer sums, minima and maxima (R142), in floating ones (R151), in the reductions
(R152, R302), in pooled sums (R259) and in the remote operations (R290). -/
structure Combining : Prop where
  /-- An integer sum wraps, or clamps under `.sat`; the orders are of the values, signed or unsigned by the type. -/
  ints : ∀ (ty : Ty) (w x y : Nat) (p : Nat → Int) (lo hi : Int), ty.isInt = true → w = ty.width → x < 2 ^ w → y < 2 ^ w →
    (∀ z, p z = if ty.isSigned then (BitVec.ofNat w z).toInt else (z : Int)) →
    lo = (if ty.isSigned then -2 ^ (w - 1) else 0) → hi = (if ty.isSigned then 2 ^ (w - 1) - 1 else 2 ^ w - 1) →
    intAdd ty false x y = ((p x + p y) % 2 ^ w).toNat ∧
    intAdd ty true x y = (max lo (min hi (p x + p y)) % 2 ^ w).toNat ∧
    intMin ty x y = (if p x ≤ p y then x else y) ∧ intMax ty x y = (if p y ≤ p x then x else y)
  /-- −0 stands below +0, and else the order is that of the values. -/
  order : ∀ (u t : Bool) (n k : Nat) (e f : Int) (q : Bool → Nat → Int → Rat),
    (∀ u n e, q u n e = (if u then -(n : Rat) else n) * (2 : Rat) ^ e) →
    (fePrec (.num u n e) (.num t k f) = true ↔ q u n e < q t k f ∨ q u n e = q t k f ∧ u = true ∧ t = false) ∧
    fePrec (.inf u) (.num t k f) = u ∧ fePrec (.num u n e) (.inf t) = !t ∧ fePrec (.inf u) (.inf t) = (u && !t)
  /-- Sums with what is no number. -/
  specials : ∀ (down u t : Bool) (n : Nat) (e : Int) (x : FVal),
    FVal.add down .nan x = .nan ∧ FVal.add down x .nan = .nan ∧
    FVal.add down (.inf u) (.inf t) = (if u = t then .inf u else .nan) ∧
    FVal.add down (.inf u) (.num t n e) = .inf u ∧ FVal.add down (.num t n e) (.inf u) = .inf u
  /-- A floating sum is the exact one rounded once; of one NaN and another value the minimum and the maximum are the other. -/
  floats : ∀ (ty : Ty) (md : Mode) (x y : Nat), ty.isF3 = true →
    feAdd ty md x y = ((tyFmt ty).round md false (FVal.add (md == .rdn) (tyVal ty x) (tyVal ty y))).code ∧
    feMin ty x y = (if tyVal ty x = .nan ∧ tyVal ty y = .nan then (tyFmt ty).nanCode else if tyVal ty x = .nan then y
      else if tyVal ty y = .nan then x else if fePrec (tyVal ty y) (tyVal ty x) then y else x) ∧
    feMax ty x y = (if tyVal ty x = .nan ∧ tyVal ty y = .nan then (tyFmt ty).nanCode else if tyVal ty x = .nan then y
      else if tyVal ty y = .nan then x else if fePrec (tyVal ty x) (tyVal ty y) then y else x)
  /-- A reduction combines by these, or bit by bit. -/
  reductions : ∀ (ty : Ty) (sat : Bool) (md : Mode) (x y : Nat),
    RedOp.apply .add ty sat md x y = (if ty.isInt then intAdd ty sat x y else feAdd ty md x y) ∧
    RedOp.apply .min ty sat md x y = (if ty.isInt then intMin ty x y else feMin ty x y) ∧
    RedOp.apply .max ty sat md x y = (if ty.isInt then intMax ty x y else feMax ty x y) ∧
    RedOp.apply .and ty sat md x y = x &&& y ∧ RedOp.apply .or ty sat md x y = x ||| y ∧
    RedOp.apply .xor ty sat md x y = x ^^^ y
  /-- A pooled sum starts with its first term, a floating one rounded, and adds the others. -/
  pooled : ∀ (ty : Ty) (md : Mode) (sat : Bool) (a x : Nat),
    (ty.isInt = true → poolAdd ty md sat none x = x ∧ poolAdd ty md sat (some a) x = intAdd ty sat a x) ∧
    (ty.isF3 = true → poolAdd ty md sat none x = ((tyFmt ty).round md sat (tyVal ty x)).code ∧
      poolAdd ty md sat (some a) x = ((tyFmt ty).round md sat (FVal.add (md == .rdn) (tyVal ty a) (tyVal ty x))).code)
  /-- The new value of a remote operation, by its function code: from the old value, the operand and the compared value. -/
  remote : ∀ (ty : Ty) (x b c : Nat), floatTy ty = ty.isF3 ∧
    amoNew 0 ty x b c = b ∧ amoNew 1 ty x b c = (if x = c then b else x) ∧ amoNew 2 ty x b c = (x + b) % 2 ^ ty.width ∧
    amoNew 3 ty x b c = feAdd ty .rne x b ∧ amoNew 4 ty x b c = x &&& b ∧ amoNew 5 ty x b c = x ||| b ∧
    amoNew 6 ty x b c = x ^^^ b ∧ amoNew 7 ty x b c = (if ty.isF3 then feMin ty x b else intMin ty x b) ∧
    amoNew 8 ty x b c = (if ty.isF3 then feMax ty x b else intMax ty x b) ∧ amoNew 9 ty x b c = intMin ty x b ∧
    amoNew 10 ty x b c = intMax ty x b

/-- No line holds an uncorrectable error and every pseudo-channel serves. -/
abbrev State.sound (s : State) : Prop := s.poison = [] ∧ s.outChans = []

/-- Memory is in its canonical form: the bytes of HBM, of the pool, of every scratchpad bank and of every cached far line
stand at rising addresses and none is a byte that an unlisted address reads as; banks and far lines stand in order. -/
def Memory.wf (s : State) : Bool :=
  Tab.wf memDefault s.hbm && Tab.wf memDefault s.pool && Tab.rising s.banks none && Tab.rising s.far none &&
    (s.banks.all fun b => Tab.wf memDefault b.2.data) && s.far.all fun l => Tab.wf memDefault l.2.bytes

end Sys2Proof.Machine
end

