-- ==== Sys2Proof/Certificates/Slice0/Obligations.lean ====
section
/-!
DEFINITION. The statements for the provers. Each says in its docstring which rules of spec/ it formalises. The words
`alone`, `laned`, `gave`, `passOn` and their like are those of Machine/Terms.lean.
-/

open Sys2Proof Sys2Proof.Machine

/-! ### Words (03) -/

/-- R37, R38, R43 and the worked encodings of 03, 05, 06: words written out from the spec's fields decode to the
instructions they stand for. -/
def Obligations.SpecWordsDecode : Prop :=
  decodeWord 0x8400_1058_8000_0000#64 = .ok ⟨true, false, .one (.add 4#6 5#6 34#6)⟩ ∧
  decodeWord 0x8420_1040_000F_FFF8#64 = .ok ⟨true, false, .one (.addi 4#6 4#6 0xFFFF8#20)⟩ ∧
  decodeWord 0x8580_1C80_0003_0047#64 = .ok ⟨true, false, .one (.extS 7#6 8#6 12#6 7#6)⟩ ∧
  decodeWord 0x8804_0831_0010_0000#64 = .ok ⟨true, false, .one (.fdivS 2#6 3#6 4#6 .rtz)⟩ ∧
  decodeWord 0x88C1_0250_0000_0020#64 = .ok ⟨true, false, .one (.mts 37#6 0x020#12)⟩ ∧
  decodeWord 0x8082_0038_800F_FFFB#64 = .ok ⟨true, false, .one (.blt 3#6 34#6 0xFFFFB#20)⟩ ∧
  decodeWord 0xA5C0_0000_0000_0004#64 = .ok ⟨true, true, .one (.frame 4#6)⟩ ∧
  decodeWord 0x9FC1_0000_0000_0000#64 = .ok ⟨true, false, .one .yield_⟩

/-- R37, R38, R50: decoding the word of a well-formed full-form instruction gives it back with its E and L bits, so no
operand, mode or modifier is dropped.
R37, R43, R44, R45: the same of a pair word whose slots keep the bank rule. -/
def Obligations.WordsRoundTrip : Prop :=
  (∀ (i : Instr) (last landing : Bool) (w : Word), wellFormed i = true → encode last landing i = some w →
    decodeWord w = .ok ⟨last, landing, .one i⟩) ∧
  (∀ (i j : Instr) (last landing : Bool) (a b : BitVec 30) (w : Word), wellFormed i = true → wellFormed j = true →
    slotOf i = some a → slotOf j = some b → bankOk a b = true → encodePair last landing i j = some w →
    decodeWord w = .ok ⟨last, landing, .pair i j⟩)

/-- R42, R50: a legal word is the word of what it decodes to: no two words stand for one instruction, and a nonzero
unused field makes a word illegal.
R50, R51: an opcode that the map does not list is refused whatever the other bits hold, as is rm = 0b111 in any
full-form word and bit 0 in any pair word. -/
def Obligations.LegalWordsAreCanonical : Prop :=
  (∀ (w : Word) (c : WordCode), decodeWord w = .ok c →
    (∀ i, c.body = .one i → wellFormed i = true ∧ encode c.last c.landing i = some w) ∧
    (∀ i j, c.body = .pair i j → wellFormed i = true ∧ wellFormed j = true ∧ encodePair c.last c.landing i j = some w)) ∧
  (∀ (w : Word) (c : WordCode),
    (w.getLsbD 62 = false → field w 54 7 ∉
      [0x01, 0x02, 0x03, 0x04, 0x05, 0x06, 0x07, 0x08, 0x09, 0x0A, 0x0B, 0x0C, 0x0D, 0x10, 0x11, 0x12, 0x13, 0x14, 0x15, 0x16,
        0x17, 0x20, 0x21, 0x22, 0x23, 0x28, 0x29, 0x2A, 0x2B, 0x2C, 0x2D, 0x2E, 0x2F, 0x30, 0x31, 0x32, 0x33, 0x40, 0x41, 0x42,
        0x43, 0x44, 0x45, 0x46, 0x50, 0x51, 0x58, 0x59, 0x5A, 0x60, 0x61, 0x62, 0x64, 0x65, 0x66, 0x67, 0x68, 0x69, 0x6A, 0x6B,
        0x6C, 0x6D, 0x70, 0x71, 0x72, 0x73, 0x74, 0x75, 0x78, 0x79, 0x7F] → decodeWord w ≠ .ok c) ∧
    (w.getLsbD 62 = false → field w 20 3 = 7 → decodeWord w ≠ .ok c) ∧
    (w.getLsbD 62 = true → w.getLsbD 0 = true → decodeWord w ≠ .ok c))

/-- What is in flight fires again from its word: the plan of a word is that of the instruction it decodes to. -/
def Obligations.WordsFireAsDecoded : Prop :=
  ∀ (w : Word) (c : WordCode) (s : State), decodeWord w = .ok c →
    (∀ i, c.body = .one i → exec i s = run (planOfWord w false) s) ∧
    (∀ i j, c.body = .pair i j → exec i s = run (planOfWord w false) s ∧ exec j s = run (planOfWord w true) s)

/-- R46, R48, R82: a step of a device in which no event is due and one strand of the core in turn has nothing in flight
runs that strand's next convoy: where the word at its PC is a legal word with E = 1 of one instruction, in readable memory
and with no landing check to fail, `exec` of that instruction at that place; where the convoy has two instructions that
need not wait, `exec` of the first and then of the second. What the step adds is the passing of time before and, after, the
bookkeeping of the choice of strand, and whether the strand that issued now waits.
The model's own reading, and no rule's words: that a step is one issue opportunity or one event (logs 1, 2), and that a wait
which begins at issue begins with that step (log 147). -/
def Obligations.StepRunsDecoded : Prop :=
  ∀ (s t : State) (slot : Nat) (st : Strand),
    t = tick s → t.agenda = [] → (t.core t.turn).slots = [(slot, st)] →
    st.flight = [] → st.stopped = false → st.pend = none → st.vec = none → st.wait = 0 → st.halting = false →
    (∀ (i : Instr) (landing : Bool) (w : Word) (u : State),
      t.fetchWords t.turn st.asid st.lvl st.pc 4 = .ok [w] → (st.landing = true → landing = true) →
      decodeWord w = .ok ⟨true, landing, .one i⟩ → (planOfWord w false).lvl.num ≤ st.lvl.num →
      exec i (t.aimAt t.turn slot 1 0 ⟨i, 0, w, false⟩ true) = .next u → (∀ c, u.note ≠ .wait c) →
      step s = .next { (u.issued t.turn slot (t.core t.turn).pol (holdsYield [⟨i, 0, w, false⟩])).lookAhead t.turn slot with
        turn := nextTurn t }) ∧
    (∀ (i j : Fetched) (n : Nat) (u v : State),
      t.nextConvoy t.turn slot = .ok ([i, j], n) → convoyReasons t t.turn slot n [i, j] = [] →
      exec i.instr (t.aimAt t.turn slot n 0 i false) = .next u → u.note = .ok →
      exec j.instr (u.aimAt t.turn slot n 1 j true) = .next v → v.note = .ok →
      step s = .next { (v.issued t.turn slot (t.core t.turn).pol (holdsYield [i, j])).lookAhead t.turn slot with
        turn := nextTurn t })

/-! ### Scalar integer and address instructions (06) -/

/-- R113 in both forms, with the immediate of R114: the arithmetic and logic group, each instruction with all it changes. -/
def Obligations.ArithmeticAndLogic : Prop :=
  ∀ (s : State) (d a b : BitVec 6) (x : BitVec 20), s.alone →
    (exec (.add d a b) s = .next (s.gave d (s.val a + s.val b)) ∧
    exec (.sub d a b) s = .next (s.gave d (s.val a - s.val b)) ∧
    exec (.mul d a b) s = .next (s.gave d (s.val a * s.val b)) ∧
    exec (.mulh d a b) s = .next (s.gave d (BitVec.ofInt 64 ((s.val a).toInt * (s.val b).toInt / 2 ^ 64))) ∧
    exec (.mulhn d a b) s = .next (s.gave d (BitVec.ofNat 64 ((s.val a).toNat * (s.val b).toNat / 2 ^ 64))) ∧
    exec (.sAnd d a b) s = .next (s.gave d (s.val a &&& s.val b)) ∧
    exec (.sOr d a b) s = .next (s.gave d (s.val a ||| s.val b)) ∧
    exec (.sXor d a b) s = .next (s.gave d (s.val a ^^^ s.val b)) ∧
    exec (.andn d a b) s = .next (s.gave d (s.val a &&& ~~~s.val b)) ∧
    exec (.shl d a b) s = .next (s.gave d (s.val a <<< ((s.val b).toNat % 64))) ∧
    exec (.shr d a b) s = .next (s.gave d (s.val a >>> ((s.val b).toNat % 64))) ∧
    exec (.sra d a b) s = .next (s.gave d ((s.val a).sshiftRight ((s.val b).toNat % 64))) ∧
    exec (.rol d a b) s = .next (s.gave d ((s.val a).rotateLeft ((s.val b).toNat % 64))) ∧
    exec (.sMin d a b) s = .next (s.gave d (if (s.val a).toInt ≤ (s.val b).toInt then s.val a else s.val b)) ∧
    exec (.sMax d a b) s = .next (s.gave d (if (s.val b).toInt ≤ (s.val a).toInt then s.val a else s.val b)) ∧
    exec (.minn d a b) s = .next (s.gave d (if (s.val a).toNat ≤ (s.val b).toNat then s.val a else s.val b)) ∧
    exec (.maxn d a b) s = .next (s.gave d (if (s.val b).toNat ≤ (s.val a).toNat then s.val a else s.val b)) ∧
    exec (.slt d a b) s = .next (s.gave d (if (s.val a).toInt < (s.val b).toInt then 1 else 0)) ∧
    exec (.sltn d a b) s = .next (s.gave d (if (s.val a).toNat < (s.val b).toNat then 1 else 0))) ∧
    exec (.addi d a x) s = .next (s.gave d (s.val a + x.signExtend 64)) ∧
    exec (.subi d a x) s = .next (s.gave d (s.val a - x.signExtend 64)) ∧
    exec (.muli d a x) s = .next (s.gave d (s.val a * x.signExtend 64)) ∧
    exec (.mulhi d a x) s = .next (s.gave d (BitVec.ofInt 64 ((s.val a).toInt * x.toInt / 2 ^ 64))) ∧
    exec (.mulhni d a x) s = .next (s.gave d (BitVec.ofNat 64 ((s.val a).toNat * (x.signExtend 64).toNat / 2 ^ 64))) ∧
    exec (.andi d a x) s = .next (s.gave d (s.val a &&& x.signExtend 64)) ∧
    exec (.ori d a x) s = .next (s.gave d (s.val a ||| x.signExtend 64)) ∧
    exec (.xori d a x) s = .next (s.gave d (s.val a ^^^ x.signExtend 64)) ∧
    exec (.andni d a x) s = .next (s.gave d (s.val a &&& ~~~(x.signExtend 64))) ∧
    exec (.shli d a x) s = .next (s.gave d (s.val a <<< ((x.signExtend 64).toNat % 64))) ∧
    exec (.shri d a x) s = .next (s.gave d (s.val a >>> ((x.signExtend 64).toNat % 64))) ∧
    exec (.srai d a x) s = .next (s.gave d ((s.val a).sshiftRight ((x.signExtend 64).toNat % 64))) ∧
    exec (.roli d a x) s = .next (s.gave d ((s.val a).rotateLeft ((x.signExtend 64).toNat % 64))) ∧
    exec (.mini d a x) s = .next (s.gave d (if (s.val a).toInt ≤ x.toInt then s.val a else x.signExtend 64)) ∧
    exec (.maxi d a x) s = .next (s.gave d (if x.toInt ≤ (s.val a).toInt then s.val a else x.signExtend 64)) ∧
    exec (.minni d a x) s =
      .next (s.gave d (if (s.val a).toNat ≤ (x.signExtend 64).toNat then s.val a else x.signExtend 64)) ∧
    exec (.maxni d a x) s =
      .next (s.gave d (if (x.signExtend 64).toNat ≤ (s.val a).toNat then s.val a else x.signExtend 64)) ∧
    exec (.slti d a x) s = .next (s.gave d (if (s.val a).toInt < x.toInt then 1 else 0)) ∧
    exec (.sltni d a x) s = .next (s.gave d (if (s.val a).toNat < (x.signExtend 64).toNat then 1 else 0))

/-- R115: division truncates toward zero and never traps, its special cases among the rest.
R116, R117, R118, R119, R120: bit counts, select, constants, addresses and bit fields. `p` is the lowest bit of a field
and `n` its length less one. -/
def Obligations.DivisionBitsAddresses : Prop :=
  (∀ (s : State) (d a b : BitVec 6), s.alone →
    exec (.div d a b) s = .next (s.gave d (if s.val b = 0 then -1 else BitVec.ofInt 64 ((s.val a).toInt.tdiv (s.val b).toInt))) ∧
    exec (.divn d a b) s = .next (s.gave d (if s.val b = 0 then -1 else BitVec.ofNat 64 ((s.val a).toNat / (s.val b).toNat))) ∧
    exec (.rem d a b) s = .next (s.gave d (if s.val b = 0 then s.val a else
      BitVec.ofInt 64 ((s.val a).toInt.tmod (s.val b).toInt))) ∧
    exec (.remn d a b) s = .next (s.gave d (if s.val b = 0 then s.val a else
      BitVec.ofNat 64 ((s.val a).toNat % (s.val b).toNat))) ∧
    (s.val a = BitVec.ofInt 64 (-2 ^ 63) → s.val b = BitVec.ofInt 64 (-1) →
      exec (.div d a b) s = .next (s.gave d (BitVec.ofInt 64 (-2 ^ 63))) ∧ exec (.rem d a b) s = .next (s.gave d 0))) ∧
  (∀ (s : State) (d a b c : BitVec 6) (x : BitVec 20) (k : BitVec 2) (p n : BitVec 6), s.alone →
    (∃ z, exec (.clz d a) s = .next (s.gave d (BitVec.ofNat 64 z)) ∧ z ≤ 64 ∧
      (∀ i < z, (s.val a).getLsbD (63 - i) = false) ∧ (z < 64 → (s.val a).getLsbD (63 - z) = true)) ∧
    (∃ z, exec (.ctz d a) s = .next (s.gave d (BitVec.ofNat 64 z)) ∧ z ≤ 64 ∧
      (∀ i < z, (s.val a).getLsbD i = false) ∧ (z < 64 → (s.val a).getLsbD z = true)) ∧
    exec (.popc d a) s = .next (s.gave d (BitVec.ofNat 64 ((List.range 64).countP fun i => (s.val a).getLsbD i))) ∧
    exec (.sel d a b c) s = .next (s.gave d (if s.val c ≠ 0 then s.val a else s.val b)) ∧
    exec (.li d x) s = .next (s.gave d (x.signExtend 64)) ∧
    exec (.lui d x) s = .next (s.gave d ((s.val d <<< 20) ||| x.setWidth 64)) ∧
    exec (.adr d x) s = .next (s.gave d (s.cur.base + x.signExtend 64)) ∧
    exec (.lsa d a b k) s = .next (s.gave d (s.val a + (s.val b <<< k.toNat))) ∧
    (p.toNat + n.toNat < 64 →
      exec (.ext d a p n) s = .next (s.gave d (((s.val a >>> p.toNat).setWidth (n.toNat + 1)).setWidth 64)) ∧
      exec (.extS d a p n) s = .next (s.gave d (((s.val a >>> p.toNat).setWidth (n.toNat + 1)).signExtend 64)) ∧
      ∃ v, exec (.ins d a p n) s = .next (s.gave d v) ∧ ∀ i < 64, v.getLsbD i =
        if p.toNat ≤ i ∧ i ≤ p.toNat + n.toNat then (s.val a).getLsbD (i - p.toNat) else (s.val d).getLsbD i))

/-- R44: a compact slot computes as the full form does, its destination being its first source too; `arg` is its other
operand. -/
def Obligations.CompactScalarSlots : Prop :=
  ∀ (s : State) (d : BitVec 5) (o : CArg), s.alone →
    ∀ (dest : BitVec 6) (x arg : Word), dest = d.setWidth 6 → x = s.val dest →
    arg = (match o with | .reg r => s.val (r.setWidth 6) | .imm v => v.signExtend 64) →
    exec .nopC s = .next s.passOn ∧
    exec (.addC d o) s = .next (s.gave dest (x + arg)) ∧
    exec (.subC d o) s = .next (s.gave dest (x - arg)) ∧
    exec (.mulC d o) s = .next (s.gave dest (x * arg)) ∧
    exec (.andC d o) s = .next (s.gave dest (x &&& arg)) ∧
    exec (.orC d o) s = .next (s.gave dest (x ||| arg)) ∧
    exec (.xorC d o) s = .next (s.gave dest (x ^^^ arg)) ∧
    exec (.andnC d o) s = .next (s.gave dest (x &&& ~~~arg)) ∧
    exec (.shlC d o) s = .next (s.gave dest (x <<< (arg.toNat % 64))) ∧
    exec (.shrC d o) s = .next (s.gave dest (x >>> (arg.toNat % 64))) ∧
    exec (.sraC d o) s = .next (s.gave dest (x.sshiftRight (arg.toNat % 64))) ∧
    exec (.minC d o) s = .next (s.gave dest (if x.toInt ≤ arg.toInt then x else arg)) ∧
    exec (.maxC d o) s = .next (s.gave dest (if arg.toInt ≤ x.toInt then x else arg)) ∧
    exec (.minnC d o) s = .next (s.gave dest (if x.toNat ≤ arg.toNat then x else arg)) ∧
    exec (.maxnC d o) s = .next (s.gave dest (if arg.toNat ≤ x.toNat then x else arg)) ∧
    exec (.liC d o) s = .next (s.gave dest arg)

/-- R100: g0 reads zero in every strand, and an instruction whose destination it is leaves every scalar register as it
was. -/
def Obligations.GlobalZeroDiscards : Prop :=
  ∀ (s : State) (v : Word), s.alone →
    s.val 32#6 = 0 ∧ s.gave 32#6 v = s.passOn ∧ (∀ x : BitVec 6, (s.gave 32#6 v).val x = s.val x) ∧
    ∀ (d x : BitVec 6), d ≠ 32#6 → d.toNat < 48 → x.toNat < 48 → Tab.wf 0 s.me.r.phys = true → Tab.wf 0 s.me.r.g = true →
      (s.gave d v).val x = if x = d then v else s.val x

/-! ### Scalar floating point (06) -/

/-- R121, R122, R123, R124: each scalar floating-point instruction completes, writes its result and adds its flags to FCTL,
under its rounding mode, of which `.dyn` is FCTL.RM. The results are the sum, difference, product, fused sum, quotient and
root of the sources' exact values, rounded once into binary32, with NX, UF and OF of that rounding, DZ for a finite nonzero
value over a zero, and NV for a NaN newly made and for a signalling source; the orders of the exact values; the value rounded
to an integer and clamped, with NV where it saturates and else NX where it is not exact; and an integer rounded into
binary32. A fused sum of a product that has no value and a NaN raises NV or not: that is a free value (log 17). -/
def Obligations.ScalarFloatingPoint : Prop :=
  ∀ (s : State) (d a b c : BitVec 6) (rm : Rm), s.alone → ∀ (m : Mode) (x y z p : FVal) (sa sb sc : Bool),
    m = modeOf rm s.me.r.fctl → x = val32 (s.val a) → y = val32 (s.val b) → z = val32 (s.val c) → p = FVal.mul x y →
    sa = signalling ((s.val a).toNat % 2 ^ 32) → sb = signalling ((s.val b).toNat % 2 ^ 32) →
    sc = signalling ((s.val c).toNat % 2 ^ 32) →
    (∀ v, v = FVal.add (m == .rdn) x y → exec (.faddS d a b rm) s = .next (s.gaveFloat d
      (rounded32 m v false (v == .nan && x != .nan && y != .nan || sa || sb)))) ∧
    (∀ v, v = FVal.add (m == .rdn) x y.neg → exec (.fsubS d a b rm) s = .next (s.gaveFloat d
      (rounded32 m v false (v == .nan && x != .nan && y != .nan || sa || sb)))) ∧
    exec (.fmulS d a b rm) s = .next (s.gaveFloat d
      (rounded32 m p false (p == .nan && x != .nan && y != .nan || sa || sb))) ∧
    (∀ v, v = FVal.add (m == .rdn) p z → exec (.ffmaS d a b rm c) s = .next (s.gaveFloat d
      (rounded32 m v false (v == .nan && x != .nan && y != .nan && (z != .nan || Config.fmaNanInvalid && p == .nan)
        || sa || sb || sc)))) ∧
    (∀ (v : FVal) (dz : Bool), v = FVal.div x y → (dz = true ↔ ∃ u n e t f, x = .num u n e ∧ n ≠ 0 ∧ y = .num t 0 f) →
      exec (.fdivS d a b rm) s = .next (s.gaveFloat d
        (rounded32 m v dz (v == .nan && x != .nan && y != .nan || sa || sb)))) ∧
    (∀ v, v = FVal.sqrt x → exec (.fsqrtS d a rm) s = .next (s.gaveFloat d
      (rounded32 m v false (v == .nan && x != .nan || sa)))) ∧
    exec (.fcmpSEq d a b) s = .next (s.gaveFloat d
      (if FVal.cmp x y = some .eq then 1 else 0, if sa || sb then 0x1000#64 else 0)) ∧
    exec (.fcmpSLt d a b) s = .next (s.gaveFloat d
      (if FVal.cmp x y = some .lt then 1 else 0, if x = .nan ∨ y = .nan then 0x1000#64 else 0)) ∧
    exec (.fcmpSLe d a b) s = .next (s.gaveFloat d
      (if FVal.cmp x y = some .lt ∨ FVal.cmp x y = some .eq then 1 else 0, if x = .nan ∨ y = .nan then 0x1000#64 else 0)) ∧
    exec (.fcmpSUn d a b) s = .next (s.gaveFloat d
      (if x = .nan ∨ y = .nan then 1 else 0, if sa || sb then 0x1000#64 else 0)) ∧
    (x = .nan → exec (.fcvtSFi d a rm) s = .next (s.gaveFloat d (0, 0x1000#64)) ∧
      exec (.fcvtSFn d a rm) s = .next (s.gaveFloat d (0, 0x1000#64))) ∧
    (∀ u, x = .inf u →
      exec (.fcvtSFi d a rm) s = .next (s.gaveFloat d (if u then 0x8000000000000000#64 else 0x7FFFFFFFFFFFFFFF#64, 0x1000#64)) ∧
      exec (.fcvtSFn d a rm) s = .next (s.gaveFloat d (if u then 0 else 0xFFFFFFFFFFFFFFFF#64, 0x1000#64))) ∧
    (∀ u n e i, x = .num u n e → i = roundInt m u n e → ∀ nx : Word,
      nx = (if 0 ≤ e ∨ n % 2 ^ (-e).toNat = 0 then 0 else 0x100#64) →
      exec (.fcvtSFi d a rm) s = .next (s.gaveFloat d
        (BitVec.ofInt 64 (clampInt 64 true i), if clampInt 64 true i = i then nx else 0x1000#64)) ∧
      exec (.fcvtSFn d a rm) s = .next (s.gaveFloat d
        (BitVec.ofInt 64 (clampInt 64 false i), if clampInt 64 false i = i then nx else 0x1000#64))) ∧
    exec (.fcvtSIf d a rm) s = .next (s.gaveFloat d (rounded32 m (ofInt (s.val a).toInt) false false)) ∧
    exec (.fcvtSNf d a rm) s = .next (s.gaveFloat d (rounded32 m (ofInt ((s.val a).toNat : Int)) false false))

/-- R121 to R124: what the results of scalar floating point are on special values: NaN operands and newly made NaNs give
0x7FC00000; bits 63 to 32 of a source do not matter; a finite nonzero value over a zero is an infinity and sets DZ; sums
that cancel are +0 but for rounding down; comparisons with NaN are false but for `.un`; NaN converts to 0 with NV.
R121, R163: a finite value rounded to nearest even into binary32 is no farther from it than any other finite code of
its sign, and a binary32 value is its own rounding in every mode.
R122 to R124: sums, products and comparisons of finite values are exact; a quotient or root is exact, or stands between its
two even neighbours on a grid of more than 70 bits, and is odd; an integer rounding lies within 1 of the value, within 1/2
to nearest, on the side of its directed mode.
R154, R160, R163, R164: in every named or valid record format, each finite code of a sign is its own rounding in every mode;
a value stands between two neighbours `k` and `k + 1` of the grid, whose points `q` carries on above the largest finite
value, and its rounding is the one that the mode's row chooses, by value, by parity of the code or by sign; above the
largest finite code it is what the overflow table gives, and infinities and NaN what R164 gives; a format without a
sign gives a negative result 0 or NaN. R111, R121: in binary32 a result is tiny where its rounding with an unbounded
exponent lies below 2^-126. -/
def Obligations.FloatResults : Prop :=
  (∀ (m : Mode) (a b c : Word),
    (val32 a = .nan ∨ val32 b = .nan →
      (fadd32 m a b).1 = 0x7FC00000#64 ∧ (fsub32 m a b).1 = 0x7FC00000#64 ∧ (fmul32 m a b).1 = 0x7FC00000#64 ∧
      (fdiv32 m a b).1 = 0x7FC00000#64 ∧ (ffma32 m a b c).1 = 0x7FC00000#64 ∧ (ffma32 m c a b).1 = 0x7FC00000#64 ∧
      (fcmp32 .eq a b).1 = 0 ∧ (fcmp32 .lt a b) = (0, 0x1000#64) ∧ (fcmp32 .le a b) = (0, 0x1000#64) ∧ (fcmp32 .un a b).1 = 1) ∧
    (val32 a = .nan → (fsqrt32 m a).1 = 0x7FC00000#64 ∧ fcvtToInt m true a = (0, 0x1000#64) ∧
      fcvtToInt m false a = (0, 0x1000#64)) ∧
    (∀ s e n t f, val32 a = .num s n e → n ≠ 0 → val32 b = .num t 0 f →
      fdiv32 m a b = (if s = t then 0x7F800000#64 else 0xFF800000#64, 0x800#64)) ∧
    (∀ s n e, val32 a = .num s n e → val32 b = .num (!s) n e →
      (fadd32 m a b).1 = if m = .rdn then 0x80000000#64 else 0) ∧
    (∀ s n e, val32 a = .num s n e → (fsub32 m a a).1 = if m = .rdn then 0x80000000#64 else 0) ∧
    fadd32 m (0x80000000#64) (0x80000000#64) = (0x80000000#64, 0) ∧ fsqrt32 m (0x80000000#64) = (0x80000000#64, 0) ∧
    fadd32 m a b = fadd32 m (a &&& 0xFFFFFFFF#64) (b &&& 0xFFFFFFFF#64) ∧
    (∀ hi : Word, val32 (a ||| hi <<< 32) = val32 a)) ∧
  (∀ (neg : Bool) (m : Nat) (e : Int) (c : Nat), (f32.round .rne false (.num neg m e)).overflow = false →
    c < 0x7F800000 →
    ∀ q r : Rat, (∀ g k, f32.value ((f32.round .rne false (.num neg m e)).code % 2 ^ 31) = .num false g k → q = g * (2 : Rat) ^ k) →
      (∀ g k, f32.value c = .num false g k → r = g * (2 : Rat) ^ k) →
      |q - m * (2 : Rat) ^ e| ≤ |r - m * (2 : Rat) ^ e|) ∧
  (∀ (mode : Mode) (c : Nat), c < 2 ^ 32 → c % 2 ^ 31 < 0x7F800000 →
    f32.round mode false (f32.value c) = ⟨c, false, false, decide (c % 2 ^ 31 < 0x800000)⟩) ∧
  (∀ q : Bool → Nat → Int → Rat, (∀ u n e, q u n e = (if u then -(n : Rat) else n) * (2 : Rat) ^ e) →
    ∀ (u t : Bool) (n k : Nat) (e f : Int),
      (∀ down, ∃ v g h, FVal.add down (.num u n e) (.num t k f) = .num v g h ∧ q v g h = q u n e + q t k f) ∧
      (∃ v g h, FVal.mul (.num u n e) (.num t k f) = .num v g h ∧ q v g h = q u n e * q t k f) ∧
      (FVal.cmp (.num u n e) (.num t k f) = some .lt ↔ q u n e < q t k f) ∧
      (FVal.cmp (.num u n e) (.num t k f) = some .eq ↔ q u n e = q t k f) ∧
      (n ≠ 0 → k ≠ 0 → ∃ g h, FVal.div (.num u n e) (.num t k f) = .num (u != t) g h ∧ 2 ^ 70 ≤ g ∧
        (g % 2 = 0 → q false g h * q false k f = q false n e) ∧
        (g % 2 = 1 → q false (g - 1) h * q false k f < q false n e ∧ q false n e < q false (g + 1) h * q false k f)) ∧
      (n ≠ 0 → ∃ g h, FVal.sqrt (.num false n e) = .num false g h ∧ 2 ^ 70 ≤ g ∧
        (g % 2 = 0 → q false g h ^ 2 = q false n e) ∧
        (g % 2 = 1 → q false (g - 1) h ^ 2 < q false n e ∧ q false n e < q false (g + 1) h ^ 2)) ∧
      (∀ mode, |(roundInt mode u n e : Rat) - q u n e| < 1) ∧
      |(roundInt .rne u n e : Rat) - q u n e| ≤ 1 / 2 ∧ |(roundInt .rna u n e : Rat) - q u n e| ≤ 1 / 2 ∧
      (roundInt .rdn u n e : Rat) ≤ q u n e ∧ q u n e ≤ (roundInt .rup u n e : Rat) ∧
      |(roundInt .rtz u n e : Rat)| ≤ |q u n e|) ∧
  (∀ (g : FFmt) (mode : Mode) (sat neg : Bool) (sign : Bool → Nat → Nat) (top inf nan : Nat) (q : Nat → Rat),
    ((∃ ty, fmtOfTy ty = .flt g) ∨ ∃ r, recordOk r = true ∧ g = fmtOfRecord r) →
    (∀ u c, sign u c = if u && g.s == 1 then 2 ^ (g.e + g.m) + c else c) →
    inf = 2 ^ (g.e + g.m) - 2 ^ g.m →
    top = (if g.spec = 1 then inf - 1 else if g.spec = 2 then 2 ^ (g.e + g.m) - 2 else 2 ^ (g.e + g.m) - 1) →
    nan = (if g.spec = 1 then inf + 2 ^ (g.m - 1) else if g.spec = 2 then 2 ^ (g.e + g.m) - 1 else 0) →
    (∀ k, q k = if k < 2 ^ g.m then (k : Rat) / 2 ^ g.m * (2 : Rat) ^ (1 - g.bias)
      else (1 + (k % 2 ^ g.m : Nat) / 2 ^ g.m) * (2 : Rat) ^ ((k / 2 ^ g.m : Nat) - g.bias)) →
    (∀ u c, c ≤ top → (u = true → g.s = 1) → ∃ n e t, g.value (sign u c) = .num u n e ∧ n * (2 : Rat) ^ e = q c ∧
      g.round mode sat (.num u n e) = ⟨sign u c, false, false, t⟩) ∧
    (∀ (n : Nat) (e : Int), ∃ k c : Nat, q k ≤ n * (2 : Rat) ^ e ∧ n * (2 : Rat) ^ e < q (k + 1) ∧
      c = (if q k = n * (2 : Rat) ^ e then k else match mode with
        | .rne => if 2 * (n * (2 : Rat) ^ e) < q k + q (k + 1) then k else if q k + q (k + 1) < 2 * (n * (2 : Rat) ^ e) then k + 1
          else if k % 2 = 0 then k else k + 1
        | .rtz => k
        | .rdn => if neg then k + 1 else k
        | .rup => if neg then k else k + 1
        | .rna => if 2 * (n * (2 : Rat) ^ e) < q k + q (k + 1) then k else k + 1
        | .rto => if k % 2 = 1 then k else k + 1) ∧
      (g.round mode sat (.num neg n e)).code =
        (if g.s = 0 ∧ neg ∧ c ≠ 0 then (if sat then 0 else nan) else if c ≤ top then sign neg c
        else if sat then sign neg top
        else if g.spec = 1 then sign neg (match mode with
          | .rne => inf
          | .rna => inf
          | .rup => if neg then top else inf
          | .rdn => if neg then inf else top
          | .rtz => top
          | .rto => top)
        else if g.spec = 2 then nan else sign neg top) ∧
      ((neg = true → g.s = 1) → ((g.round mode sat (.num neg n e)).overflow = true ↔ top < c) ∧
        ((g.round mode sat (.num neg n e)).inexact = true ↔ top < c ∨ q k ≠ n * (2 : Rat) ^ e))) ∧
    (g.round mode sat .nan).code = nan ∧
    (g.round mode sat (.inf neg)).code = (if g.s = 0 ∧ neg then (if sat then 0 else nan) else if sat then sign neg top
      else if g.spec = 1 then sign neg inf else if g.spec = 2 then nan else sign neg top)) ∧
  (∀ (mode : Mode) (neg : Bool) (n : Nat) (e : Int) (x : Rat), x = n * (2 : Rat) ^ e →
    (f32.round mode false (.num neg n e)).overflow = false →
    ((f32.round mode false (.num neg n e)).tiny = true ↔ x < (2 : Rat) ^ (-126 : Int) ∧ ¬ (match mode with
      | .rne => (2 : Rat) ^ (-126 : Int) - (2 : Rat) ^ (-151 : Int) ≤ x
      | .rna => (2 : Rat) ^ (-126 : Int) - (2 : Rat) ^ (-151 : Int) ≤ x
      | .rup => neg = false ∧ (2 : Rat) ^ (-126 : Int) - (2 : Rat) ^ (-150 : Int) < x
      | .rdn => neg = true ∧ (2 : Rat) ^ (-126 : Int) - (2 : Rat) ^ (-150 : Int) < x
      | .rtz => False
      | .rto => False)))

/-! ### Control transfers, frames, waiting and hints (05, 06) -/

/-- R92, R95: each direct branch changes nothing but PC, which goes to the convoy's base plus 8 times the offset where its
condition holds and to the sequential successor otherwise.
R93, R94, R96: `jmp` and `calli` go to an aligned value of their operand, where the landing check applies; `call` goes to
the convoy's base plus 8 times the offset, where it does not; `calli` and `call` leave the successor pending as a link, with
D = 1 for `call` alone. A target that is not aligned is a control-flow fault, with no transfer and no link. -/
def Obligations.BranchesAndTransfers : Prop :=
  (∀ (s : State) (a b : BitVec 6) (off : BitVec 20) (tgt next : Word), s.alone →
    tgt = s.cur.base + (off.signExtend 64 <<< 3) → next = s.cur.base + BitVec.ofNat 64 (8 * s.cur.nwords) →
    exec (.b off) s = .next (s.passTo tgt) ∧
    exec (.beq a b off) s = .next (s.passTo (if s.val a = s.val b then tgt else next)) ∧
    exec (.bne a b off) s = .next (s.passTo (if s.val a = s.val b then next else tgt)) ∧
    exec (.blt a b off) s = .next (s.passTo (if (s.val a).toInt < (s.val b).toInt then tgt else next)) ∧
    exec (.bge a b off) s = .next (s.passTo (if (s.val a).toInt < (s.val b).toInt then next else tgt)) ∧
    exec (.bltn a b off) s = .next (s.passTo (if (s.val a).toNat < (s.val b).toNat then tgt else next)) ∧
    exec (.bgen a b off) s = .next (s.passTo (if (s.val a).toNat < (s.val b).toNat then next else tgt)) ∧
    exec (.bz a off) s = .next (s.passTo (if s.val a = 0 then tgt else next)) ∧
    exec (.bnz a off) s = .next (s.passTo (if s.val a = 0 then next else tgt))) ∧
  (∀ (s : State) (a : BitVec 6) (off : BitVec 20) (next : Word), s.alone →
    next = s.cur.base + BitVec.ofNat 64 (8 * s.cur.nwords) →
    exec (.call off) s = .next (s.transferred (s.cur.base + (off.signExtend 64 <<< 3))
      { s.me.r with plink := some (next ||| 1#64) } false) ∧
    ((s.val a).toNat % 8 = 0 →
      exec (.jmp a) s = .next (s.transferred (s.val a) s.me.r true) ∧
      exec (.calli a) s = .next (s.transferred (s.val a) { s.me.r with plink := some next } true)) ∧
    ((s.val a).toNat % 8 ≠ 0 → s.calm → s.cur.slotB = false → ∀ (c : WordCode), decodeWord s.cur.word = .ok c →
      (c.body = .one (.jmp a) → s.faulted { cause := 5, info := 3 } (exec (.jmp a) s)) ∧
      (c.body = .one (.calli a) → s.faulted { cause := 5, info := 3 } (exec (.calli a) s))))

/-- R94, R101, R102, R106: with a link pending and room in the file, `frame n` slides the window by n, takes the link into
the new frame's s31 and moves nothing in the physical file; with no link pending, or with n = 0, it traps. With a link
pending that the strand has left itself, every instruction of a word but `frame` ends in a control-flow fault, unless its privilege
check comes first, or waits for what its issue waits for; so none issues.
R103, R105, R106: the spills of `frame` take the oldest frames whole, as many as NRES + n ≤ 256 needs: each raises BSP by
8·(m+1) and lowers NRES by m, and its record is the frame's registers in order from where BSP stood and then a header with
0xA5 and the size; a spill that would move BSP above BSLIM is a backing-store overflow.
The model's own reading, and no rule's words: that a link which stood when a handler began asks nothing of the handler (log
8). -/
def Obligations.FrameOpensWindow : Prop :=
  (∀ (s : State) (n : BitVec 6) (link : Word), s.idleStrand →
    (s.me.r.plink = some link → 0 < n.toNat → s.me.r.nres + n.toNat ≤ 256 →
      exec (.frame n) s = .next (s.wrote { s.me.r with
        fb := (s.me.r.fb + n.toNat) % 256, fsz := n.toNat, nres := s.me.r.nres + n.toNat, plink := none
        sizes := Tab.put s.me.r.sizes (((s.me.r.fb + n.toNat) % 256 + 32 - n.toNat) % 256) n.toNat
        phys := Tab.set 0 s.me.r.phys (((s.me.r.fb + n.toNat) % 256 + 31) % 256) link })) ∧
    (s.calm → s.me.r.plink = none → exec (.frame n) s = s.trapped { cause := 5, info := 5 }) ∧
    (s.calm → s.me.r.plink = some link → exec (.frame 0#6) s = s.trapped { cause := 5, info := 6 }) ∧
    (s.calm → s.me.r.plink = some link → s.me.kept.headD false = false →
      (exec .nop s = s.trapped { cause := 5, info := 2, xinfo := s.me.xfer }) ∧
      ∀ i : Instr, (encode true true i).isSome = true ∨ (slotOf i).isSome = true → (∀ k, i ≠ .frame k) →
        exec i s = s.trapped { cause := 5, info := 2, xinfo := s.me.xfer } ∨
        (s.me.lvl ≠ .s ∧ exec i s = s.trapped { cause := 3, word := s.cur.idx, slotB := s.cur.slotB }) ∨
        ∃ u c, exec i s = .next u ∧ u.note = .wait c)) ∧
  (∀ (n : Nat) (r : Scalars) (fuel : Nat) (m : Nat), m = Tab.get 0 r.sizes r.lowest → m ≠ 0 → 256 < r.nres + n →
    (r.bslim.toNat < r.bsp.toNat + 8 * (m + 1) → Scalars.spill n (fuel + 1) r = .error { cause := 21 }) ∧
    (r.bsp.toNat + 8 * (m + 1) ≤ r.bslim.toNat → ∀ r2 recs, Scalars.spill n (fuel + 1) r = .ok (r2, recs) →
      ∃ r1 more, recs = (r.bsp, r.lowest, m) :: more ∧
        r1 = { r with bsp := r.bsp + BitVec.ofNat 64 (8 * (m + 1)), nres := r.nres - m, sizes := Tab.del r.sizes r.lowest } ∧
        Scalars.spill n fuel r1 = .ok (r2, more))) ∧
  (∀ (r : Scalars) (taken low m : Nat) (a : Word),
    ((r.cells taken (a, low, m)).map fun c => (c.addr, c.now r)) =
      ((List.range m).map fun i => (a + BitVec.ofNat 64 (8 * i), Tab.get 0 r.phys ((low + i) % 256))) ++
        [(a + BitVec.ofNat 64 (8 * m), BitVec.ofNat 64 (0xA500 + m))])

/-- R96, R107: `ret` whose caller's registers are resident goes to the link's address, where the landing check applies only
if D = 0, and slides the window back by FSZ with the physical file as it is.
R102, R106, R107: what `frame n` did to the window, the `ret` of that frame undoes: FB, FSZ, NRES and the frame sizes are
the caller's again, and so is every physical register but the one that held the callee's s31. -/
def Obligations.RetUndoesFrame : Prop :=
  (∀ (s : State) (k : Word), s.alone → k = s.val 31#6 → k.getLsbD 1 = false → k.getLsbD 2 = false → k.toNat / 8 ≠ 0 →
    s.me.r.fsz ≤ 32 → 32 + s.me.r.fsz ≤ s.me.r.nres →
    ∃ m, exec .ret s = .next (s.transferred (BitVec.ofNat 64 (8 * (k.toNat / 8))) { s.me.r with
      nres := s.me.r.nres - s.me.r.fsz, fb := (s.me.r.fb + 256 - s.me.r.fsz) % 256, fsz := m
      sizes := Tab.del s.me.r.sizes ((s.me.r.fb + 32 + 256 - s.me.r.fsz) % 256) } (!k.getLsbD 0))) ∧
  (∀ (s u : State) (n : BitVec 6) (link : Word), s.idleStrand → s.me.r.plink = some link → 0 < n.toNat → n.toNat ≤ 32 →
    s.me.r.fb < 256 → s.me.r.currentSize = s.me.r.fsz → 32 ≤ s.me.r.nres → s.me.r.nres + n.toNat ≤ 256 →
    Tab.wf 0 s.me.r.phys = true → Tab.rising s.me.r.sizes none = true →
    Tab.find s.me.r.sizes ((s.me.r.fb + 32) % 256) = none → link.getLsbD 1 = false → link.getLsbD 2 = false →
    link.toNat / 8 ≠ 0 →
    exec (.frame n) s = .next u → ∀ v : State, v.alone → v.me.r = u.me.r →
    exec .ret v = .next (v.transferred (BitVec.ofNat 64 (8 * (link.toNat / 8))) { s.me.r with
      plink := none, phys := Tab.set 0 s.me.r.phys ((s.me.r.fb + n.toNat + 31) % 256) link } (!link.getLsbD 0)))

/-- R98: `mwait` whose dword differs from the expected value gives it at once; where they are equal, the strand waits with
its monitor armed on the block, and no register is written, unless the device loses the monitor at once (log 11).
R52, R97, R261: hints and prefetches change nothing that a program sees. -/
def Obligations.WaitsAndHints : Prop :=
  (∀ (s : State) (d a b c : BitVec 6) (p : Place) (blk : Nat), s.alone → s.cur.slotB = false →
    (∃ e l, decodeWord s.cur.word = .ok ⟨e, l, .one (.mwait d a b c)⟩) →
    s.checkElt s.me s.cur.core .read .mwait (s.val a) 8 = .ok p → s.tideHeld s.me (s.val a) 8 = false →
    s.stalled p = false → s.poisoned p = false → p.block = some blk →
    (s.readNat p 8 ≠ (s.val b).toNat → exec (.mwait d a b c) s = .next (s.gave d (BitVec.ofNat 64 (s.readNat p 8)))) ∧
    (s.readNat p 8 = (s.val b).toNat →
      ∃ u, exec (.mwait d a b c) s = .next u ∧ u.note = .ok ∧ u.hbm = s.hbm ∧ u.pool = s.pool ∧ u.banks = s.banks ∧
        (Config.takes s.choice blk = true ∨
          (u.me.monitor = some (blk, s.cycle, false) ∧ u.me.r = s.me.r ∧ u.me.flight.length = 1)))) ∧
  (∀ (s : State) (fn d a b : BitVec 6) (v : VCtl) (rm : Rm) (x : BitVec 20) (disp : BitVec 9), s.alone →
    exec .nop s = .next s.passOn ∧ exec .yield_ s = .next s.passOn ∧ exec (.hintNop fn d a b v rm x) s = .next s.passOn ∧
    exec (.pf a disp) s = .next s.passOn ∧ exec (.pfW a disp) s = .next s.passOn)

/-! ### Special registers (06, R109–R112) -/

/-- R18, R19, R83 to R85, R101, R104, R109 to R112, R128 to R130, R181, R310, R311, R327, R332, R351, R363: what `mfs` reads of
each special register, at a level that may read it. -/
def Obligations.MfsReads : Prop :=
  ∀ (s : State) (d : BitVec 6) (k : Core) (t : Strand), s.alone → k = s.curCore → t = s.me →
    (exec (.mfs d 0x000#12) s = .next (s.gave d 0x01F3_0B03_0303_0121#64) ∧
    exec (.mfs d 0x001#12) s = .next (s.gave d (coreloc s.cur.core s.cur.slot)) ∧
    exec (.mfs d 0x002#12) s = .next (s.gave d (BitVec.ofNat 64 s.cycle)) ∧
    exec (.mfs d 0x010#12) s = .next (s.gave d (BitVec.ofNat 64 (t.r.fb + t.r.fsz * 2 ^ 8 + t.r.nres * 2 ^ 16))) ∧
    exec (.mfs d 0x018#12) s = .next (s.gave d t.r.fctl) ∧
    exec (.mfs d 0x030#12) s = .next (s.gave d (BitVec.ofNat 64 (k.gvl + k.pwr * 2 ^ 8 +
      (if k.holder = some s.cur.slot then k.width else 0) * 2 ^ 16))) ∧
    exec (.mfs d 0x050#12) s = .next (s.gave d k.expsplit) ∧ exec (.mfs d 0x051#12) s = .next (s.gave d k.otau) ∧
    exec (.mfs d 0x052#12) s = .next (s.gave d k.ofloor) ∧ exec (.mfs d 0x053#12) s = .next (s.gave d k.odepth)) ∧
    (s.holdsLanes = true → ∀ i < 8, exec (.mfs d (BitVec.ofNat 12 (0x040 + i))) s =
      .next (s.gave d (BitVec.ofNat 64 (Tab.get Tile.start k.tiles i).shape))) ∧
    (t.lvl ≠ .u →
    exec (.mfs d 0x011#12) s = .next (s.gave d t.r.bsp) ∧ exec (.mfs d 0x012#12) s = .next (s.gave d t.r.bslo) ∧
    exec (.mfs d 0x013#12) s = .next (s.gave d t.r.bslim) ∧
    exec (.mfs d 0x020#12) s = .next (s.gave d (if k.pol then 1 else 0)) ∧
    exec (.mfs d 0x021#12) s = .next (s.gave d (BitVec.ofNat 64 k.age)) ∧
    exec (.mfs d 0x022#12) s = .next (s.gave d (BitVec.ofNat 64 (s.slotst s.cur.core s.cur.slot))) ∧
    exec (.mfs d 0x031#12) s = .next (s.gave d (BitVec.ofNat 64 k.mvl)) ∧
    exec (.mfs d 0x032#12) s = .next (s.gave d (k.lmap.setWidth 64)) ∧
    exec (.mfs d 0x038#12) s = .next (s.gave d (BitVec.ofNat 64 (k.dmode + k.voted * 2 ^ 16 + k.unchk * 2 ^ 32))) ∧
    exec (.mfs d 0x060#12) s = .next (s.gave d t.xcause) ∧ exec (.mfs d 0x061#12) s = .next (s.gave d t.xel) ∧
    exec (.mfs d 0x062#12) s = .next (s.gave d t.xpc) ∧ exec (.mfs d 0x063#12) s = .next (s.gave d t.xaddr) ∧
    exec (.mfs d 0x064#12) s = .next (s.gave d t.xinfo) ∧ exec (.mfs d 0x065#12) s = .next (s.gave d t.xtf) ∧
    exec (.mfs d 0x066#12) s = .next (s.gave d k.xvec) ∧ exec (.mfs d 0x067#12) s = .next (s.gave d (BitVec.ofNat 64 t.xdepth)) ∧
    exec (.mfs d 0x068#12) s = .next (s.gave d s.xtfb) ∧ exec (.mfs d 0x069#12) s = .next (s.gave d s.efqb) ∧
    exec (.mfs d 0x06A#12) s = .next (s.gave d (BitVec.ofNat 64 (s.efqHead + s.efqTail * 2 ^ 32)))) ∧
    (t.lvl = .u → s.calm → ∀ num : BitVec 12, num ∈ [0x011#12, 0x012#12, 0x013#12, 0x020#12, 0x021#12, 0x022#12, 0x031#12,
      0x032#12, 0x038#12, 0x060#12, 0x061#12, 0x062#12, 0x063#12, 0x064#12, 0x065#12, 0x066#12, 0x067#12, 0x068#12, 0x069#12,
      0x06A#12] → exec (.mfs d num) s = s.trapped { cause := 3 })

/-- The same registers' rules: what `mts` leaves in each of them, with all it changes; a field that is read-only or reserved
keeps its value, and a value that the field does not take leaves it. A shape larger than the tile's storage is tile fault 8,
and a write to the shape of a tile that is FILLING or DRAINING waits (3).
The model's own reading, and no rule's words: when `mts` takes effect (log 5). -/
def Obligations.MtsWrites : Prop :=
  ∀ (s : State) (a : BitVec 6) (x : Word) (num : BitVec 12), s.alone → x = s.val a →
    (exec (.mts a 0x018#12) s = .next (s.wrote { s.me.r with
        fctl := (x &&& 0x1F00#64) ||| (if x.toNat % 8 < 6 then x &&& 7#64 else s.me.r.fctl &&& 7#64) }) ∧
    exec (.mts a 0x050#12) s = .next (if x.toNat % 32 ≤ 16 then
        (s.withCore fun k => { k with expsplit := x &&& 31#64 }).passOn else s.passOn) ∧
    exec (.mts a 0x051#12) s = .next (s.withCore fun k => { k with otau := x &&& 0xFFFFFFFF#64 }).passOn ∧
    exec (.mts a 0x052#12) s = .next (s.withCore fun k => { k with ofloor := x &&& 0xFFFFFFFF#64 }).passOn ∧
    exec (.mts a 0x053#12) s = .next (if x.toNat % 32 ≤ 16 then
        (s.withCore fun k => { k with odepth := x &&& 31#64 }).passOn else s.passOn) ∧
    (num ∈ [0x000#12, 0x001#12, 0x002#12, 0x010#12, 0x022#12, 0x030#12, 0x032#12, 0x060#12, 0x061#12, 0x062#12, 0x063#12,
      0x064#12, 0x067#12] → exec (.mts a num) s = .next s.passOn)) ∧
    (s.me.lvl ≠ .u →
    exec (.mts a 0x011#12) s = .next (s.wrote { s.me.r with bsp := x &&& ~~~7#64 }) ∧
    exec (.mts a 0x012#12) s = .next (s.wrote { s.me.r with bslo := x &&& ~~~7#64 }) ∧
    exec (.mts a 0x013#12) s = .next (s.wrote { s.me.r with bslim := x &&& ~~~7#64 }) ∧
    exec (.mts a 0x020#12) s = .next (s.withCore fun k => { k with pol := x.getLsbD 0 }).passOn ∧
    exec (.mts a 0x021#12) s = .next (s.withCore fun k => { k with age := max 16 (x.toNat % 65536) }).passOn ∧
    exec (.mts a 0x065#12) s = .next (if x.toNat % 2 ^ 20 = 0 then (s.setMe { s.me with xtf := x }).passOn else s.passOn) ∧
    exec (.mts a 0x066#12) s = .next (s.withCore fun k => { k with xvec := x }).passOn ∧
    exec (.mts a 0x068#12) s = .next ({ s with xtfb := x &&& ~~~0x3FFFFF#64 } : State).passOn ∧
    exec (.efqWrite a 0x069#12) s = .next (({ s with efqb := x &&& ~~~0xFFF#64 } : State).retryEngines).passOn ∧
    exec (.efqWrite a 0x06A#12) s = .next (({ s with efqTail := x.toNat / 2 ^ 32 % 65536 } : State).retryEngines).passOn ∧
    exec (.dlymodeClr a 0x038#12) s = .next (s.withCore fun k => { k with
        dmode := if x.toNat % 4 = 3 then k.dmode else x.toNat % 4
        unchk := if x.getLsbD 2 then 0 else k.unchk, voted := if x.getLsbD 2 then 0 else k.voted }).passOn ∧
    (x.toNat % 64 ≠ 8 → x.toNat % 64 ≠ 16 → x.toNat % 64 ≠ 32 → exec (.mvlWrite a 0x031#12) s = .next s.passOn) ∧
    (x.toNat % 64 = 8 ∨ x.toNat % 64 = 16 ∨ x.toNat % 64 = 32 → ∃ u, exec (.mvlWrite a 0x031#12) s = .next u ∧
      ∃ pwr, u = ({ s.withCore fun k => { k with mvl := x.toNat % 64, pwr := pwr } with agenda := u.agenda } : State).passOn ∧
        pwr = (if x.toNat % 64 < s.curCore.pwr ∧ s.curCore.width ≤ x.toNat % 64 then x.toNat % 64 else s.curCore.pwr) ∧
        u.agenda = s.agenda ++ List.replicate (x.toNat % 64 - pwr) (.lanePowerUp s.cur.core))) ∧
    (s.me.lvl = .u → s.calm → num ∈ [0x011#12, 0x012#12, 0x013#12, 0x020#12, 0x021#12, 0x065#12, 0x066#12, 0x068#12] →
      exec (.mts a num) s = s.trapped { cause := 3 } ∧ exec (.mvlWrite a 0x031#12) s = s.trapped { cause := 3 } ∧
      exec (.dlymodeClr a 0x038#12) s = s.trapped { cause := 3 } ∧ exec (.efqWrite a 0x069#12) s = s.trapped { cause := 3 }) ∧
    (s.holdsLanes = true → ∀ i < 8, ∀ t : Tile, t = Tab.get Tile.start s.curCore.tiles i →
      (t.st = .empty ∨ t.st = .ready → (x.toNat % 256 + 1) * (x.toNat / 256 % 512 + 1) * (4 * 2 ^ (x.toNat / 2 ^ 18 % 4)) ≤ 131072 →
      exec (.tshapeWrite a (BitVec.ofNat 12 (0x040 + i))) s = .next (s.withCore fun k => { k with
        tiles := Tab.set Tile.start k.tiles i { Tile.start with
          ew := x.toNat / 2 ^ 18 % 4, colsm1 := x.toNat / 256 % 512, rowsm1 := x.toNat % 256 } }).passOn)) ∧
    (s.holdsLanes = true → ∀ i < 8, ∀ t : Tile, t = Tab.get Tile.start s.curCore.tiles i →
      (t.st = .empty ∨ t.st = .ready → s.calm →
        131072 < (x.toNat % 256 + 1) * (x.toNat / 256 % 512 + 1) * (4 * 2 ^ (x.toNat / 2 ^ 18 % 4)) →
        exec (.tshapeWrite a (BitVec.ofNat 12 (0x040 + i))) s = s.trapped { cause := 15, info := 8 }) ∧
      (t.st = .filling ∨ t.st = .draining →
        exec (.tshapeWrite a (BitVec.ofNat 12 (0x040 + i))) s = .next ((s.setMe { s.me with wait := 3 }).setNote (.wait 3))))

/-! ### Vector instructions (07, 08) -/

/-- R125, R134, R135, R142, R143 and the compact slots of R44: the integer group fills its destination, element by element,
under the length, the mask and its policy, and changes nothing else; `tyPut` wraps, or clamps under `.sat`. -/
def Obligations.VectorIntegers : Prop :=
  (∀ (ty : Ty) (z : Int), tyPut ty false z = (z % 2 ^ ty.width).toNat ∧
    tyPut ty true z = (if ty.isSigned then (max (-2 ^ (ty.width - 1)) (min (2 ^ (ty.width - 1) - 1) z) % 2 ^ ty.width).toNat
      else (max 0 (min (2 ^ ty.width - 1) z)).toNat)) ∧
  (∀ (s : State) (v : VCtl) (d a b : BitVec 6) (ty : Ty) (sat : BitVec 1) (w : Nat) (x y : Nat → Nat) (p q : Nat → Int),
    w = ty.width → s.vready v w [(a, w), (b, w)] → s.settledV d w = true → d.toNat < 32 →
    (∀ i, x i = (s.lane a w i).num) → (∀ i, y i = (s.lane b w i).num) →
    (∀ i, p i = if ty.isSigned then (BitVec.ofNat w (x i)).toInt else (x i : Int)) →
    (∀ i, q i = if ty.isSigned then (BitVec.ofNat w (y i)).toInt else (y i : Int)) →
    s.fills (exec (.vadd v d a b ty sat) s) d w (s.into v d w fun i => tyPut ty (sat == 1) (p i + q i)) ∧
    s.fills (exec (.vsub v d a b ty sat) s) d w (s.into v d w fun i => tyPut ty (sat == 1) (p i - q i)) ∧
    s.fills (exec (.vmul v d a b ty sat) s) d w (s.into v d w fun i => tyPut ty (sat == 1) (p i * q i)) ∧
    s.fills (exec (.vmulh v d a b ty) s) d w (s.into v d w fun i => (p i * q i / 2 ^ w % 2 ^ w).toNat) ∧
    s.fills (exec (.vmin v d a b ty) s) d w (s.into v d w fun i => if p i ≤ q i then x i else y i) ∧
    s.fills (exec (.vmax v d a b ty) s) d w (s.into v d w fun i => if q i ≤ p i then x i else y i) ∧
    s.fills (exec (.vand v d a b ty) s) d w (s.into v d w fun i => x i &&& y i) ∧
    s.fills (exec (.vor v d a b ty) s) d w (s.into v d w fun i => x i ||| y i) ∧
    s.fills (exec (.vxor v d a b ty) s) d w (s.into v d w fun i => x i ^^^ y i) ∧
    s.fills (exec (.vshl v d a b ty) s) d w (s.into v d w fun i => x i * 2 ^ (y i % w)) ∧
    s.fills (exec (.vshr v d a b ty) s) d w (s.into v d w fun i => x i / 2 ^ (y i % w)) ∧
    s.fills (exec (.vsra v d a b ty) s) d w (s.into v d w fun i =>
      ((BitVec.ofNat w (x i)).sshiftRight (y i % w)).toNat)) ∧
  (∀ (s : State) (d : BitVec 5) (o : CArg) (dst : BitVec 6) (x y : Nat → Nat) (p q : Nat → Int) (act : (Nat → Nat) → Nat → Elt),
    dst = d.setWidth 6 → s.vready ⟨0, 0, 0⟩ 32 [(dst, 32)] → s.settledV dst 32 = true →
    (∀ a, o = .reg a → s.fullTo (a.setWidth 6) 32 (s.len 0) = true) →
    (∀ i, x i = (s.lane dst 32 i).num) →
    (∀ i, y i = match o with | .reg a => (s.lane (a.setWidth 6) 32 i).num | .imm k => (k.signExtend 32).toNat) →
    (∀ i, p i = (BitVec.ofNat 32 (x i)).toInt) → (∀ i, q i = (BitVec.ofNat 32 (y i)).toInt) →
    (∀ f, act f = s.into ⟨0, 0, 0⟩ dst 32 f) →
    s.fills (exec (.vaddC d o) s) dst 32 (act fun i => x i + y i) ∧
    s.fills (exec (.vsubC d o) s) dst 32 (act fun i => x i + (2 ^ 32 - y i)) ∧
    s.fills (exec (.vmulC d o) s) dst 32 (act fun i => x i * y i) ∧
    s.fills (exec (.vandC d o) s) dst 32 (act fun i => x i &&& y i) ∧
    s.fills (exec (.vorC d o) s) dst 32 (act fun i => x i ||| y i) ∧
    s.fills (exec (.vxorC d o) s) dst 32 (act fun i => x i ^^^ y i) ∧
    s.fills (exec (.vshlC d o) s) dst 32 (act fun i => x i * 2 ^ (y i % 32)) ∧
    s.fills (exec (.vshrC d o) s) dst 32 (act fun i => x i / 2 ^ (y i % 32)) ∧
    s.fills (exec (.vsraC d o) s) dst 32 (act fun i => ((BitVec.ofNat 32 (x i)).sshiftRight (y i % 32)).toNat) ∧
    s.fills (exec (.vminC d o) s) dst 32 (act fun i => if p i ≤ q i then x i else y i) ∧
    s.fills (exec (.vmaxC d o) s) dst 32 (act fun i => if q i ≤ p i then x i else y i))

/-- R144, R148, R151: comparisons write one bit per element into a mask under the length, the mask and its policy; mask
operations write the bits below the length; `qpopc` counts the set bits and `qfirst` finds the lowest, or gives 2^64 − 1. -/
def Obligations.ComparisonsAndMasks : Prop :=
  (∀ (s : State) (v : VCtl) (d a b : BitVec 6) (ty : Ty) (w : Nat) (x y : Nat → Nat) (p q : Nat → Int),
    w = ty.width → s.vready v w [(a, w), (b, w)] → s.settledQ d = true →
    (∀ i, x i = (s.lane a w i).num) → (∀ i, y i = (s.lane b w i).num) →
    (∀ i, p i = if ty.isSigned then (BitVec.ofNat w (x i)).toInt else (x i : Int)) →
    (∀ i, q i = if ty.isSigned then (BitVec.ofNat w (y i)).toInt else (y i : Int)) →
    s.marks (exec (.vcmpEq v d a b ty) s) d (s.intoQ v d fun i => x i == y i) ∧
    s.marks (exec (.vcmpNe v d a b ty) s) d (s.intoQ v d fun i => x i != y i) ∧
    s.marks (exec (.vcmpLt v d a b ty) s) d (s.intoQ v d fun i => decide (p i < q i)) ∧
    s.marks (exec (.vcmpLe v d a b ty) s) d (s.intoQ v d fun i => decide (p i ≤ q i)) ∧
    s.marks (exec (.vfcmpEq v d a b ty) s) d (s.intoQ v d fun i => FVal.cmp (tyVal ty (x i)) (tyVal ty (y i)) == some .eq) ∧
    s.marks (exec (.vfcmpLt v d a b ty) s) d (s.intoQ v d fun i => FVal.cmp (tyVal ty (x i)) (tyVal ty (y i)) == some .lt) ∧
    s.marks (exec (.vfcmpLe v d a b ty) s) d (s.intoQ v d fun i => FVal.cmp (tyVal ty (x i)) (tyVal ty (y i)) == some .lt ||
      FVal.cmp (tyVal ty (x i)) (tyVal ty (y i)) == some .eq) ∧
    s.marks (exec (.vfcmpUn v d a b ty) s) d (s.intoQ v d fun i => FVal.cmp (tyVal ty (x i)) (tyVal ty (y i)) == none)) ∧
  (∀ (s : State) (v : VCtl) (d a b : BitVec 6) (n : Nat) (x y : Nat → Nat) (put : (Nat → Nat) → Nat → Elt),
    n = s.len v.ls → s.vready v 8 [] → s.settledQ d = true → s.maskTo a.toNat n = true → s.maskTo b.toNat n = true →
    (∀ i, x i = (s.maskAt a.toNat i).num) → (∀ i, y i = (s.maskAt b.toNat i).num) →
    (∀ f i, put f i = if n ≤ i then (Tab.get QReg.zero s.curCore.q d.toNat).get i else .full (f i)) →
    s.marks (exec (.qand v d a b) s) d (put fun i => x i &&& y i) ∧
    s.marks (exec (.qor v d a b) s) d (put fun i => x i ||| y i) ∧
    s.marks (exec (.qxor v d a b) s) d (put fun i => x i ^^^ y i) ∧
    s.marks (exec (.qnot v d a) s) d (put fun i => 1 - x i) ∧
    exec (.qpopc v d a) s = .next (s.gave d (BitVec.ofNat 64 ((List.range n).countP fun i => x i == 1))) ∧
    exec (.qfirst v d a) s = .next (s.gave d (match (List.range n).find? fun i => x i == 1 with
      | some i => BitVec.ofNat 64 i
      | none => BitVec.ofInt 64 (-1))))

/-- R146, R147: moves, selects and permutes; `j` is the value of a scalar operand, and the selector forms write every
element below the length. -/
def Obligations.VectorMoves : Prop :=
  ∀ (s : State) (v : VCtl) (d a b c : BitVec 6) (ty : Ty) (w n j : Nat) (x y : Nat → Nat) (m : Nat → Bool) (old : Nat → Elt),
    w = ty.width → n = s.len v.ls → s.vready v w [(a, w), (b, w), (d, w)] → s.settledV d w = true → d.toNat < 32 →
    (∀ i, x i = (s.lane a w i).num) → (∀ i, y i = (s.lane b w i).num) → (∀ i, m i = decide ((s.maskAt v.q.toNat i).num ≠ 0)) →
    (∀ i, old i = s.lane d w i) → j = (s.val c).toNat →
    s.fills (exec (.vmov v d a ty) s) d w (s.into v d w x) ∧
    s.fills (exec (.vid v d ty) s) d w (s.into v d w id) ∧
    s.fills (exec (.vsel v d a b ty) s) d w (fun i => if n ≤ i then old i else .full (if m i then x i else y i)) ∧
    s.fills (exec (.vdup v d a c ty) s) d w (s.into v d w fun _ => if j < n then x j else 0) ∧
    s.fills (exec (.vperm v d a b ty) s) d w (s.into v d w fun i => if y i < n then x (y i) else 0) ∧
    s.fills (exec (.vslup v d a c ty) s) d w (s.into v d w fun i => if j ≤ i then x (i - j) else (old i).num) ∧
    s.fills (exec (.vsldn v d a c ty) s) d w (s.into v d w fun i => if i + j < n then x (i + j) else 0) ∧
    s.fills (exec (.vcmprs v d a ty) s) d w (fun i => if n ≤ i then old i else
      .full (match ((List.range n).filter m)[i]? with
        | some k => x k
        | none => 0)) ∧
    s.fills (exec (.vexpnd v d a ty) s) d w (s.into v d w fun i => x ((List.range i).countP m))

/-- R145, R149, R150: widening arithmetic, bitmap words and conflict detection. `wide` is the width of the destination of a
widening form, whose floating forms round once to binary32. -/
def Obligations.WideningBitmapsConflicts : Prop :=
  (∀ (s : State) (v : VCtl) (d a b c : BitVec 6) (rm : Rm) (ty : Ty) (sat : BitVec 1) (wf : BitVec 2) (w wide : Nat) (m : Mode)
    (x y z : Nat → Nat) (p q r : Nat → Int),
    w = ty.width → wide = 2 ^ wf.toNat * w → wf = 1#2 ∨ wf = 2#2 → m = modeOf rm s.me.r.fctl →
    s.vready v wide [(a, w), (b, w), (c, wide)] → s.settledV d wide = true → d.toNat < 32 →
    (∀ i, x i = (s.lane a w i).num) → (∀ i, y i = (s.lane b w i).num) → (∀ i, z i = (s.lane c wide i).num) →
    (∀ i, p i = if ty.isSigned then (BitVec.ofNat w (x i)).toInt else (x i : Int)) →
    (∀ i, q i = if ty.isSigned then (BitVec.ofNat w (y i)).toInt else (y i : Int)) →
    (∀ i, r i = if ty.isSigned then (BitVec.ofNat wide (z i)).toInt else (z i : Int)) →
    (ty.isInt = true →
      s.fills (exec (.vwadd v d a b rm ty wf) s) d wide (s.into v d wide fun i => ((p i + q i) % 2 ^ wide).toNat) ∧
      s.fills (exec (.vwmul v d a b rm ty wf) s) d wide (s.into v d wide fun i => ((p i * q i) % 2 ^ wide).toNat) ∧
      s.fills (exec (.vwmac v d a b rm c ty sat wf) s) d wide (s.into v d wide fun i =>
        intoInt wide ty.isSigned (sat == 1) (p i * q i + r i))) ∧
    (ty.isInt = false →
      s.fills (exec (.vwadd v d a b rm ty wf) s) d wide (s.into v d wide fun i =>
        (f32.round m false (FVal.add (m == .rdn) (tyVal ty (x i)) (tyVal ty (y i)))).code) ∧
      s.fills (exec (.vwmul v d a b rm ty wf) s) d wide (s.into v d wide fun i =>
        (f32.round m false (FVal.mul (tyVal ty (x i)) (tyVal ty (y i)))).code) ∧
      s.fills (exec (.vwmac v d a b rm c ty sat wf) s) d wide (s.into v d wide fun i =>
        (f32.round m false (FVal.add (m == .rdn) (FVal.mul (tyVal ty (x i)) (tyVal ty (y i))) (f32.value (z i)))).code))) ∧
  (∀ (s : State) (v : VCtl) (d a b : BitVec 6) (ty : Ty) (qe : BitVec 3) (w n : Nat) (x y lead : Nat → Nat) (m : Nat → Bool)
    (bits : Nat → Nat),
    w = ty.width → n = s.len v.ls → s.vready v w [(a, w), (b, w)] → s.settledV d w = true → d.toNat < 32 →
    (∀ i, x i = (s.lane a w i).num) → (∀ i, y i = (s.lane b w i).num) → (∀ i, m i = decide ((s.maskAt v.q.toNat i).num ≠ 0)) →
    (∀ k, bits k = (List.range w).countP fun i => k.testBit i) →
    (∀ i, lead i = ((List.range i).find? fun j => m j && x j == x i).getD i) →
    s.fills (exec (.vbmand v d a b ty) s) d w (s.into v d w fun i => bits (x i &&& y i)) ∧
    s.fills (exec (.vbpfx v d a ty) s) d w (s.into v d w fun i => (((List.range i).filter m).map fun j => bits (x j)).sum) ∧
    s.fills (exec (.vxsect v d a b ty) s) d w (s.into v d w fun i =>
      ((List.range n).find? fun j => y j == x i).getD (2 ^ w - 1)) ∧
    s.fills (exec (.vconf v d a ty 0#3) s) d w (s.into v d w lead) ∧
    (qe ≠ 0#3 → s.settledQ (qe.setWidth 6) = true → ∃ (r : VReg) (q : QReg) (u : State),
      exec (.vconf v d a ty qe) s = .next (u.withCore fun k => { k with
        v := Tab.set VReg.zero k.v d.toNat r, q := Tab.set QReg.zero k.q qe.toNat q }).passOn ∧
      s.recorded u (s.poisonV d w || s.poisonQ (qe.setWidth 6)) ∧
      (∀ i < 16384 / w, r.get w i = s.into v d w lead i) ∧
      ∀ i < 2048, q.get i = if n ≤ i then (Tab.get QReg.zero s.curCore.q qe.toNat).get i
        else .full (if m i && lead i == i then 1 else 0)))

/-- R151 and the floating compact slots of R44: each result is the exact one rounded once to its type under the rounding
mode; minima and maxima take the other operand of a NaN and order −0 below +0. The exact reciprocal root is what 1 over its
square says, and stands, where it is not a value of more than 70 bits, as the odd one between its two even neighbours. The
power of two of an integer is exact; else it stands closer to the real power than 2^-200 of it; near 0 and far from 0 it
stands so that it rounds, and overflows, as the real power does (log 150). -/
def Obligations.VectorFloats : Prop :=
  Combining ∧
  (∀ (u : Bool) (e : Int), rsqrtVal .nan = .nan ∧ rsqrtVal (.inf u) = (if u then .nan else .num false 0 0) ∧
    rsqrtVal (.num u 0 e) = .inf u ∧ exp2Val .nan = .nan ∧ exp2Val (.inf u) = (if u then .num false 0 0 else .inf false) ∧
    exp2Val (.num u 0 e) = .num false 1 0 ∧ ∀ n, 0 < n → rsqrtVal (.num true n e) = .nan) ∧
  (∀ (n : Nat) (e : Int) (v : Rat), 0 < n → v = n * (2 : Rat) ^ e → ∃ g h, rsqrtVal (.num false n e) = .num false g h ∧ 2 ^ 70 ≤ g ∧
    (g % 2 = 0 → (g * (2 : Rat) ^ h) ^ 2 * v = 1) ∧
    (g % 2 = 1 → ((g - 1 : Nat) * (2 : Rat) ^ h) ^ 2 * v < 1 ∧ 1 < ((g + 1 : Nat) * (2 : Rat) ^ h) ^ 2 * v)) ∧
  (∀ (u : Bool) (n : Nat) (e : Int) (x : ℝ), 0 < n → n < 2 ^ 24 → x = (if u then -(n : ℝ) else n) * (2 : ℝ) ^ e →
    ∃ g h, exp2Val (.num u n e) = .num false g h ∧ ∀ y : ℝ, y = g * (2 : ℝ) ^ h →
      (4096 ≤ |x| → y = (2 : ℝ) ^ (if u then -4096 else 4096 : Int)) ∧
      (|x| < (2 : ℝ) ^ (-40 : Int) → (if u then y < 1 else 1 < y) ∧ |y - 1| < (2 : ℝ) ^ (-40 : Int)) ∧
      ((2 : ℝ) ^ (-40 : Int) ≤ |x| → |x| < 4096 → (∀ i : Int, x = i → y = (2 : ℝ) ^ i) ∧
        |y - (2 : ℝ) ^ x| ≤ (2 : ℝ) ^ x * (2 : ℝ) ^ (-200 : Int))) ∧
  (∀ (s : State) (v : VCtl) (d a b c : BitVec 6) (rm : Rm) (ty : Ty) (w : Nat) (m : Mode) (x y z : Nat → FVal)
    (put : FVal → Nat),
    w = ty.width → ty.isF3 = true → m = modeOf rm s.me.r.fctl →
    s.vready v w [(a, w), (b, w), (c, w)] → s.settledV d w = true → d.toNat < 32 →
    (∀ i, x i = tyVal ty (s.lane a w i).num) → (∀ i, y i = tyVal ty (s.lane b w i).num) →
    (∀ i, z i = tyVal ty (s.lane c w i).num) → (∀ t, put t = ((tyFmt ty).round m false t).code) →
    s.fills (exec (.vfadd v d a b rm ty) s) d w (s.into v d w fun i => put (FVal.add (m == .rdn) (x i) (y i))) ∧
    s.fills (exec (.vfsub v d a b rm ty) s) d w (s.into v d w fun i => put (FVal.add (m == .rdn) (x i) (y i).neg)) ∧
    s.fills (exec (.vfmul v d a b rm ty) s) d w (s.into v d w fun i => put (FVal.mul (x i) (y i))) ∧
    s.fills (exec (.vfdiv v d a b rm ty) s) d w (s.into v d w fun i => put (FVal.div (x i) (y i))) ∧
    s.fills (exec (.vfma v d a b rm c ty) s) d w (s.into v d w fun i => put (FVal.add (m == .rdn) (FVal.mul (x i) (y i)) (z i))) ∧
    s.fills (exec (.vfms v d a b rm c ty) s) d w (s.into v d w fun i =>
      put (FVal.add (m == .rdn) (FVal.mul (x i) (y i)) (z i).neg)) ∧
    s.fills (exec (.vfnma v d a b rm c ty) s) d w (s.into v d w fun i =>
      put (FVal.add (m == .rdn) (FVal.mul (x i) (y i)).neg (z i))) ∧
    s.fills (exec (.vfsqrt v d a rm ty) s) d w (s.into v d w fun i => put (FVal.sqrt (x i))) ∧
    s.fills (exec (.vrcp v d a rm ty) s) d w (s.into v d w fun i => put (FVal.div (.num false 1 0) (x i))) ∧
    s.fills (exec (.vrsqrt v d a rm ty) s) d w (s.into v d w fun i => put (rsqrtVal (x i))) ∧
    s.fills (exec (.vexp2 v d a rm ty) s) d w (s.into v d w fun i => put (exp2Val (x i))) ∧
    s.fills (exec (.vfmin v d a b ty) s) d w (s.into v d w fun i => if x i = .nan ∧ y i = .nan then (tyFmt ty).nanCode
      else if x i = .nan then (s.lane b w i).num else if y i = .nan then (s.lane a w i).num
      else if fePrec (y i) (x i) then (s.lane b w i).num else (s.lane a w i).num) ∧
    s.fills (exec (.vfmax v d a b ty) s) d w (s.into v d w fun i => if x i = .nan ∧ y i = .nan then (tyFmt ty).nanCode
      else if x i = .nan then (s.lane b w i).num else if y i = .nan then (s.lane a w i).num
      else if fePrec (x i) (y i) then (s.lane b w i).num else (s.lane a w i).num)) ∧
  (∀ (s : State) (d : BitVec 5) (o : CArg) (dst : BitVec 6) (cx cy : Nat → Nat) (x y : Nat → FVal) (put : FVal → Nat)
    (act : (Nat → Nat) → Nat → Elt),
    dst = d.setWidth 6 → s.vready ⟨0, 0, 0⟩ 32 [(dst, 32)] → s.settledV dst 32 = true →
    (∀ a, o = .reg a → s.fullTo (a.setWidth 6) 32 (s.len 0) = true) →
    (∀ i, cx i = (s.lane dst 32 i).num) →
    (∀ i, cy i = match o with | .reg a => (s.lane (a.setWidth 6) 32 i).num | .imm k => (k.signExtend 32).toNat) →
    (∀ i, x i = f32.value (cx i)) → (∀ i, y i = f32.value (cy i)) → (∀ t, put t = (f32.round .rne false t).code) →
    (∀ f, act f = s.into ⟨0, 0, 0⟩ dst 32 f) →
    s.fills (exec (.vfaddC d o) s) dst 32 (act fun i => put (FVal.add false (x i) (y i))) ∧
    s.fills (exec (.vfsubC d o) s) dst 32 (act fun i => put (FVal.add false (x i) (y i).neg)) ∧
    s.fills (exec (.vfmulC d o) s) dst 32 (act fun i => put (FVal.mul (x i) (y i))) ∧
    s.fills (exec (.vfminC d o) s) dst 32 (act fun i => if x i = .nan ∧ y i = .nan then 0x7FC00000
      else if x i = .nan then cy i else if y i = .nan then cx i else if fePrec (y i) (x i) then cy i else cx i) ∧
    s.fills (exec (.vfmaxC d o) s) dst 32 (act fun i => if x i = .nan ∧ y i = .nan then 0x7FC00000
      else if x i = .nan then cy i else if y i = .nan then cx i else if fePrec (x i) (y i) then cy i else cx i))

/-- R152, R153: ordered reductions combine the active elements in ascending order from element 0 of the second source, tree
reductions combine neighbours first, both into element 0 alone; scans give every active element its running value. The tree
of 2^k elements and of no more after them is its left half's result and its right half's combined, an inactive half passed
over: so neighbours are paired round by round and an odd one is carried. -/
def Obligations.ReductionsAndScans : Prop :=
  Combining ∧
  (∀ (f : Nat → Nat → Nat) (l r : List (Option Nat)) (x : Option Nat) (k : Nat),
    treeFold f 12 [] = none ∧ treeFold f 12 [x] = x ∧
    (k < 12 → l.length = 2 ^ k → 0 < r.length → r.length ≤ 2 ^ k →
      treeFold f 12 (l ++ r) = match treeFold f 12 l, treeFold f 12 r with
        | some a, some b => some (f a b)
        | some a, none => some a
        | none, b => b)) ∧
  ∀ (s : State) (v : VCtl) (d a b : BitVec 6) (rm : Rm) (ty : Ty) (sat : BitVec 1) (w n y : Nat) (md : Mode)
    (x : Nat → Nat) (m : Nat → Bool) (add mn mx : Nat → Nat → Nat)
    (ord tree : (Nat → Nat → Nat) → Nat → Elt) (scan : (Nat → Nat → Nat) → Nat → Elt),
    w = ty.width → n = s.len v.ls → s.vready v w [(a, w)] → s.settledV d w = true → d.toNat < 32 →
    s.lane b w 0 = .full y → md = modeOf rm s.me.r.fctl →
    (∀ i, x i = (s.lane a w i).num) → (∀ i, m i = decide ((s.maskAt v.q.toNat i).num ≠ 0)) →
    (∀ p q, add p q = if ty.isInt then intAdd ty (sat == 1) p q else feAdd ty md p q) →
    (∀ p q, mn p q = if ty.isInt then intMin ty p q else feMin ty p q) →
    (∀ p q, mx p q = if ty.isInt then intMax ty p q else feMax ty p q) →
    (∀ f i, ord f i = if i = 0 then .full ((((List.range n).filter m).map x).foldl f y % 2 ^ w) else s.lane d w i) →
    (∀ f i, tree f i = if i = 0 then .full ((match treeFold f 12 ((List.range n).map fun k => if m k then some (x k) else none) with
      | some t => f y t
      | none => y) % 2 ^ w) else s.lane d w i) →
    (∀ f, scan f = s.into v d w fun i => ((((List.range (i + 1)).filter m).map x).foldl f y)) →
    s.fills (exec (.vredoAdd v d a b rm ty sat) s) d w (ord add) ∧
    s.fills (exec (.vredoAnd v d a b ty) s) d w (ord fun p q => p &&& q) ∧
    s.fills (exec (.vredoOr v d a b ty) s) d w (ord fun p q => p ||| q) ∧
    s.fills (exec (.vredoXor v d a b ty) s) d w (ord fun p q => p ^^^ q) ∧
    s.fills (exec (.vredoMin v d a b ty) s) d w (ord mn) ∧ s.fills (exec (.vredoMax v d a b ty) s) d w (ord mx) ∧
    s.fills (exec (.vredtAdd v d a b rm ty sat) s) d w (tree add) ∧
    s.fills (exec (.vredtAnd v d a b ty) s) d w (tree fun p q => p &&& q) ∧
    s.fills (exec (.vredtOr v d a b ty) s) d w (tree fun p q => p ||| q) ∧
    s.fills (exec (.vredtXor v d a b ty) s) d w (tree fun p q => p ^^^ q) ∧
    s.fills (exec (.vredtMin v d a b ty) s) d w (tree mn) ∧ s.fills (exec (.vredtMax v d a b ty) s) d w (tree mx) ∧
    s.fills (exec (.vscanAdd v d a b rm ty sat) s) d w (scan add) ∧
    s.fills (exec (.vscanAnd v d a b ty) s) d w (scan fun p q => p &&& q) ∧
    s.fills (exec (.vscanOr v d a b ty) s) d w (scan fun p q => p ||| q) ∧
    s.fills (exec (.vscanXor v d a b ty) s) d w (scan fun p q => p ^^^ q) ∧
    s.fills (exec (.vscanMin v d a b ty) s) d w (scan mn) ∧ s.fills (exec (.vscanMax v d a b ty) s) d w (scan mx)

/-- R157, R158, R176 to R179: the conversions under a format code `fc`, whose format is `fm` and which is checked; `f` is
what each active element converts to. Packing puts the codes together least significant first; `vquant` gives each block
of 32 the scale that R179 states.
R154 to R161: what a code of each named or valid record format decodes to, where it is not reserved, and that bits above its
width do not matter; which record images are valid; what the images of the named narrow formats and R162's example hold.
R156: e8m0's codes, and what converts into it up to 2^127 (above, R156 leaves the result open: log 123). R161, R164, R165: a
conversion decodes, then encodes; reserved codes and reserved results trap with their direction; floating values round to
integers and saturate, and integers wrap or saturate into integers.
The model's own reading, and no rule's words: the scale of a block of no active element (log 144). -/
def Obligations.Conversions : Prop :=
  ∀ (s : State) (v : VCtl) (d a b fc : BitVec 6) (rm : Rm) (ty : Ty) (sat : BitVec 1) (w fw n : Nat) (fm : Fmt) (md : Mode)
    (m : Nat → Bool) (f : Nat → Nat),
    w = ty.width → fw = fcWidth fc → n = s.len v.ls → md = modeOf rm s.me.r.fctl → d.toNat < 32 → b.toNat < 32 →
    fm = fmtOfCode fc.toNat (Tab.get 0 s.me.fmt (fc.toNat - 32)) →
    (32 ≤ fc.toNat → Tab.get 0 s.me.fmt (fc.toNat - 32) ≠ 0 ∧ recordOk (Tab.get 0 s.me.fmt (fc.toNat - 32)) = true) →
    (∀ i, m i = decide ((s.maskAt v.q.toNat i).num ≠ 0)) →
    (s.vready v (max w fw) [(a, w)] → s.settledV d fw = true →
      (∀ i < n, m i = true → convert (fmtOfTy ty) fm md (sat == 1) (s.lane a w i).num = .val (f i)) →
      s.fills (exec (.vcvtTo v d a rm ty sat fc) s) d fw (s.into v d fw f)) ∧
    (s.vready v (max w fw) [(a, fw)] → s.settledV d w = true →
      (∀ i < n, m i = true → convert fm (fmtOfTy ty) md (sat == 1) (s.lane a fw i).num = .val (f i)) →
      s.fills (exec (.vcvtFrom v d a rm ty sat fc) s) d w (s.into v d w f)) ∧
    (s.vready v w [(a, 8)] → s.settledV d w = true → s.fullTo b 8 ((n + 31) / 32) = true →
      (∀ i < n, m i = true → if (s.lane b 8 (i / 32)).num = 255 then f i = (tyFmt ty).nanCode
        else ∃ y, fm.decode (s.lane a 8 i).num = some y ∧
          (fmtOfTy ty).encode md (sat == 1) (y.scale ((s.lane b 8 (i / 32)).num - 127)) = some (f i)) →
      s.fills (exec (.vscl v d a b rm ty sat fc) s) d w (s.into v d w f)) ∧
    (s.vready v 8 [(a, 8)] → s.settledV d 8 = true → 0 < fm.width → fm.width ≤ 8 →
      s.fills (exec (.vpack v d a ty fc) s) d 8 (fun j => if n ≤ j then s.lane d 8 j else .full
        (((List.range n).map fun i => (s.lane a 8 i).num % 2 ^ fm.width * 2 ^ (fm.width * i)).sum / 2 ^ (8 * j) % 256)) ∧
      s.fills (exec (.vunpk v d a ty fc) s) d 8 (fun i => if n ≤ i then s.lane d 8 i else .full
        (((List.range n).map fun j => (s.lane a 8 j).num * 2 ^ (8 * j)).sum / 2 ^ (fm.width * i) % 2 ^ fm.width))) ∧
    (s.vready v w [(a, w)] → s.settledV d 8 = true → s.settledV b 8 = true → d ≠ b →
      ∀ (vals : Nat → List FVal) (k : Nat → Option Int),
      (∀ j, vals j = (((List.range n).filter fun i => m i && i / 32 == j).map fun i => tyVal ty (s.lane a w i).num)) →
      (∀ j, k j = if (vals j).any (fun t => match t with | .num _ _ _ => false | _ => true) then none
        else some (let t := (vals j).foldl (fun t u => maxMag t u.abs) (.num false 0 0)
          if t.isZero then -127 else max (-127) (min 127 (t.log2 - fm.emax)))) →
      (∀ i < n, m i = true → match k (i / 32) with
        | none => f i = 0
        | some e => fm.encode md true ((tyVal ty (s.lane a w i).num).scale (-e)) = some (f i)) →
      ∃ (r q : VReg) (u : State), s.recorded u (s.poisonV d 8 || s.poisonV b 8) ∧
        exec (.vquant v d a b rm ty fc) s = .next (u.withCore fun c => { c with
          v := Tab.set VReg.zero (Tab.set VReg.zero c.v (min d.toNat b.toNat) (if d.toNat < b.toNat then r else q))
            (max d.toNat b.toNat) (if d.toNat < b.toNat then q else r) }).passOn ∧
        (∀ i < 2048, r.get 8 i = s.into v d 8 f i) ∧
        ∀ j < 2048, q.get 8 j = if (n + 31) / 32 ≤ j then s.lane b 8 j else .full (match k j with
          | none => 255
          | some e => (e + 127).toNat)) ∧
    (∀ (g : FFmt) (u E M j c : Nat), ((∃ t, fmtOfTy t = .flt g) ∨ ∃ r, recordOk r = true ∧ g = fmtOfRecord r) →
      u ≤ g.s → E < 2 ^ g.e → M < 2 ^ g.m → c = u * 2 ^ (g.e + g.m) + E * 2 ^ g.m + M →
      (Fmt.flt g).decode (c + j * 2 ^ (Fmt.flt g).width) = (if c ∈ g.rc then none else some (g.value c)) ∧
      (g.spec = 1 → E = 2 ^ g.e - 1 → g.value c = if M = 0 then .inf (u == 1) else .nan) ∧
      (g.spec = 2 → E = 2 ^ g.e - 1 → M = 2 ^ g.m - 1 → g.value c = .nan) ∧
      ((g.spec = 1 → E ≠ 2 ^ g.e - 1) → (g.spec = 2 → E = 2 ^ g.e - 1 → M ≠ 2 ^ g.m - 1) →
        ∃ x y, g.value c = .num (u == 1) x y ∧ x * (2 : Rat) ^ y =
          if E = 0 then (2 : Rat) ^ (1 - g.bias) * M / 2 ^ g.m else (2 : Rat) ^ ((E : Int) - g.bias) * (1 + M / 2 ^ g.m)) ∧
      (Fmt.flt g).encode md (sat == 1) (g.value c) = if (g.round md (sat == 1) (g.value c)).code ∈ g.rc then none
        else some (g.round md (sat == 1) (g.value c)).code) ∧
    (∀ r : Word, let g := fmtOfRecord r
      g.s = (r.extractLsb' 0 1).toNat ∧ g.e = (r.extractLsb' 1 3).toNat ∧ g.m = (r.extractLsb' 4 3).toNat ∧
      g.bias = (r.extractLsb' 7 7).toInt ∧ g.spec = (r.extractLsb' 14 2).toNat ∧
      (∀ k, k ∈ g.rc ↔ r.getLsbD 32 = true ∧ k = (r.extractLsb' 16 8).toNat ∨ r.getLsbD 33 = true ∧ k = (r.extractLsb' 24 8).toNat) ∧
      (recordOk r = true ↔ 2 ≤ g.s + g.e + g.m ∧ g.s + g.e + g.m ≤ 8 ∧ g.spec ≤ 2 ∧ (g.spec = 1 → 2 ≤ g.e ∧ 1 ≤ g.m) ∧
        (∀ k ∈ g.rc, k < 2 ^ (g.s + g.e + g.m)) ∧ r >>> 34 = 0)) ∧
    fmtOfTy .e5m2 = .flt ⟨1, 5, 2, 15, 1, []⟩ ∧ fmtOfTy .e4m3 = .flt ⟨1, 4, 3, 7, 2, []⟩ ∧ fmtOfTy .e3m2 = .flt ⟨1, 3, 2, 3, 0, []⟩ ∧
    fmtOfTy .e2m3 = .flt ⟨1, 2, 3, 1, 0, []⟩ ∧ fmtOfTy .e2m1 = .flt ⟨1, 2, 1, 1, 0, []⟩ ∧
    fmtOfTy .f16 = .flt ⟨1, 5, 10, 15, 1, []⟩ ∧ fmtOfTy .bf16 = .flt ⟨1, 8, 7, 127, 1, []⟩ ∧ fmtOfTy .f32 = .flt ⟨1, 8, 23, 127, 1, []⟩ ∧
    fmtOfRecord 0x00000001002001A7#64 = ⟨1, 3, 2, 3, 0, [0x20]⟩ ∧
    (∀ (x k : Nat) (y : Int), Fmt.e8m0.decode x = some (if x % 256 = 255 then .nan else .num false 1 ((x % 256 : Nat) - 127)) ∧
      Fmt.e8m0.encode md (sat == 1) .nan = some 255 ∧ (∀ u, Fmt.e8m0.encode md (sat == 1) (.inf u) = some 255) ∧
      Fmt.e8m0.encode md (sat == 1) (.num true x y) = some 255 ∧ Fmt.e8m0.encode md (sat == 1) (.num false 0 y) = some 255 ∧
      (0 < x → x * (2 : Rat) ^ y < (2 : Rat) ^ (-127 : Int) → Fmt.e8m0.encode md (sat == 1) (.num false x y) = some 0) ∧
      ((2 : Rat) ^ ((k : Int) - 127) ≤ x * (2 : Rat) ^ y → x * (2 : Rat) ^ y < (2 : Rat) ^ ((k : Int) - 126) →
        k < 254 ∨ k = 254 ∧ x * (2 : Rat) ^ y = (2 : Rat) ^ (127 : Int) →
        Fmt.e8m0.encode md (sat == 1) (.num false x y) = some (if x * (2 : Rat) ^ y = (2 : Rat) ^ ((k : Int) - 127) then k else match md with
          | .rne => if 2 * (x * (2 : Rat) ^ y) < 3 * (2 : Rat) ^ ((k : Int) - 127) then k
            else if 3 * (2 : Rat) ^ ((k : Int) - 127) < 2 * (x * (2 : Rat) ^ y) then k + 1 else if k % 2 = 0 then k else k + 1
          | .rtz => k
          | .rdn => k
          | .rup => k + 1
          | .rna => if 2 * (x * (2 : Rat) ^ y) < 3 * (2 : Rat) ^ ((k : Int) - 127) then k else k + 1
          | .rto => if k % 2 = 1 then k else k + 1))) ∧
    (∀ (src dst : Fmt) (x : Nat), (∀ (k : Nat) (sg : Bool), src = .int k sg → ∀ k2 sg2, dst ≠ .int k2 sg2) →
      convert src dst md (sat == 1) x = match src.decode x with
        | none => .fault { cause := 10, info := 0 }
        | some y => match dst.encode md (sat == 1) y with
          | none => .fault { cause := 10, info := 1 }
          | some c => .val c) ∧
    (∀ (k k2 x : Nat) (sg sg2 : Bool) (i j : Int), 0 < k → 0 < k2 →
      i = (if sg then ((BitVec.ofNat k x).toInt) else ((BitVec.ofNat k x).toNat : Int)) →
      (Fmt.int k sg).decode x = some (.num (decide (i < 0)) i.natAbs 0) ∧
      (j = (if sat == 1 then (if sg2 then max (-(2 ^ (k2 - 1) : Int)) (min (2 ^ (k2 - 1) - 1) i) else max 0 (min (2 ^ k2 - 1) i)) else i) →
      convert (.int k sg) (.int k2 sg2) md (sat == 1) x = .val (BitVec.ofInt k2 j).toNat)) ∧
    (∀ (k : Nat) (sg u : Bool) (x : Nat) (y lo hi : Int), 0 < k → lo = (if sg then -(2 ^ (k - 1) : Int) else 0) →
      hi = (if sg then 2 ^ (k - 1) - 1 else 2 ^ k - 1) →
      (Fmt.int k sg).encode md (sat == 1) .nan = some 0 ∧
      (Fmt.int k sg).encode md (sat == 1) (.inf u) = some (BitVec.ofInt k (if u then lo else hi)).toNat ∧
      (Fmt.int k sg).encode md (sat == 1) (.num u x y) = some (BitVec.ofInt k (max lo (min hi (roundInt md u x y)))).toNat)

/-- R125: every instruction of an opcode that names vector state, and every vector slot of a pair word, traps (14) where its
strand does not hold the lanes. R134: one with a length above VLMAX at its type traps (13): the element-wise groups, the
moves, the reductions and scans, and the mask operations at width 8.
R36, R136, R148: `vadd`, `vfadd` and `vmov` that meet a POISON source at an active element make that element POISON and the
others as without it, and trap (9) naming the lowest such element; a POISON bit gives `qpopc` no result but a trap.
The model's own reading, and no rule's words: that `qpopc` names the lowest POISON bit in XEL (log 113). -/
def Obligations.VectorTraps : Prop :=
  ∀ (s : State) (v : VCtl) (d a b c : BitVec 6) (ty : Ty) (sat : BitVec 1) (rm : Rm), s.alone → s.calm →
    (s.holdsLanes = false → (s.curCore.slots.all fun t => t.2.flight.isEmpty) = true →
      (∀ (w : Word) (e l : Bool) (i : Instr), decodeWord w = .ok ⟨e, l, .one i⟩ → field w 54 7 ∈
        [0x29, 0x2A, 0x2B, 0x2C, 0x2D, 0x2E, 0x2F, 0x30, 0x31, 0x32, 0x33, 0x40, 0x41, 0x42, 0x43, 0x44, 0x45, 0x46, 0x51, 0x58,
          0x59, 0x5A, 0x62, 0x66, 0x67, 0x68, 0x71, 0x72, 0x73, 0x78] → exec i s = s.trapped { cause := 14 }) ∧
      (∀ i : Nat, i < 8 → exec (.mfs d (BitVec.ofNat 12 (0x040 + i))) s = s.trapped { cause := 14 } ∧
        exec (.tshapeWrite a (BitVec.ofNat 12 (0x040 + i))) s = s.trapped { cause := 14 }) ∧
      ∀ (r : BitVec 5) (o : CArg), ∀ i ∈ [Instr.vaddC r o, .vsubC r o, .vmulC r o, .vandC r o, .vorC r o, .vxorC r o, .vshlC r o,
        .vshrC r o, .vsraC r o, .vminC r o, .vmaxC r o, .vfaddC r o, .vfsubC r o, .vfmulC r o, .vfminC r o, .vfmaxC r o],
        exec i s = s.trapped { cause := 14 }) ∧
    (s.laned → vlmax ty.width s.width < s.len v.ls → ∀ i ∈
      [Instr.vadd v d a b ty sat, .vsub v d a b ty sat, .vmul v d a b ty sat, .vmulh v d a b ty, .vmin v d a b ty, .vmax v d a b ty,
        .vand v d a b ty, .vor v d a b ty, .vxor v d a b ty, .vshl v d a b ty, .vshr v d a b ty, .vsra v d a b ty,
        .vcmpEq v d a b ty, .vcmpNe v d a b ty, .vcmpLt v d a b ty, .vcmpLe v d a b ty, .vmov v d a ty, .vid v d ty,
        .vsel v d a b ty, .vdup v d a c ty, .vperm v d a b ty, .vslup v d a c ty, .vsldn v d a c ty, .vcmprs v d a ty,
        .vexpnd v d a ty, .vbmand v d a b ty, .vbpfx v d a ty, .vxsect v d a b ty, .vconf v d a ty 0#3, .vfadd v d a b rm ty,
        .vfsub v d a b rm ty, .vfmul v d a b rm ty, .vfdiv v d a b rm ty, .vfmin v d a b ty, .vfmax v d a b ty,
        .vfma v d a b rm c ty, .vfms v d a b rm c ty, .vfnma v d a b rm c ty, .vfsqrt v d a rm ty, .vrcp v d a rm ty,
        .vrsqrt v d a rm ty, .vexp2 v d a rm ty, .vfcmpEq v d a b ty, .vfcmpLt v d a b ty, .vfcmpLe v d a b ty, .vfcmpUn v d a b ty,
        .vredoAdd v d a b rm ty sat, .vredoMin v d a b ty, .vredoMax v d a b ty, .vredoAnd v d a b ty, .vredoOr v d a b ty,
        .vredoXor v d a b ty, .vredtAdd v d a b rm ty sat, .vredtMin v d a b ty, .vredtMax v d a b ty, .vredtAnd v d a b ty,
        .vredtOr v d a b ty, .vredtXor v d a b ty, .vscanAdd v d a b rm ty sat, .vscanMin v d a b ty, .vscanMax v d a b ty,
        .vscanAnd v d a b ty, .vscanOr v d a b ty, .vscanXor v d a b ty], exec i s = s.trapped { cause := 13 }) ∧
    (s.laned → vlmax 8 s.width < s.len v.ls → ∀ i ∈
      [Instr.qand v d a b, .qor v d a b, .qxor v d a b, .qnot v d a, .qpopc v d a, .qfirst v d a], exec i s = s.trapped { cause := 13 }) ∧
    (∀ (w k : Nat) (m : Mode) (f : Nat → Nat) (vals : (Nat → Nat) → Entry → Prop), w = ty.width → m = modeOf rm s.me.r.fctl →
      s.vready v w [(b, w)] → s.settledV d w = true → a.toNat < 32 → d.toNat < 32 →
      k < s.len v.ls → s.lane a w k = .poison → (s.maskAt v.q.toNat k).num ≠ 0 →
      (∀ i < s.len v.ls, i ≠ k → (s.lane a w i).isFull = true ∧ s.lane d w i ≠ .poison) → s.lane d w k ≠ .poison →
      (∀ i, f i = (s.lane a w i).num) →
      (∀ g e, vals g e ↔ ∃ r : VReg, e.vd = [(d.toNat, r)] ∧ r.get w k = .poison ∧
        ∀ i < 16384 / w, i ≠ k → r.get w i = s.into v d w g i) →
      s.faultedWith { cause := 9, info := 1, elem := some k } (exec (.vadd v d a b ty sat) s) (vals fun i =>
        tyPut ty (sat == 1) ((if ty.isSigned then (BitVec.ofNat w (f i)).toInt else (f i : Int)) +
          (if ty.isSigned then (BitVec.ofNat w (s.lane b w i).num).toInt else ((s.lane b w i).num : Int)))) ∧
      s.faultedWith { cause := 9, info := 1, elem := some k } (exec (.vmov v d a ty) s) (vals f) ∧
      (ty.isF3 = true → s.faultedWith { cause := 9, info := 1, elem := some k } (exec (.vfadd v d a b rm ty) s) (vals fun i =>
        ((tyFmt ty).round m false (FVal.add (m == .rdn) (tyVal ty (f i)) (tyVal ty (s.lane b w i).num))).code))) ∧
    (∀ k, s.vready v 8 [] → s.cur.slotB = false → (∃ e l, decodeWord s.cur.word = .ok ⟨e, l, .one (.qpopc v d a)⟩) →
      k < s.len v.ls → s.maskAt a.toNat k = .poison → s.maskTo a.toNat k = true →
      s.faulted { cause := 9, info := 1, elem := some k } (exec (.qpopc v d a) s))

/-! ### Loads and stores (13) -/

/-- R248, R254, R278: a scalar load whose bytes can be read puts them, sign- or zero-extended, into its destination; the far
line of a pool access stays cached. One whose check fails is a fault of that cause, an unaligned one among them.
R249, R250, R254: a scalar store whose place can be written writes the low bytes of its source there, and that is its
whole effect; one whose check fails writes nothing and is a fault of that cause. All of this is stated of every width.
The model's own reading, and no rule's words: that a far line stays cached (log 63). -/
def Obligations.ScalarLoadsAndStores : Prop :=
  (∀ (s : State) (d a : BitVec 6) (imm : BitVec 20) (va : Word) (p : Place), s.alone → va = s.val a + imm.signExtend 64 →
    (s.reads .data va 1 p →
      exec (.ldI8 d a imm) s = .next ((s.noteRead p).gave d ((BitVec.ofNat 8 (s.readNat p 1)).signExtend 64)) ∧
      exec (.ldN8 d a imm) s = .next ((s.noteRead p).gave d ((BitVec.ofNat 8 (s.readNat p 1)).setWidth 64))) ∧
    (s.reads .data va 2 p →
      exec (.ldI16 d a imm) s = .next ((s.noteRead p).gave d ((BitVec.ofNat 16 (s.readNat p 2)).signExtend 64)) ∧
      exec (.ldN16 d a imm) s = .next ((s.noteRead p).gave d ((BitVec.ofNat 16 (s.readNat p 2)).setWidth 64))) ∧
    (s.reads .data va 4 p →
      exec (.ldI32 d a imm) s = .next ((s.noteRead p).gave d ((BitVec.ofNat 32 (s.readNat p 4)).signExtend 64)) ∧
      exec (.ldN32 d a imm) s = .next ((s.noteRead p).gave d ((BitVec.ofNat 32 (s.readNat p 4)).setWidth 64))) ∧
    (s.reads (.scalar64 false) va 8 p →
      exec (.ldI64 d a imm) s = .next ((s.noteRead p).gave d (BitVec.ofNat 64 (s.readNat p 8)))) ∧
    (s.calm → s.cur.slotB = false → ∀ t : Trap, ∀ x ∈ [(Instr.ldI8 d a imm, Form.data, 1), (.ldN8 d a imm, .data, 1),
        (.ldI16 d a imm, .data, 2), (.ldN16 d a imm, .data, 2), (.ldI32 d a imm, .data, 4), (.ldN32 d a imm, .data, 4),
        (.ldI64 d a imm, .scalar64 false, 8)],
      (∃ e l, decodeWord s.cur.word = .ok ⟨e, l, .one x.1⟩) →
      s.checkElt s.me s.cur.core .read x.2.1 va x.2.2 = .error t → s.faulted t (exec x.1 s))) ∧
  (∀ (s : State) (d a : BitVec 6) (imm : BitVec 20) (va : Word) (p : Place), s.alone → va = s.val a + imm.signExtend 64 →
    (s.puts .write .data va 1 p → exec (.st8 d a imm) s = .next (s.storeAt p 1 (s.val d).toNat).passOn) ∧
    (s.puts .write .data va 2 p → exec (.st16 d a imm) s = .next (s.storeAt p 2 (s.val d).toNat).passOn) ∧
    (s.puts .write .data va 4 p → exec (.st32 d a imm) s = .next (s.storeAt p 4 (s.val d).toNat).passOn) ∧
    (s.puts .write (.scalar64 true) va 8 p → exec (.st64 d a imm) s = .next (s.storeAt p 8 (s.val d).toNat).passOn) ∧
    (s.calm → s.cur.slotB = false → ∀ t : Trap, ∀ x ∈ [(Instr.st8 d a imm, Form.data, 1), (.st16 d a imm, .data, 2),
        (.st32 d a imm, .data, 4), (.st64 d a imm, .scalar64 true, 8)],
      (∃ e l, decodeWord s.cur.word = .ok ⟨e, l, .one x.1⟩) →
      s.checkElt s.me s.cur.core .write x.2.1 va x.2.2 = .error t → s.faulted t (exec x.1 s)))

/-- R3, R231, R247, R283: what one element access does to memory: the bytes stored read back, lowest address first; every
byte elsewhere reads as before, a byte of the same near line under the key and the tweak of the store; and nothing but
memory, the strands' monitors and links and what is kept of the line and of loaded code changes.
The model's own reading, and no rule's words: what is kept of far lines, keys and code (logs 13, 62, 63, 97). -/
def Obligations.StoreWritesItsBytes : Prop :=
  ∀ (s : State) (p : Place) (w v : Nat), w ∈ [1, 2, 4, 8] → p.mem = true → Tab.wf (0, 0) s.lineKey = true →
    Tab.rising s.banks none = true →
    (∀ a k x, p = .near a k x → a < 2 ^ 40 ∧ a % 64 + w ≤ 64 ∧ x % 64 + w ≤ 64 ∧ s.keyFits (a / 64) k (x / 64) = true) →
    (∀ a k, p = .far a k → a % 64 + w ≤ 64 ∧ k < 512) →
    (s.storeAt p w v).readNat p w = v % 2 ^ (8 * w) ∧
    (∀ q : Place, (∀ i < w, q ≠ p.plus i) →
      (∀ a k x a' k' x', p = .near a k x → q = .near a' k' x' →
        (∀ i < w, a' ≠ a + i) ∧ (a / 64 = a' / 64 → k = k' ∧ x / 64 = x' / 64)) →
      (∀ a k, q = .far a k → k < 512) → (s.storeAt p w v).readByte q = s.readByte q) ∧
    s.storeAt p w v = { s with
      cores := (s.storeAt p w v).cores, hbm := (s.storeAt p w v).hbm, far := (s.storeAt p w v).far
      banks := (s.storeAt p w v).banks, lineKey := (s.storeAt p w v).lineKey, stale := (s.storeAt p w v).stale
      oldCode := (s.storeAt p w v).oldCode } ∧
    ∀ c sl t, s.strandAt c sl = some t → ∃ m l, (s.storeAt p w v).strandAt c sl = some { t with monitor := m, links := l }

/-- R220, R245, R246, R369: 64-bit accesses to a FIFO bank push and pop at the data port, loads of the status port reading the
status; device-register pages read as their registers say, and a write of HWIN keeps its fields; an access of another
device's memory reads what its home answers, or sends the write there.
The model's own reading, and no rule's words: what another device answers (logs 14, 110). -/
def Obligations.FifoDeviceAndPeerAccesses : Prop :=
  ∀ (s : State) (d a : BitVec 6) (imm : BitVec 20) (va : Word) (p : Place) (b o : Nat), s.alone →
    va = s.val a + imm.signExtend 64 →
    (s.checkElt s.me s.cur.core .read (.scalar64 false) va 8 = .ok p → s.tideHeld s.me va 8 = false → s.stalled p = false →
      (∀ s1 v, s.fifoBank p = some (b, 0) → s.pop b s.cur.core s.cur.slot = some (s1, v) →
        exec (.ldI64 d a imm) s = .next (s1.gave d v)) ∧
      (s.fifoBank p = some (b, o) → o ≠ 0 → exec (.ldI64 d a imm) s = .next (s.gave d (BitVec.ofNat 64 (s.bank b).status))) ∧
      (∀ g, p = .devreg g o → exec (.ldI64 d a imm) s = .next (s.gave d (s.devRead g o))) ∧
      (∀ dv i x, p = .peer dv i x → match s.peerAnswer .read dv va 8 with
        | .val v => exec (.ldI64 d a imm) s = .next (({ s with
            out := s.out ++ [.peerRequest ⟨dv, 0, .i8, false, false, [⟨i, x.toNat, 8, none, 0, 0⟩]⟩] } : State).gave d (BitVec.ofNat 64 v))
        | _ => True)) ∧
    (s.checkElt s.me s.cur.core .write (.scalar64 true) va 8 = .ok p → s.stalled p = false →
      (∀ s1, s.fifoBank p = some (b, o) → s.push b s.cur.core s.cur.slot (s.val d) = some s1 →
        exec (.st64 d a imm) s = .next s1.passOn) ∧
      (p = .devreg 2 0 → exec (.st64 d a imm) s =
        .next ({ s with hwin := s.val d &&& 0x1FF007FC0000000#64 } : State).passOn) ∧
      (∀ dv i x, p = .peer dv i x → match s.peerAnswer .write dv x 8 with
        | .val _ => exec (.st64 d a imm) s = .next ({ s with
            out := s.out ++ [.peerRequest ⟨dv, 1, .i8, false, false, [⟨i, x.toNat, 8, none, (s.val d).toNat, 0⟩]⟩] } : State).passOn
        | _ => True)) ∧
    (∀ v, (s.bank b).fifo.length < 65536 → (s.bank b).queue = [] → Tab.rising s.banks none = true → ∀ s1 s2 x,
      s.push b s.cur.core s.cur.slot v = some s1 → s1.pop b s.cur.core s.cur.slot = some (s2, x) →
      (s1.bank b).fifo = (s.bank b).fifo ++ [v] ∧ (s2.bank b).fifo = ((s.bank b).fifo ++ [v]).tail ∧
      some x = ((s.bank b).fifo ++ [v]).head? ∧ (s2.bank b).head = ((s.bank b).head + 1) % 65536)

/-- R247, R248, R255, R256, R258: the plain forms of the vector loads. `p i` is where the element at the address `adr i` stands;
active elements take what stands there, the others follow the length, mask and policy. -/
def Obligations.VectorLoads : Prop :=
  ∀ (s : State) (v : VCtl) (d a b : BitVec 6) (rm : Rm) (ty : Ty) (sat : BitVec 1) (disp : BitVec 8) (k : BitVec 2) (w : Nat)
    (adr : Nat → Word) (p : Nat → Place) (start : Word),
    w = ty.width → s.vready v w [] → s.settledV d w = true → d.toNat < 32 → s.sound → start = s.val a + disp.signExtend 64 * 64 →
    (∀ i ∈ s.actives v, s.reads .data (adr i) (w / 8) (p i)) →
    ((∀ i, adr i = start + BitVec.ofNat 64 (i * (w / 8))) →
      ((s.actives v).foldl (fun t i => t.noteRead (p i)) s).fills (exec (.vld v d a b rm ty sat 0#1 disp) s) d w
        (s.into v d w fun i => s.readNat (p i) (w / 8))) ∧
    ((∀ i, adr i = start + BitVec.ofNat 64 i * s.val b) →
      ((s.actives v).foldl (fun t i => t.noteRead (p i)) s).fills (exec (.vlds v d a b ty disp) s) d w
        (s.into v d w fun i => s.readNat (p i) (w / 8))) ∧
    (s.fullTo b w (s.len v.ls) = true → (∀ i, adr i = s.val a + BitVec.ofNat 64 ((s.lane b w i).num * 2 ^ k.toNat)) →
      ((s.actives v).foldl (fun t i => t.noteRead (p i)) s).fills (exec (.vgat v d a b rm ty sat 0#2 k) s) d w
        (s.into v d w fun i => s.readNat (p i) (w / 8)))

/-- R169, R170, R257, R259, R298: the tensor forms read a bound identifier at a linear index, from `value(b)` on or gathered,
decode with the block scale and TSCALE and round once; `vgpool` sums the values so read by segments; `vgl` links the lines
of the codes.
R270: the sequence-map form gathers through its entry: the prefix, the private slab, and the part of a growing slab that is
not yet filled from its old place; an element beyond the slab is absent, with a bounds fault, and without a valid entry of
the strand's ASID every element is, with the sequence-map fault.
`Combining` says what a sum, a minimum, a maximum and a remote operation give.
The model's own reading, and no rule's words: that these forms take `.sat` (log 57), and which lines are linked (log 71). -/
def Obligations.TensorLoads : Prop :=
  Combining ∧
  (∀ (s : State) (v : VCtl) (d a b c : BitVec 6) (rm : Rm) (ty : Ty) (sat : BitVec 1) (disp : BitVec 8) (k : BitVec 2) (w n : Nat)
    (form : Form) (t : Tid) (lin : Nat → Int) (at_ : Nat → Nat × Nat × Nat × Nat) (p q : Nat → Place) (f : Nat → Nat) (md : Mode),
    w = ty.width → n = s.len v.ls → md = modeOf rm s.me.r.fctl → s.vready v w [] → s.settledV d w = true → d.toNat < 32 → s.sound →
    s.holdsTid a.toNat t → (if t.fmt.isInt then t.fcode < 16 ∧ tyOfNat t.fcode = ty else ty.isF3 = true) →
    (∀ i ∈ s.actives v, t.ofLinear (lin i) = some (at_ i) ∧ s.reads form (t.addr (at_ i)).1 t.fmt.bytes (p i) ∧
      (t.bsen = true → s.reads form (t.scaleAddr (at_ i)) 1 (q i)) ∧
      if t.fmt.isInt then f i = s.readNat (p i) t.fmt.bytes
      else ∃ y, t.value (codeOf t.fmt (t.addr (at_ i)).2 (s.readNat (p i) t.fmt.bytes))
          (if t.bsen then s.readNat (q i) 1 else 0) = some y ∧ (fmtOfTy ty).encode md (sat == 1) y = some (f i)) →
    ∀ got : State, got = (s.actives v).foldl (fun u i =>
      let u1 := u.noteRead (p i)
      if t.bsen then u1.noteRead (q i) else u1) s →
    (form = .data → (∀ i, lin i = (s.val b).toInt + i) →
      got.fills (exec (.vld v d a b rm ty sat 1#1 disp) s) d w (s.into v d w f)) ∧
    (s.fullTo b w n = true → (∀ i, lin i = (BitVec.ofNat w (s.lane b w i).num).toInt) →
      (form = .data → got.fills (exec (.vgat v d a b rm ty sat 1#2 k) s) d w (s.into v d w f)) ∧
      (form = .link → (got.setMe { got.me with links := addLinks ((s.actives v).filterMap fun i => (p i).link) [] }).fills
        (exec (.vgl v d a b rm ty sat 1#2 k) s) d w (s.into v d w f)) ∧
      (form = .data → s.fullTo c w n = true → (∀ i ∈ s.actives v, (s.lane c w i).num < n) →
        got.fills (exec (.vgpool v d a b rm c ty sat 1#2 k) s) d w fun j => if n ≤ j then s.lane d w j else .full
          (((((s.actives v).filter fun i => (s.lane c w i).num == j).foldl (fun acc i => some (poolAdd ty md (sat == 1) acc (f i)))
            none).getD 0) % 2 ^ w)))) ∧
  (∀ (s : State) (v : VCtl) (d a b : BitVec 6) (rm : Rm) (ty : Ty) (sat : BitVec 1) (k : BitVec 2) (w : Nat) (m : Smap)
    (o : Nat → Nat) (adr : Nat → Word) (p : Nat → Place) (inside : Nat → Prop) (go : Out),
    w = ty.width → s.vready v w [(b, w)] → s.settledV d w = true → d.toNat < 32 → s.sound →
    go = exec (.vgat v d a b rm ty sat 2#2 k) s → (∀ i, o i = (s.lane b w i).num * (w / 8)) →
    (∀ i, inside i ↔ o i < m.plen * m.rb + 2 ^ m.k * m.rb) → 0 < m.rb →
    (∀ i, adr i = if o i < m.plen * m.rb then m.pbase + BitVec.ofNat 64 (o i)
      else
        let r := o i - m.plen * m.rb
        match m.grow with
        | some (fold, fprg) => (if r < 2 ^ (m.k - 1) * m.rb ∧ fprg ≤ r then fold else m.qbase) + BitVec.ofNat 64 r
        | none => m.qbase + BitVec.ofNat 64 r) →
    (∀ i ∈ s.actives v, inside i → s.reads .data (adr i) (w / 8) (p i)) →
    (Tab.find s.smaps (s.val a).toNat = some m → m.asid = s.me.asid →
      ((∀ i ∈ s.actives v, inside i) → ((s.actives v).foldl (fun t i => t.noteRead (p i)) s).fills go d w
        (s.into v d w fun i => s.readNat (p i) (w / 8))) ∧
      (∀ j ∈ s.actives v, s.calm → s.cur.slotB = false →
        (∃ e l, decodeWord s.cur.word = .ok ⟨e, l, .one (.vgat v d a b rm ty sat 2#2 k)⟩) →
        ¬ inside j → (∀ i ∈ s.actives v, i ≠ j → inside i) →
        (((s.actives v).filter fun i => i != j).foldl (fun t i => t.noteRead (p i)) s).faultedWith { cause := 8, elem := some j } go
          fun e => ∃ r : VReg, e.vd = [(d.toNat, r)] ∧ r.get w j = .empty ∧
            ∀ i < 16384 / w, i ≠ j → r.get w i = s.into v d w (fun i => s.readNat (p i) (w / 8)) i)) ∧
    ((∀ x, Tab.find s.smaps (s.val a).toNat = some x → x.asid ≠ s.me.asid) → ∀ j, (s.actives v).head? = some j → s.calm →
      s.cur.slotB = false → (∃ e l, decodeWord s.cur.word = .ok ⟨e, l, .one (.vgat v d a b rm ty sat 2#2 k)⟩) →
      s.faultedWith { cause := 24, elem := some j } go fun e => ∃ r : VReg, e.vd = [(d.toNat, r)] ∧ ∀ i ∈ s.actives v, r.get w i = .empty))

/-- R249, R250, R255 to R258: the vector stores, contiguous, strided and scattered, in their plain and tensor forms, write in
ascending order each active element's source at its address, and that is their whole effect.
The model's own reading, and no rule's words: which elements have performed where one fails (log 112). -/
def Obligations.VectorStores : Prop :=
  ∀ (s : State) (v : VCtl) (a b c : BitVec 6) (ty : Ty) (disp : BitVec 8) (mode k : BitVec 2) (w : Nat) (t : Tid) (adr : Nat → Word)
    (high : Nat → Bool) (p : Nat → Place) (start : Word) (after : State),
    w = ty.width → s.vready v w [(c, w)] → s.sound → start = s.val a + disp.signExtend 64 * 64 →
    (∀ i ∈ s.actives v, s.puts .write .data (adr i) (Tid.bytesOf mode ty t) (p i)) →
    after = (s.actives v).foldl (fun u i => u.scatter mode ty t (p i) (high i) (s.lane c w i).num) s →
    (mode = 0 → (∀ i, adr i = start + BitVec.ofNat 64 (i * (w / 8))) → exec (.vst v a b c ty 0#1 disp) s = .next after.passOn) ∧
    (mode = 0 → (∀ i, adr i = start + BitVec.ofNat 64 i * s.val b) → exec (.vsts v a b c ty disp) s = .next after.passOn) ∧
    (s.fullTo b w (s.len v.ls) = true → s.aimed v a b ty mode k t adr high →
      exec (.vsca v a b c ty mode k) s = .next after.passOn) ∧
    (mode = 1 → s.holdsTid a.toNat t → t.fcode < 16 → tyOfNat t.fcode = ty → t.bsen = false →
      (∀ i ∈ s.actives v, ∃ x, t.ofLinear ((s.val b).toInt + i) = some x ∧ adr i = (t.addr x).1 ∧ high i = (t.addr x).2) →
      exec (.vst v a b c ty 1#1 disp) s = .next after.passOn)

/-- R259, R260: `vgpool` gathers each active element and sums, in ascending order, those of one segment into the segment's
element, 0 for none; `vsadd`, plain or by an identifier, adds to each distinct address, in the order of their first
elements, the sum of its elements.
`Combining` says what a sum, a minimum, a maximum and a remote operation give. -/
def Obligations.PooledSumsAndScatterAdds : Prop :=
  Combining ∧
  ∀ (s : State) (v : VCtl) (d a b c : BitVec 6) (rm : Rm) (ty : Ty) (sat : BitVec 1) (mode k : BitVec 2) (w n : Nat) (t : Tid)
    (adr : Nat → Word) (high : Nat → Bool) (p : Nat → Place) (md : Mode) (seg x : Nat → Nat),
    w = ty.width → n = s.len v.ls → md = modeOf rm s.me.r.fctl → s.vready v w [(b, w), (c, w)] → s.sound →
    s.aimed v a b ty mode k t adr high →
    (mode = 0 → s.settledV d w = true → d.toNat < 32 → (∀ i, seg i = (s.lane c w i).num) → (∀ i ∈ s.actives v, seg i < n) →
      (∀ i ∈ s.actives v, s.reads .data (adr i) (w / 8) (p i) ∧ x i = s.readNat (p i) (w / 8)) →
      ((s.actives v).foldl (fun t i => t.noteRead (p i)) s).fills (exec (.vgpool v d a b rm c ty sat 0#2 k) s) d w
        fun j => if n ≤ j then s.lane d w j else .full
          (((((s.actives v).filter fun i => seg i == j).foldl (fun acc i => some (poolAdd ty md (sat == 1) acc (x i))) none).getD 0)
            % 2 ^ w)) ∧
    ((∀ i, x i = (s.lane c w i).num) →
      (∀ i ∈ s.actives v, s.puts .atomic .data (adr i) (w / 8) (p i) ∧ s.tideHeld s.me (adr i) (w / 8) = false) →
      exec (.vsadd v a b c ty sat mode k) s = .next (((s.actives v).filter fun i =>
          (s.actives v).all fun j => decide (i ≤ j) || decide (adr j ≠ adr i)).foldl (fun t i =>
        match ((s.actives v).filter fun j => decide (adr j = adr i)).map x with
        | [] => t
        | y :: ys => t.storeAt (p i) (w / 8) (poolAdd ty .rne (sat == 1) (some (t.readNat (p i) (w / 8)))
            (ys.foldl (fun acc z => poolAdd ty .rne (sat == 1) (some acc) z) y))) s).passOn)

/-- R139, R140: `vspill` writes a header of 64 bytes and the elements packed after it, filled up to a dword; `vfill` reads such
a frame back into a register whose other elements are 0. A frame on pages of other devices goes to each home in one message,
after its verdict (R253, R276).
The model's own reading, and no rule's words: zeros up to the end of the register (log 54). -/
def Obligations.SpillFrames : Prop :=
  ∀ (s : State) (v : VCtl) (d a b : BitVec 6) (ty : Ty) (disp : BitVec 9) (w n : Nat) (va : Word), w = ty.width →
    va = s.val a + disp.signExtend 64 * 64 → s.laned → s.sound →
    (∀ bs ls ps, n = s.len v.ls → s.vready ⟨v.ls, 0, 0⟩ w [(b, w)] →
      bs = toBytes 64 (n + Ty.code4 ty * 2 ^ 12 + s.width * 2 ^ 16 + 0xB7 * 2 ^ 24) ++
        (List.range n).flatMap (fun i => toBytes (w / 8) (s.lane b w i).num) ++ List.replicate ((8 - n * (w / 8) % 8) % 8) 0#8 →
      n < 4096 →
      ls = s.pageMap (clusterOf s.cur.core) s.me.asid s.me.lvl .write .data (pageAddrs va bs.length) [] →
      s.framePlaces ls va bs = .ok ps → (ps.any fun x => s.stalled x.1) = false → s.linesRefused ps = none →
      exec (.vspill v a b ty disp) s =
        .next ((s.askPeers 1 .i8 false (ps.filterMap fun x => x.1.peerElt x.2.length none 0 0)).writeAll ps).passOn ∧
      ((ps.all fun x => x.1.mem) = true →
        exec (.vspill v a b ty disp) s = .next (ps.foldl (fun t x => t.writeBytes x.1 x.2) s).passOn)) ∧
    (∀ hb (hp : Place) (p : Nat → Place) (h : Word), va.toNat % 64 = 0 → d.toNat < 32 →
      s.checkElt s.me s.cur.core .read .data va 8 = .ok hp →
      s.ownRead s.me s.cur.core (fun r x => pageFault r .read x) va 1 = .ok hb → h = BitVec.ofNat 64 (ofBytes hb) →
      field h 24 8 = 0xB7 → field h 12 4 = Ty.code4 ty → field h 0 12 = n → n ≤ 2048 → n ≤ vlmax w s.width →
      (∀ i < n, s.reads .data (va + BitVec.ofNat 64 (64 + i * (w / 8))) (w / 8) (p i)) →
      (s.noteReads ((hp, 8) :: (List.range n).map fun i => (p i, w / 8))).fills (exec (.vfill d a ty disp) s) d w
        fun i => .full (if i < n then s.readNat (p i) (w / 8) else 0))

/-! ### Tiles and matrix rows (09) -/

/-- R180, R181, R184 to R190: `tld` and `tldt` fill a tile: element (r, c), at index `i`, takes the code that stands at the
coordinates R187 gives it, and the first row of each run its scale codes; `tst` writes each element's code to its address,
and a line that it writes whole holds no uncorrectable error any more; `tzero` clears. A fill leaves the tile FILLING and a drain DRAINING until their events.
The model's own reading, and no rule's words: rows that a poisoned scale covers, and the kept done-mask (logs 65, 66). -/
def Obligations.Tiles : Prop :=
  ∀ (s : State) (d b c : BitVec 6) (td : BitVec 6) (x : BitVec 512) (t : Tid) (tile : Tile) (n eb : Nat),
    s.alone → s.holdsLanes = true → Tab.find s.me.td td.toNat = some x → td.toNat < s.me.ntd → t = tidOf x → t.recordSet →
    tile = s.tile d.toNat → t.fmt.cls = some tile.ew → n = tile.rows * tile.cols → eb = 4 * 2 ^ tile.ew →
    tile.rowsm1 < 256 → tile.colsm1 < 512 → n * eb ≤ 131072 →
    (tile.st ≠ .filling → tile.st ≠ .draining →
      ∃ u : Tile, exec (.tzero d td) s = .next (s.withCore fun k => { k with tiles := Tab.set Tile.start k.tiles d.toNat u }).passOn ∧
        u = { tile with st := .ready, codes := 0, poison := 0, fill := none, side := u.side
                        snap := ⟨t.fcode, t.record, BitVec.ofNat 32 t.tscale, t.bnd⟩ } ∧
        ∀ j < 4096, getBits u.side (8 * j) 8 = 127) ∧
    (tile.st ≠ .filling → tile.st ≠ .draining →
      ∀ (trans : Bool) (p q : Nat → Place) (at_ : Nat → Nat × Nat × Nat × Nat) (o : Nat × Nat × Nat × Nat) (got : State),
      o = ((s.val b).toNat % 2 ^ 32, (s.val b).toNat / 2 ^ 32, (s.val c).toNat % 2 ^ 32, (s.val c).toNat / 2 ^ 32) →
      (t.bsen = true → if trans then t.kax = 0 ∧ o.1 % 32 = 0 else t.kax = 1 ∧ o.2.1 % 32 = 0) →
      (∀ i < n, t.ofCoords (if trans then (o.1 + i / tile.cols, o.2.1 + i % tile.cols, o.2.2.1, o.2.2.2)
          else (o.1 + i % tile.cols, o.2.1 + i / tile.cols, o.2.2.1, o.2.2.2)) = some (at_ i) ∧
        s.reads .data (t.addr (at_ i)).1 t.fmt.bytes (p i) ∧
        (t.bsen = true → i / tile.cols % 32 = 0 → s.reads .data (t.scaleAddr (at_ i)) 1 (q i))) → s.sound →
      got = (List.range n).foldl (fun g i =>
        let g1 := g.noteRead (p i)
        if t.bsen && i / tile.cols % 32 == 0 then g1.noteRead (q i) else g1) s →
      ∃ u : Tile, exec (if trans then .tldt d td b c else .tld d td b c) s = .next ({ got.withCore (fun k =>
            { k with tiles := Tab.set Tile.start k.tiles d.toNat u }) with
          agenda := s.agenda ++ [.tileFillComplete s.cur.core d.toNat] } : State).passOn ∧
        u = { tile with st := .filling, codes := u.codes, side := u.side, poison := 0, fill := u.fill
                        snap := ⟨t.fcode, t.record, BitVec.ofNat 32 t.tscale, t.bnd⟩ } ∧
        (u.finishFill).st = .ready ∧
        (∀ i < n, getBits u.codes (i * eb) eb = codeOf t.fmt (t.addr (at_ i)).2 (s.readNat (p i) t.fmt.bytes) % 2 ^ eb) ∧
        ∀ i < n, i / tile.cols % 32 = 0 → getBits u.side (8 * (512 * (i / tile.cols / 32) + i % tile.cols)) 8 =
          if t.bsen then s.readNat (q i) 1 else 127) ∧
    (tile.st = .ready → tile.fill = none → tile.poison = 0 → ∀ (p : Nat → Place) (at_ : Nat → Nat × Nat × Nat × Nat),
      (∀ i < n, t.ofCoords ((s.val b).toNat % 2 ^ 32 + i % tile.cols, (s.val b).toNat / 2 ^ 32 + i / tile.cols,
          (s.val c).toNat % 2 ^ 32, (s.val c).toNat / 2 ^ 32) = some (at_ i) ∧
        s.puts .write .data (t.addr (at_ i)).1 t.fmt.bytes (p i)) →
      ∃ (u : Tile) (s1 s2 : State), s1 = (s.withCore fun k => { k with tiles := Tab.set Tile.start k.tiles d.toNat u }) ∧
        s2 = storeCodes s1 t.fmt ((List.range n).map fun i => (p i, (t.addr (at_ i)).2, getBits tile.codes (i * eb) eb)) ∧
        (s.poison = [] → s2 = (List.range n).foldl (fun g i =>
          storeCode g (p i) t.fmt (t.addr (at_ i)).2 (getBits tile.codes (i * eb) eb)) s1) ∧
        exec (.tst td d b c) s = .next ({ s2 with agenda := s.agenda ++ [.tileDrainComplete s.cur.core d.toNat] } : State).passOn ∧
        u = { tile with st := .draining, fill := u.fill } ∧ (u.finishDrain).st = .ready)

/-- R173, R174, R191 to R195: `tlatch` records what the latch is to hold and begins the copy of its tile; the row
instructions multiply a row with the latched tile: each column is the sum, in ascending blocks of 32, of its products, times
the scale, added to the old element where `acc` says so, each rounded to nearest. A block's sum is exact, and NaN or infinite
by the rules of its products; a skipped product counts for nothing; a scale code of 0xFF gives NaN. A row waits for the codes
and scales that it reads, is POISON where one of them is, and is absent, with its trap, where one that enters an active
column is reserved.
The model's own reading, and no rule's words: the order of the checks of `tlatch` (log 68), and that POISON comes before a
reserved code and the row's codes before the tile's (log 138). -/
def Obligations.MatrixRows : Prop :=
  (∀ (s : State) (a b : BitVec 6) (x : BitVec 512) (t : Tid) (tile : Tile),
    s.alone → s.holdsLanes = true → s.cur.slotB = false → (∃ e l, decodeWord s.cur.word = .ok ⟨e, l, .one (.tlatch a b)⟩) →
    Tab.find s.me.td b.toNat = some x → b.toNat < s.me.ntd → t = tidOf x → t.recordSet → tile = s.tile a.toNat → tile.st = .ready →
    s.curCore.latching = none → tile.ew < 3 → tile.rowsm1 < 128 → tile.snap.fcode ≠ 16 → t.fmt ≠ .e8m0 → t.fmt.width ≤ 16 →
    ∃ u l, exec (.tlatch a b) s = .next u ∧ u.curCore.latching = some (a.toNat, false) ∧ u.curCore.latch = some l ∧
      (l.k = tile.rowsm1 + 1 ∧ l.n = tile.colsm1 + 1 ∧ l.ew = tile.ew ∧ l.fa = t.fcode ∧ l.fb = tile.snap.fcode ∧ l.bsen = t.bsen ∧
        l.scale.toNat = (f32.round .rne false (FVal.mul (f32.value t.tscale) (f32.value tile.snap.tscale.toNat))).code) ∧
      (u.tile a.toNat) = { tile with st := .draining } ∧
      u.agenda = s.agenda ++ [.latchCopy s.cur.core] ∧
      u.me.r = s.me.r ∧ u.hbm = s.hbm ∧ u.pool = s.pool ∧ u.banks = s.banks ∧ u.me.flight.length = 1) ∧
  (∀ (s : State) (v : VCtl) (d a b c : BitVec 6) (acc : BitVec 1) (n : BitVec 3) (l : Latch) (m : Nat) (vals : Nat → List (Option FVal))
    (eas : Nat → List Nat) (scales : Nat → Nat → Elt) (row : Nat → Nat → Elt) (res : Nat → Nat → Nat),
    s.vready v 32 [] → s.curCore.latch = some l → s.curCore.latching = none → s.len v.ls ≤ l.n → l.bsen = true ∨ b.toNat = 32 →
    d.toNat + n.toNat < 32 → m ≤ n.toNat →
    (∀ m ≤ n.toNat, s.settledV (d + BitVec.ofNat 6 m) 32 = true ∧
      (acc = 1 → s.fullTo (d + BitVec.ofNat 6 m) 32 (s.len v.ls) = true)) →
    (∀ m j, scales m j = if l.bsen then (if b.toNat < 32 then (Tab.get VReg.zero s.curCore.v (b.toNat + m)).get 8 j
      else s.lane b 8 0) else .full 127) →
    (∀ m k, row m k = (Tab.get VReg.zero s.curCore.v (a.toNat + m)).get l.fmtA.elemWidth k) →
    (∀ m i, res m i = rne32 (let sum := FVal.mul (column l (vals m) (eas m) i) (f32.value l.scale.toNat)
      if acc = 1 then exactAdd (f32.value (s.lane (d + BitVec.ofNat 6 m) 32 i).num) sum else sum)) →
    (rowState l ⟨row 0, scales 0, fun _ => .full 0⟩ (s.actives v) 0 = .ready (vals 0) (eas 0) →
      s.fills (exec (.mmr v d a b acc) s) d 32 (s.into v d 32 (res 0))) ∧
    ((∀ m ≤ n.toNat, rowState l ⟨row m, scales m, fun _ => .full 0⟩ (s.actives v) 0 = .ready (vals m) (eas m)) →
      ∃ (r : Nat → VReg) (u : State), exec (.mmrRep v d a b acc n) s = .next (u.withCore fun k => { k with
          v := (List.range (n.toNat + 1)).foldl (fun t m => Tab.set VReg.zero t (d.toNat + m) (r m)) k.v }).passOn ∧
        s.recorded u ((List.range (n.toNat + 1)).any fun m => s.poisonV (d + BitVec.ofNat 6 m) 32) ∧
        ∀ m ≤ n.toNat, ∀ i < 512, (r m).get 32 i = s.into v (d + BitVec.ofNat 6 m) 32 (res m) i) ∧
    (rowState l ⟨row 0, scales 0, fun k => s.maskAt c.toNat k⟩ (s.actives v) 0 = .ready (vals 0) (eas 0) →
      s.fills (exec (.mmrSk v d a b c acc) s) d 32 (s.into v d 32 (res 0))) ∧
    (∀ (tile : Tile) (r : Nat), tile = s.tile a.toNat → r = (s.val c).toNat → tile.st = .ready → r < tile.rows →
      some tile.ew = l.fmtA.cls → l.k ≤ tile.cols → tile.poison.getLsbD r = false →
      rowState l ⟨fun k => .full (getBits tile.codes ((r * tile.cols + k) * tile.ebits) tile.ebits), scales 0, fun _ => .full 0⟩
        (s.actives v) (r * tile.cols) = .ready (vals 0) (eas 0) →
      s.fills (exec (.mmrT v d a b c acc) s) d 32 (s.into v d 32 (res 0)))) ∧
  (∀ (l : Latch) (rv : List (Option FVal)) (eas : List Nat) (i : Nat) (eb : Nat → Nat) (blk : Nat → FVal), 0 < l.k →
    (∀ j, eb j = getBits l.side (8 * (512 * j + i)) 8) →
    (∀ j, blk j = if eas.getD j 127 = 255 ∨ eb j = 255 then .nan else f32.value (rne32 ((blockSum
      ((List.range (min 32 (l.k - 32 * j))).filterMap fun x => (rv.getD (32 * j + x) none).map fun a =>
        FVal.mul a ((l.fmtB.decode (l.code (32 * j + x) i)).getD .nan))).scale
          ((eas.getD j 127 : Int) - 127 + ((eb j : Int) - 127))))) →
    column l rv eas i =
      (List.range ((l.k + 31) / 32 - 1)).foldl (fun acc j => f32.value (rne32 (exactAdd acc (blk (j + 1))))) (blk 0)) ∧
  (∀ (x : FVal) (q : Bool → Nat → Int → Rat) (val : FVal → Rat),
    (∀ u n e, q u n e = (if u then -(n : Rat) else n) * (2 : Rat) ^ e) → (∀ u n e, val (.num u n e) = q u n e) →
    (∀ v, rne32 v = (f32.round .rne false v).code) ∧
    (∀ (u t : Bool) (n k : Nat) (e f : Int), ∃ v g h, exactAdd (.num u n e) (.num t k f) = .num v g h ∧
      q v g h = q u n e + q t k f ∧ (q u n e + q t k f = 0 → v = (u && t))) ∧
    exactAdd .nan x = .nan ∧ exactAdd x .nan = .nan ∧
    (∀ u t n e, exactAdd (.inf u) (.inf t) = (if u = t then .inf u else .nan) ∧
      exactAdd (.inf u) (.num t n e) = .inf u ∧ exactAdd (.num t n e) (.inf u) = .inf u) ∧
    (∀ l : List FVal, (.nan ∈ l → blockSum l = .nan) ∧ (.inf true ∈ l → .inf false ∈ l → blockSum l = .nan) ∧
      (∀ u, .nan ∉ l → .inf u ∈ l → .inf (!u) ∉ l → blockSum l = .inf u) ∧
      ((∀ y ∈ l, ∃ u n e, y = .num u n e) → ∃ u n e, blockSum l = .num u n e ∧ q u n e = (l.map val).sum ∧
        ((l.map val).sum = 0 → (u = true ↔ l ≠ [] ∧ ∀ y ∈ l, ∃ e, y = .num true 0 e))))) ∧
  (∀ (l : Latch) (r : Row) (active : List Nat) (flat : Nat) (used : Nat → Prop) (codeA : Nat → Option FVal) (codeB : Nat → Nat → Option FVal)
    (waits poison : Prop),
    (∀ k, used k ↔ k < l.k ∧ r.skip k ≠ .full 1) → (∀ k, codeA k = l.fmtA.decode (r.codes k).num) →
    (∀ k i, codeB k i = l.fmtB.decode (l.code k i)) →
    (waits ↔ (∃ k < l.k, r.skip k = .empty) ∨ (∃ k, used k ∧ r.codes k = .empty) ∨ ∃ j < (l.k + 31) / 32, r.scales j = .empty) →
    (poison ↔ (∃ k < l.k, r.skip k = .poison) ∨ (∃ k, used k ∧ (r.codes k = .poison ∨ l.poison.getLsbD k = true)) ∨
      ∃ j < (l.k + 31) / 32, r.scales j = .poison) →
    (rowState l r active flat = .wait ↔ waits) ∧ (rowState l r active flat = .poison ↔ ¬waits ∧ poison) ∧
    (¬waits → ¬poison → active = [] → rowState l r active flat = .ready [] []) ∧
    (¬waits → ¬poison → active ≠ [] →
      (∀ k, used k → codeA k = none → (∀ m < k, used m → codeA m ≠ none) →
        rowState l r active flat = .reserved { cause := 10, elem := some (flat + k) }) ∧
      ((∀ k, used k → codeA k ≠ none) →
        (∀ k i before after, used k → active = before ++ i :: after → codeB k i = none → (∀ j ∈ before, codeB k j ≠ none) →
          (∀ m < k, used m → ∀ j ∈ active, codeB m j ≠ none) →
          rowState l r active flat = .reserved { cause := 10, info := 2, elem := some (k * l.n + i) }) ∧
        ((∀ k, used k → ∀ i ∈ active, codeB k i ≠ none) → rowState l r active flat = .ready
          ((List.range l.k).map fun k => if r.skip k = .full 1 then none else codeA k)
          ((List.range ((l.k + 31) / 32)).map fun j => (r.scales j).num)))))

/-! ### Reel tiles (10) -/

/-- R202, R204, R205, R207 to R212: making a reel tile draws an entry and gives its handle; cutting blanks the handle, cuts the
entry and draws two children that share its root; splicing the two children gives the parent back, with its generation, and
frees theirs with theirs advanced; freeing a root without children frees its entry; a handle moved within its own work
item changes registers; `hinfo` reads the entry.
The model's own reading, and no rule's words: which entry is drawn, and when one is reused (logs 11, 55, 56). -/
def Obligations.ReelHandles : Prop :=
  (∀ (s s1 : State) (d a b : BitVec 6) (nw : BitVec 1) (r root : Root) (n cl : Nat) (drawn : Option (Nat × Nat)),
    s.alone → cl = clusterOf s.cur.core → s.myHandle d = .blank → geometry (s.val a) s.me.fmt = some r →
    s.reelStorage r (s.val b) = .ok root → s.canDraw 1 = true → s.overlapsReleasing r (s.val b) = false →
    s.draw = (s1, n, drawn) →
    exec (.rnew d a b nw) s = .next ((s1.setLin cl n { s1.lin cl n with
      st := 1, root := root, r0 := 0, c0 := 0, rows := root.rows, cols := root.cols, parent := none, side := 0, axis := 0
      cutAt := 0, kids := 0, drawn := drawn, move := none }).setHandle d (handleImage n (s1.lin cl n).gen)).passOn) ∧
  (∀ (s : State) (d a b : BitVec 6) (nw axis : BitVec 1) (cl p g at_ : Nat) (x : Lineage),
    s.alone → cl = clusterOf s.cur.core → s.me.work = none → s.myHandle a = .live p g → x = s.lin cl p → x.st = 1 → x.gen = g → p < 1024 →
    at_ = (s.val b).toNat → 0 < at_ → at_ < (if axis = 0 then x.rows else x.cols) →
    (axis = 1 → reelWidth x.root.fmt = 4 → at_ % 2 = 0) → d ≠ a → d + 1 ≠ a → d.toNat < 15 →
    s.myHandle d = .blank → s.myHandle (d + 1) = .blank → s.canDraw 2 = true → Tab.wf Lineage.start s.lineage = true → (∀ e, (s.lin cl e).gen < 65536) →
    ∃ u lo hi, exec (.rcut d a b nw axis) s = .next u ∧ lo ≠ hi ∧ lo ≠ p ∧ hi ≠ p ∧ (s.lin cl lo).st = 0 ∧ (s.lin cl hi).st = 0 ∧
      u.lin cl p = { x with st := 2, kids := 2 } ∧
      (u.lin cl lo).root = x.root ∧ (u.lin cl hi).root = x.root ∧ (u.lin cl lo).parent = some p ∧ (u.lin cl hi).parent = some p ∧
      (u.lin cl lo).st = 1 ∧ (u.lin cl hi).st = 1 ∧
      (if axis = 0 then (u.lin cl lo).rows = at_ ∧ (u.lin cl hi).rows = x.rows - at_ ∧ (u.lin cl hi).r0 = x.r0 + at_ ∧
          (u.lin cl lo).cols = x.cols ∧ (u.lin cl hi).cols = x.cols
        else (u.lin cl lo).cols = at_ ∧ (u.lin cl hi).cols = x.cols - at_ ∧ (u.lin cl hi).c0 = x.c0 + at_ ∧
          (u.lin cl lo).rows = x.rows ∧ (u.lin cl hi).rows = x.rows) ∧
      u.myHandle a = .blank ∧ u.myHandle d = .live lo (s.lin cl lo).gen ∧ u.myHandle (d + 1) = .live hi (s.lin cl hi).gen ∧
      u = { (s.setMe { s.me with h := u.me.h } : State) with lineage := u.lineage }.passOn) ∧
  (∀ (s : State) (d a b : BitVec 6) (cl p ea eb ga gb : Nat) (x y : Lineage),
    s.alone → cl = clusterOf s.cur.core → s.myHandle a = .live ea ga → s.myHandle b = .live eb gb → x = s.lin cl ea → y = s.lin cl eb →
    x.st = 1 → y.st = 1 → x.gen = ga → y.gen = gb → a ≠ b → ea ≠ eb → x.parent = some p → y.parent = some p → x.side = 0 → p ≠ ea → p ≠ eb →
    x.drawn = none → y.drawn = none → (s.myHandle d = .blank ∨ d = a ∨ d = b) → Tab.wf Lineage.start s.lineage = true →
    p < 1024 → (s.lin cl p).gen < 65536 →
    ∃ u, exec (.rsplc d a b) s = .next u ∧ u.lin cl p = { s.lin cl p with st := 1, kids := 0 } ∧
      (u.lin cl ea).st = 0 ∧ (u.lin cl eb).st = 0 ∧ (u.lin cl ea).gen = (ga + 1) % 65536 ∧ (u.lin cl eb).gen = (gb + 1) % 65536 ∧
      u.myHandle d = .live p (s.lin cl p).gen ∧ (a ≠ d → u.myHandle a = .blank) ∧ (b ≠ d → u.myHandle b = .blank) ∧
      u = { (s.setMe { s.me with h := u.me.h } : State) with lineage := u.lineage }.passOn) ∧
  (∀ (s : State) (a : BitVec 6) (cl e g : Nat) (x : Lineage),
    s.alone → cl = clusterOf s.cur.core → s.myHandle a = .live e g → x = s.lin cl e → x.st = 1 → x.gen = g → x.parent = none →
    x.drawn = none → s.rootOpen cl x.root = false →
    exec (.rfree a) s = .next ((s.setLin cl e { x with st := 0, gen := (g + 1) % 65536, drawn := none, move := none }).setHandle a 0).passOn) ∧
  (∀ (s : State) (d a b : BitVec 6) (w : WorkItem) (l : Launch) (e g : Nat),
    s.alone → s.me.work = some w → Tab.find s.launches w.launch = some l → w.linear = (s.val b).toNat → w.linear < l.count →
    s.myHandle a = .live e g → s.matches_ (clusterOf s.cur.core) e g = true → s.myHandle d = .blank → a ≠ d →
    exec (.hmov d a b) s = .next ((s.setHandle a 0).setHandle d (Tab.get 0 s.me.h a.toNat &&& ~~~0x4000000000000000#64)).passOn) ∧
  (∀ (s : State) (d a : BitVec 6) (e g : Nat) (x : Lineage),
    s.alone → s.myHandle a = .live e g → x = s.lin (clusterOf s.cur.core) e → x.st = 1 → x.gen = g →
    exec (.hinfo d a 0#2) s = .next (s.gave d (BitVec.ofNat 64 (x.rows - 1 + (x.cols - 1) * 2 ^ 16 + x.root.fcode * 2 ^ 32))) ∧
    exec (.hinfo d a 1#2) s = .next (s.gave d (x.root.base + BitVec.ofNat 64 (x.r0 * x.root.pitch + x.c0 * reelWidth x.root.fmt / 8))) ∧
    exec (.hinfo d a 2#2) s = .next (s.gave d (BitVec.ofNat 64 (e + g * 2 ^ 10 + (match x.parent with
      | none => 2 ^ 54
      | some p => p * 2 ^ 26 + x.cutAt % 2 ^ 16 * 2 ^ 36 + x.axis * 2 ^ 52 + x.side * 2 ^ 53)))) ∧
    exec (.hinfo d a 3#2) s = .next (s.gave d (BitVec.ofNat 64 (e + g * 2 ^ 16 + 2 ^ 63)))) ∧
  (∀ (s : State) (d a : BitVec 6) (k : BitVec 2), s.alone → s.calm → s.myHandle a = .blank →
    exec (.hinfo d a k) s = s.trapped { cause := 16, info := 1 } ∧ exec (.rfree a) s = s.trapped { cause := 16, info := 1 })

/-- R206, R213: `rld` reads, for element i, view element (row, column + i) of the handle's tile, from the cluster's window
wherever its storage lies; `rst` writes it there, leaving the neighbour of a 4-bit element. -/
def Obligations.ReelRows : Prop :=
  ∀ (s : State) (v : VCtl) (d a b c : BitVec 6) (cl e g w r c0 : Nat) (x : Lineage),
    cl = clusterOf s.cur.core → s.myHandle a = .live e g → x = s.lin cl e → x.st = 1 → x.gen = g → e < 1024 → g < 65536 →
    w = x.root.eltWidth → w ∈ [8, 16, 32, 64] → r = (s.val b).toNat % 2 ^ 32 → c0 = (s.val b).toNat / 2 ^ 32 → r < x.rows →
    (∀ i ∈ s.actives v, c0 + i < x.cols ∧ s.tideHeld s.me (x.place cl r (c0 + i)).2.1 (w / 8) = false ∧
      s.stalled (x.place cl r (c0 + i)).1 = false) →
    s.len v.ls ≤ vlmax w s.width → s.viewBusy cl (handleImage e g) = false → s.sound →
    (s.vready v 8 [] → s.settledV d w = true → d.toNat < 32 → x.open_ = 0 →
      (s.setLin cl e x).fills (exec (.rld v d a b) s) d w (s.into v d w fun i =>
        let n := s.readNat (x.place cl r (c0 + i)).1 (w / 8)
        if reelWidth x.root.fmt = 4 then (if (x.place cl r (c0 + i)).2.2 then n / 16 else n % 16) else n)) ∧
    (s.vready v 8 [(c, w)] → x.open_ = 0 →
      exec (.rst v a b c) s = .next ((s.actives v).foldl (fun t i =>
        let p := (x.place cl r (c0 + i)).1
        let k := (s.lane c w i).num
        if reelWidth x.root.fmt = 4 then
          let old := t.readNat p 1
          t.storeAt p 1 (if (x.place cl r (c0 + i)).2.2 then old % 16 + 16 * (k % 16) else old / 16 * 16 + k % 16)
        else t.storeAt p (w / 8) k) (s.setLin cl e x)).passOn)

/-! ### Atomics, links and reductions (15) -/

/-- R274, R288, R290, R291, R292: a scalar atomic reads the old value, writes the new one and gives the old one, sign-extended
for `.i32`; one that releases in the pool writes dirty far lines back before it, one that acquires there discards clean ones
after it.
`Combining` says what a sum, a minimum, a maximum and a remote operation give. -/
def Obligations.ScalarAtomics : Prop :=
  Combining ∧
  ∀ (s before : State) (d a b c : BitVec 6) (ty : Ty) (ord : BitVec 2) (va : Word) (p : Place) (w old x y : Nat) (after : Nat → State),
    s.alone → va = s.val a → w = ty.width / 8 → s.puts .atomic .data va w p → s.tideHeld s.me va w = false → s.poisoned p = false →
    before = (if p.pooled ∧ ord.getLsbD 1 = true then s.writeBackAll else s) → old = before.readNat p w →
    x = (s.val b).toNat % 2 ^ ty.width → y = (s.val c).toNat % 2 ^ ty.width →
    (∀ n, after n = ((if p.pooled ∧ ord.getLsbD 0 = true then (before.storeAt p w n).discardClean else before.storeAt p w n).gave d
      (if ty = .i32 then (BitVec.ofNat 32 old).signExtend 64 else BitVec.ofNat 64 old))) →
    exec (.amoSwap d a b ty ord) s = .next (after x) ∧
    exec (.amoCas d a b c ty ord) s = .next (after (if old = y then x else old)) ∧
    exec (.amoAdd d a b ty ord) s = .next (after ((old + x) % 2 ^ ty.width)) ∧
    exec (.amoFadd d a b ty ord) s = .next (after (feAdd ty .rne old x)) ∧
    exec (.amoAnd d a b ty ord) s = .next (after (old &&& x)) ∧
    exec (.amoOr d a b ty ord) s = .next (after (old ||| x)) ∧
    exec (.amoXor d a b ty ord) s = .next (after (old ^^^ x)) ∧
    exec (.amoMin d a b ty ord) s = .next (after (if floatTy ty then feMin ty old x else intMin ty old x)) ∧
    exec (.amoMax d a b ty ord) s = .next (after (if floatTy ty then feMax ty old x else intMax ty old x)) ∧
    exec (.amoMinn d a b ty ord) s = .next (after (intMin ty old x)) ∧
    exec (.amoMaxn d a b ty ord) s = .next (after (intMax ty old x))

/-- R293, R294: a vector atomic, plain or by an identifier, performs its active elements in ascending order, each on what
those before it left, and with `ret` gives each the value it found. `f` gives the new value from the old one, the operand
and the compared one.
`Combining` says what a sum, a minimum, a maximum and a remote operation give.
The model's own reading, and no rule's words: the order of the elements (log 112). -/
def Obligations.VectorAtomics : Prop :=
  Combining ∧
  ∀ (s before : State) (v : VCtl) (d a b c : BitVec 6) (ty : Ty) (mode ord k : BitVec 2) (w : Nat) (t : Tid) (adr : Nat → Word)
    (high : Nat → Bool) (p : Nat → Place) (upto : (Nat → Nat → Nat → Nat) → List Nat → State)
    (goes : (Nat → Nat → Nat → Nat) → (BitVec 1 → Instr) → Prop),
    w = ty.width → s.vready v w [(b, w), (c, w), (d, w)] → s.settledV d w = true → d.toNat < 32 → s.sound →
    s.aimed v a b ty mode k t adr high →
    (∀ i ∈ s.actives v, s.puts .atomic .data (adr i) (w / 8) (p i) ∧ s.tideHeld s.me (adr i) (w / 8) = false) →
    before = (if (s.actives v).any (fun i => (p i).pooled) ∧ ord.getLsbD 1 = true then s.writeBackAll else s) →
    (∀ f l, upto f l = l.foldl (fun t i => t.storeAt (p i) (w / 8)
      (f (t.readNat (p i) (w / 8)) (s.lane c w i).num (s.lane d w i).num)) before) →
    (∀ f o, goes f o ↔ ∃ after : State, after = (if (s.actives v).any (fun i => (p i).pooled) ∧ ord.getLsbD 0 = true
        then (upto f (s.actives v)).discardClean else upto f (s.actives v)) ∧
      after.fills (exec (o 1#1) s) d w
        (s.into v d w fun i => (upto f ((s.actives v).filter fun j => decide (j < i))).readNat (p i) (w / 8)) ∧
      exec (o 0#1) s = .next after.passOn) →
    goes (fun _ x _ => x) (fun r => .vamoSwap v d a b c ty mode r ord k) ∧
    goes (fun o x y => if o = y then x else o) (fun r => .vamoCas v d a b c ty mode r ord k) ∧
    goes (fun o x _ => (o + x) % 2 ^ w) (fun r => .vamoAdd v d a b c ty mode r ord k) ∧
    goes (fun o x _ => feAdd ty .rne o x) (fun r => .vamoFadd v d a b c ty mode r ord k) ∧
    goes (fun o x _ => o &&& x) (fun r => .vamoAnd v d a b c ty mode r ord k) ∧
    goes (fun o x _ => o ||| x) (fun r => .vamoOr v d a b c ty mode r ord k) ∧
    goes (fun o x _ => o ^^^ x) (fun r => .vamoXor v d a b c ty mode r ord k) ∧
    goes (fun o x _ => if floatTy ty then feMin ty o x else intMin ty o x) (fun r => .vamoMin v d a b c ty mode r ord k) ∧
    goes (fun o x _ => if floatTy ty then feMax ty o x else intMax ty o x) (fun r => .vamoMax v d a b c ty mode r ord k) ∧
    goes (fun o x _ => intMin ty o x) (fun r => .vamoMinn v d a b c ty mode r ord k) ∧
    goes (fun o x _ => intMax ty o x) (fun r => .vamoMaxn v d a b c ty mode r ord k)

/-- R297, R298, R299: `vgl` gathers and links the lines of its active elements, dropping the links before; `vscc`, plain or by
an identifier, writes those active elements whose line is linked and unbroken and that are the highest at their address,
tells which in a mask, and drops every link; a write of a block breaks its links, whoever holds them.
The model's own reading, and no rule's words: which lines are linked, and the kind of access of `vscc` (log 71). -/
def Obligations.GatherLinkedScatterConditional : Prop :=
  (∀ (s : State) (v : VCtl) (d a b c : BitVec 6) (rm : Rm) (ty : Ty) (sat : BitVec 1) (mode k : BitVec 2) (w : Nat) (t : Tid)
    (adr : Nat → Word) (high : Nat → Bool) (p : Nat → Place), w = ty.width → s.vready v w [(b, w)] → s.sound →
    s.aimed v a b ty mode k t adr high →
    (mode = 0 → s.settledV d w = true → d.toNat < 32 → (∀ i ∈ s.actives v, s.reads .link (adr i) (w / 8) (p i)) →
      ∀ got : State, got = (s.actives v).foldl (fun t i => t.noteRead (p i)) s →
      (got.setMe { got.me with links := addLinks ((s.actives v).filterMap fun i => (p i).link) [] }).fills
        (exec (.vgl v d a b rm ty sat 0#2 k) s) d w (s.into v d w fun i => s.readNat (p i) (w / 8))) ∧
    (s.settledQ d = true → s.fullTo c w (s.len v.ls) = true →
      (∀ i ∈ s.actives v, s.puts .write .data (adr i) (Tid.bytesOf mode ty t) (p i) ∧
        s.tideHeld s.me (adr i) (Tid.bytesOf mode ty t) = false) →
      ∀ (wins : Nat → Bool) (after : State),
      (∀ i, wins i = (s.me.links.any (fun l => !l.broken && (p i).link == some (l.line, l.slot)) &&
        (s.actives v).all fun j => decide (adr j ≠ adr i) || high j != high i || decide (j ≤ i))) →
      after = ((s.actives v).filter wins).foldl (fun u i => u.scatter mode ty t (p i) (high i) (s.lane c w i).num) s →
      (after.setMe { after.me with links := [] }).marks (exec (.vscc v d a b c ty mode k) s) d fun i =>
        if s.len v.ls ≤ i then (Tab.get QReg.zero s.curCore.q d.toNat).get i
        else if (s.maskAt v.q.toNat i).num = 0 then .full 0 else .full (if wins i then 1 else 0))) ∧
  (∀ (s : State) (p : Place) (w v c sl : Nat) (t : Strand), s.strandAt c sl = some t → ∃ u, (s.storeAt p w v).strandAt c sl = some u ∧
    ∀ l ∈ u.links, p.link = some (l.line, l.slot) → l.broken = true)

/-- R302, R303: in a launch of one member an `xred` leaves its registers; with several it contributes once, waits, and combines
the contributions in the order in which they came, which is complete once every member's is there; outside a work item it
traps (29).
`Combining` says what a sum, a minimum, a maximum and a remote operation give.
The model's own reading, and no rule's words: the order of combining and the matching of contributions (logs 72, 101). -/
def Obligations.CrossDeviceReductions : Prop :=
  Combining ∧
  ∀ (s : State) (v : VCtl) (d a : BitVec 6) (ty : Ty) (g : BitVec 3) (w n : Nat) (item : WorkItem) (l : Launch),
    w = ty.width → n = s.len v.ls → s.vready v w [] → s.calm →
    (s.me.work = none →
      exec (.xredAdd v d a ty g) s = s.trapped { cause := 29, info := 1 } ∧ exec (.xredMin v d a ty g) s = s.trapped { cause := 29, info := 1 } ∧
      exec (.xredMax v d a ty g) s = s.trapped { cause := 29, info := 1 }) ∧
    (s.me.work = some item → Tab.find s.launches item.launch = some l → d.toNat + g.toNat < 32 →
      (∀ m ≤ g.toNat, s.settledV (d + BitVec.ofNat 6 m) w = true ∧ s.fullTo (d + BitVec.ofNat 6 m) w n = true) →
      ∀ goes : (Nat → Nat → Elt) → State → Out → Prop,
      (∀ f t o, goes f t o ↔ ∃ r : Nat → VReg, o = .next (t.withCore fun k => { k with
          v := (List.range (g.toNat + 1)).foldl (fun tab m => Tab.set VReg.zero tab (d.toNat + m) (r m)) k.v }).passOn ∧
        ∀ m ≤ g.toNat, ∀ i < 16384 / w, (r m).get w i = if n ≤ i then s.lane (d + BitVec.ofNat 6 m) w i else f m i) →
      (l.members ≤ 1 →
        goes (fun m i => s.lane (d + BitVec.ofNat 6 m) w i) s (exec (.xredAdd v d a ty g) s) ∧
        goes (fun m i => s.lane (d + BitVec.ofNat 6 m) w i) s (exec (.xredMin v d a ty g) s) ∧
        goes (fun m i => s.lane (d + BitVec.ofNat 6 m) w i) s (exec (.xredMax v d a ty g) s)) ∧
      (∀ (it : Item) (others : List Contribution) (mine : List (Nat × Nat)), 1 < l.members → s.gangBroken l = false →
        Tab.find l.items item.linear = some it → others.length + 1 = l.members → (∀ c ∈ others, c.member ≠ l.member) →
        others = s.matched item it.nxred →
        mine = (List.range ((g.toNat + 1) * n)).map (fun j => (j, (s.lane (d + BitVec.ofNat 6 (j / n)) w (j % n)).num)) →
        ∀ (fn : Nat) (o : RedOp) (out : Out), (fn = 0 ∧ o = .add ∧ out = exec (.xredAdd v d a ty g) s) ∨
            (fn = 1 ∧ o = .min ∧ out = exec (.xredMin v d a ty g) s) ∨ (fn = 2 ∧ o = .max ∧ out = exec (.xredMax v d a ty g) s) →
        (∀ c ∈ others, c.terms = [(s.val a).toNat, fn, Ty.code4 ty, g.toNat, n] ∧
          ∀ j < (g.toNat + 1) * n, ∃ x < 2 ^ 64, Tab.find c.vals j = some x) →
        goes (fun m i => .full (match (others ++ [(⟨item.launch, item.linear, it.nxred, l.member, [], mine⟩ : Contribution)]).map
              (fun c => Tab.get 0 c.vals (m * n + i)) with
            | [] => 0
            | x :: xs => xs.foldl (fun acc y => o.apply ty false .rne acc y) x % 2 ^ w))
          ({ s.mapItem item.launch item.linear (fun i => { i with nxred := i.nxred + 1 }) with
              xreds := s.xreds.filter (fun c =>
                !(c.launch == item.launch && c.linear == item.linear && c.inst == it.nxred && c.terms != []))
              out := s.out ++ [.xred (l.gseq.getD 0) item.linear it.nxred
                [(s.val a).toNat, fn, Ty.code4 ty, g.toNat, n] mine] } : State) out))

/-! ### Fences (14) -/

/-- R280, R283, R286, R287: the fences, with nothing older in flight, complete at once; those of the pool write dirty far lines
back before a release and discard clean ones after an acquire; the access forms read, or write, the pool itself.
The model's own reading, and no rule's words: what a fence waits for, and what its own access counts as (logs 69, 70). -/
def Obligations.Fences : Prop :=
  ∀ (s : State) (d a b : BitVec 6) (p : Place), s.alone →
    exec .fence s = .next s.passOn ∧ exec .fenceFab s = .next s.passOn ∧ exec .fenceFabAcq s = .next s.passOn ∧
    exec .fenceFabRel s = .next s.passOn ∧
    exec .fencePool s = .next s.writeBackAll.discardClean.passOn ∧ exec .fencePoolAcq s = .next s.discardClean.passOn ∧
    exec .fencePoolRel s = .next s.writeBackAll.passOn ∧
    (s.reads (.fence false) (s.val a) 8 p →
      exec (.fenceFabAcqLoad d a) s = .next (s.gave d (BitVec.ofNat 64 (s.readNat p 8)))) ∧
    (s.reads (.fence true) (s.val a) 8 p → ∀ t, t = (match p with | .far x k => s.evictFar (farKey x k) | _ => s) →
      exec (.fencePoolAcqLoad d a) s = .next (t.discardClean.gave d (BitVec.ofNat 64 (t.readNat p 8)))) ∧
    (s.puts .write (.fence false) (s.val a) 8 p →
      exec (.fenceFabRelStore a b) s = .next (s.storeAt p 8 (s.val b).toNat).passOn) ∧
    (s.puts .write (.fence true) (s.val a) 8 p →
      exec (.fencePoolRelStore a b) s = .next (match p with
        | .far x k => (s.writeBackAll.storeAt p 8 (s.val b).toNat).evictFar (farKey x k)
        | _ => s.writeBackAll.storeAt p 8 (s.val b).toNat).passOn) ∧
    (Tab.rising s.far none = true →
      (∀ l ∈ s.writeBackAll.far, l.2.dirty = 0) ∧ s.writeBackAll.discardClean.far = [])

/-! ### Translation control, counters and engines (11, 12, 13) -/

/-- R227, R228, R234 to R236, R243: the invalidations remove the cached entries that they cover, and complete at once where no
access that was translated through them is still held, else stay in flight; `pprobe` gives the leaf with its size code and its
permission bits as they stand, FRAME and KEY reading 0 at U, or the reason; the ASID instructions set, bind and drop address
spaces, or answer their codes; the traps of cause 26; `bank.mode` begins a switch, or answers.
The model's own reading, and no rule's words: what an invalidation removes, how `pprobe` translates, and when `bank.mode` answers (logs 12, 44, 53). -/
def Obligations.TranslationControl : Prop :=
  ∀ (s : State) (d a b : BitVec 6) (n : Nat) (va : Word), s.alone → n = (s.val a).toNat → va = s.val b →
    (s.me.lvl ≠ .u →
      (∀ (i : Instr) (u : State) (hit : Strand → Nat × PageRes → Bool), n ≤ 255 → canonical va = true →
        (i = .tlbinvPg a b ∧ u = (s.dropPage n va).retryEngines ∧ hit = (fun t p => t.asid == n && coversPage va p)) ∨
        (i = .tlbinvAs a ∧ u = (s.dropAsid n).retryEngines ∧ hit = (fun t _ => t.asid == n)) ∨
        (i = .tlbinvAll ∧ u = ({ s with stale := [] } : State).retryEngines ∧ hit = (fun _ _ => true)) →
        (s.heldBy hit = [] → exec i s = .next u.passOn) ∧
        (s.heldBy hit ≠ [] → s.cur.slotB = false → (∃ e l, decodeWord s.cur.word = .ok ⟨e, l, .one i⟩) →
          ∃ t, exec i s = .next t ∧ t.stale = u.stale ∧ t.me.r = s.me.r ∧ t.me.flight.length = 1)) ∧
      (s.calm →
        (255 < n → exec (.tlbinvPg a b) s = s.trapped { cause := 26, info := 1 } ∧
          exec (.tlbinvAs a) s = s.trapped { cause := 26, info := 1 } ∧
          exec (.asidSwSet a) s = s.trapped { cause := 26, info := 1 }) ∧
        (n ≤ 255 → canonical va = false → exec (.tlbinvPg a b) s = s.trapped { cause := 26, info := 2 }) ∧
        (n ≤ 255 → Tab.find s.asids n = none → exec (.asidSwSet a) s = s.trapped { cause := 26, info := 3 })) ∧
      (n ≤ 255 → (Tab.find s.asids n).isSome = true → exec (.asidSwSet a) s = .next (s.setMe { s.me with asid := n }).passOn) ∧
      (255 < n → exec (.asidSwBind d a b) s = .next (s.gave d (BitVec.ofInt 64 (-32))) ∧
        exec (.asidSwDrop d a) s = .next (s.gave d (BitVec.ofInt 64 (-32)))) ∧
      (n ≤ 255 → (Tab.find s.asids n).isSome = true → exec (.asidSwBind d a b) s = .next (s.gave d (BitVec.ofInt 64 (-33)))) ∧
      (n ≤ 255 → Tab.find s.asids n = none →
        (∀ bs, s.recordRead va = .ok bs →
          (va.toNat % 16 ≠ 0 → exec (.asidSwBind d a b) s = .next (s.gave d (BitVec.ofInt 64 (-34)))) ∧
          (va.toNat % 16 = 0 → asidRecord bs = none →
            exec (.asidSwBind d a b) s = .next ((s.ownNote s.me s.cur.core va 2).gave d (BitVec.ofInt 64 (-34)))) ∧
          (∀ x, va.toNat % 16 = 0 → asidRecord bs = some x → exec (.asidSwBind d a b) s =
            .next (({ s.ownNote s.me s.cur.core va 2 with asids := Tab.put s.asids n x } : State).gave d 0))) ∧
        (∀ t, s.recordRead va = .trap t → s.calm → s.cur.slotB = false →
          (∃ e l, decodeWord s.cur.word = .ok ⟨e, l, .one (.asidSwBind d a b)⟩) → s.faulted t (exec (.asidSwBind d a b) s))) ∧
      (n = 0 → exec (.asidSwDrop d a) s = .next (s.gave d (BitVec.ofInt 64 (-38)))) ∧
      (0 < n → n ≤ 255 → Tab.find s.asids n = none → exec (.asidSwDrop d a) s = .next (s.gave d (BitVec.ofInt 64 (-36)))) ∧
      (0 < n → n ≤ 255 → (Tab.find s.asids n).isSome = true → s.asidUsed n = true →
        exec (.asidSwDrop d a) s = .next (s.gave d (BitVec.ofInt 64 (-37)))) ∧
      (0 < n → n ≤ 255 → (Tab.find s.asids n).isSome = true → s.asidUsed n = false →
        exec (.asidSwDrop d a) s = .next (({ s.dropAsid n with asids := Tab.del s.asids n } : State).gave d 0)) ∧
      (∀ m answers : Int, m = va.toNat →
        (2048 ≤ n ∧ answers = -48 ∨ n < 2048 ∧ 3 < m ∧ answers = -49 ∨
          n < 2048 ∧ m ≤ 3 ∧ (s.bank n).switch = none ∧
            ((m = 3 ∨ m = (s.bank n).mode) ∧ answers = (s.bank n).mode ∨
              m ≠ 3 ∧ m ≠ (s.bank n).mode ∧
                (s.bankReel n = true ∧ answers = -50 ∨
                  s.bankReel n = false ∧ (s.bank n).item ≠ none ∧ answers = -51 ∨
                  s.bankReel n = false ∧ (s.bank n).item = none ∧ (s.bank n).mode = 2 ∧ (s.bank n).queue ≠ [] ∧ answers = -52))) →
        exec (.bankMode d a b) s = .next (s.gave d (BitVec.ofInt 64 answers))) ∧
      (n < 2048 → va.toNat < 3 → va.toNat ≠ (s.bank n).mode → (s.bank n).switch = none → s.bankReel n = false →
        (s.bank n).item = none → ((s.bank n).mode = 2 → (s.bank n).queue = []) → s.cur.slotB = false →
        (∃ e l, decodeWord s.cur.word = .ok ⟨e, l, .one (.bankMode d a b)⟩) →
        ∃ u, exec (.bankMode d a b) s = .next u ∧ (u.bank n).switch = some va.toNat ∧ (u.bank n).mode = (s.bank n).mode ∧
          u.agenda = s.agenda ++ [.bankModeSwitchComplete (n / 256) (n % 256)] ∧ u.me.r = s.me.r ∧ u.me.flight.length = 1)) ∧
    (∀ l, s.leafFor (clusterOf s.cur.core) s.me.asid s.me.lvl .read (.scalar64 false) (s.val a) = .ok l →
      exec (.pprobe d a) s = .next (s.gave d (((l.raw &&& ~~~0xC0#64) ||| BitVec.ofNat 64 (l.size * 64)) &&&
        (if s.me.lvl = .u then ~~~0x01FFFFFFFFFF0000#64 else -1)))) ∧
    (∀ r, s.leafFor (clusterOf s.cur.core) s.me.asid s.me.lvl .read (.scalar64 false) (s.val a) = .error r →
      exec (.pprobe d a) s = .next (s.gave d (BitVec.ofNat 64 r)))

/-- R262 to R273: `wait.tl` passes once DONE has reached its value and waits until then; `tl.next` gives the number after ISS;
a command takes that number, pins the counter, and begins with nothing older to wait for; `smap.set` installs an entry or
answers its code; `tcopy.res` lets a stopped command go on.
The model's own reading, and no rule's words: when a command begins and what `tcopy.res` reads (logs 73, 84). -/
def Obligations.CountersAndEngines : Prop :=
  ∀ (s : State) (d a b c : BitVec 6) (n : Nat) (k : Ctr), s.alone →
    (s.me.tl[d.toNat]? = some n → k = s.ctr s.cur.core n →
      exec (.tlNext a d) s = .next (s.gave a (BitVec.ofNat 64 (k.iss + 1))) ∧
      ((s.val b).toNat ≤ k.done → (s.val b).toNat ≤ k.iss → exec (.waitTl d b) s = .next s.passOn) ∧
      (k.done < (s.val b).toNat → (s.val b).toNat ≤ k.iss →
        exec (.waitTl d b) s = .next ((s.setMe { s.me with wait := 4 }).setNote (.wait 4))) ∧
      (k.iss < (s.val b).toNat → s.calm → exec (.waitTl d b) s = s.trapped { cause := 20 }) ∧
      (s.outstanding s.cur.core < 64 → k.iss < 2 ^ 63 → Tab.find s.cmds s.nextCmd = none →
        (∀ x ∈ s.cmds, x.2.core = s.cur.core → x.2.ctr = n → x.2.num ≠ k.iss + 1) →
        ∀ makes : Cmd → State → Out → Prop,
        (∀ cmd t o, makes cmd t o ↔ ∃ u, o = .next u ∧ Tab.find u.cmds s.nextCmd = some { cmd with
            core := s.cur.core, ctr := n, num := k.iss + 1, lvl := s.me.lvl, begun := true, stop := none, sent := false
            logged := false, fin := false } ∧
          u.ctr s.cur.core n = { k with iss := k.iss + 1, pins := k.pins + 1 } ∧
          (∀ m, m ≠ s.nextCmd → Tab.find u.cmds m = Tab.find s.cmds m) ∧
          u = ({ t.setCtr s.cur.core n { k with iss := k.iss + 1, pins := k.pins + 1 } with
            cmds := u.cmds, nextCmd := s.nextCmd + 1 } : State).passOn) →
        (∀ cmd : Cmd, cmd.kind = 1 → cmd.asid = s.me.asid → cmd.dst = s.val a → cmd.src = s.val b → cmd.len = (s.val c).toNat →
          cmd.entry = 0 → rangesOverlap (s.val a) (s.val b) (s.val c).toNat = false →
          makes cmd { s with agenda := s.agenda ++ [if s.val c = 0 then .commandComplete s.nextCmd else .tcopyChunk s.nextCmd] }
            (exec (.tcopy d a b c) s)) ∧
        (s.me.lvl ≠ .u →
          (∀ (cmd : Cmd) (l : Leaf), cmd.kind = 2 → cmd.asid = s.me.asid → cmd.dst = s.val a → cmd.src = s.val b → cmd.len = 65536 →
            cmd.entry = 0 → s.migrates s.me.asid (s.val a) (s.val b) = true → s.leafOf s.me.asid (s.val a) = .ok l →
            makes cmd { s with agenda := s.agenda ++ [.migrationLineCopy s.nextCmd],
                               migs := ⟨l.cls, l.frame, s.val b, 0, s.nextCmd⟩ :: s.migs } (exec (.tcopyMig d a b) s)) ∧
          (∀ (cmd : Cmd) (m : Smap), Tab.find s.smaps (s.val a).toNat = some m → m.grow = none → m.k < 24 → (s.val b).toNat % 64 = 0 →
            cmd.kind = 3 → cmd.asid = m.asid → cmd.dst = s.val b → cmd.src = m.qbase → cmd.len = 2 ^ m.k * m.rb →
            cmd.entry = (s.val a).toNat →
            makes cmd { s with
                agenda := s.agenda ++ [.slabLineCopy s.nextCmd]
                smaps := Tab.put s.smaps (s.val a).toNat { m with qbase := s.val b, k := m.k + 1, grow := some (m.qbase, 0) } }
              (exec (.slabGrow d a b) s)) ∧
          (∀ (cmd : Cmd) (m : Smap), Tab.find s.smaps (s.val a).toNat = some m → m.grow = none → s.val b = 0 →
            cmd.kind = 4 → cmd.asid = s.me.asid → cmd.dst = 0 → cmd.src = 0 → cmd.len = 0 → cmd.entry = (s.val a).toNat →
            makes cmd { s with agenda := s.agenda ++ [.commandComplete s.nextCmd], smaps := Tab.del s.smaps (s.val a).toNat }
              (exec (.smapInv d a b) s)) ∧
          (∀ (cmd : Cmd) (m : Smap) (bs : List Byte), Tab.find s.smaps (s.val a).toNat = some m → m.grow = none →
            s.smapRecord (s.val b) = some (.ok bs) → cmd.kind = 4 → cmd.asid = s.me.asid → cmd.dst = dwordOf bs 0 →
            cmd.src = dwordOf bs 1 → cmd.len = (dwordOf bs 2).toNat → cmd.entry = (s.val a).toNat →
            makes cmd { s.ownNote s.me s.cur.core (s.val b) 4 with
                agenda := s.agenda ++ [.commandComplete s.nextCmd]
                smaps := Tab.put s.smaps (s.val a).toNat (⟨dwordOf bs 0, dwordOf bs 1, field (dwordOf bs 2) 0 32,
                  field (dwordOf bs 2) 32 5, field (dwordOf bs 2) 40 8, field (dwordOf bs 2) 48 16, none⟩ : Smap) }
              (exec (.smapInv d a b) s)))) ∧
      (s.outstanding s.cur.core < 64 → s.calm →
        (rangesOverlap (s.val a) (s.val b) (s.val c).toNat = true → exec (.tcopy d a b c) s = s.trapped { cause := 25 }) ∧
        (s.me.lvl ≠ .u → s.migrates s.me.asid (s.val a) (s.val b) = false →
          exec (.tcopyMig d a b) s = s.trapped { cause := 25 }) ∧
        (s.me.lvl ≠ .u → (Tab.find s.smaps (s.val a).toNat).all (fun m => m.grow.isSome) = true →
          exec (.slabGrow d a b) s = s.trapped { cause := 24 } ∧
          (s.smapRecord (s.val b) ≠ some .held → exec (.smapInv d a b) s = s.trapped { cause := 24 }))) ∧
      (s.me.lvl ≠ .u → ∀ bs id cmd, s.resumeRecord (s.val a) = .ok bs → s.stoppedBy s.cur.core n (recordOf bs) = some (id, cmd) →
        exec (.tcopyRes d a) s = .next (((s.ownNote s.me s.cur.core (s.val a) 8).putCmd id
          { cmd with src := dwordOf bs 3, stop := none, sent := false, logged := false }).due (if cmd.kind = 3 then .slabLineCopy id else .tcopyChunk id)).passOn)) ∧
    (s.me.lvl ≠ .u →
      (16383 < (s.val a).toNat → exec (.smapSet d a b) s = .next (s.gave d (BitVec.ofInt 64 (-64)))) ∧
      ((s.val a).toNat ≤ 16383 → (Tab.find s.smaps (s.val a).toNat).isSome = true →
        exec (.smapSet d a b) s = .next (s.gave d (BitVec.ofInt 64 (-65)))) ∧
      (∀ ls, (s.val a).toNat ≤ 16383 → Tab.find s.smaps (s.val a).toNat = none → (s.val b).toNat % 32 ≠ 0 →
        s.pages (clusterOf s.cur.core) s.me.asid s.me.lvl .read .data (s.val b) (pagesOf (s.val b) 32) = .ok ls →
        exec (.smapSet d a b) s = .next (s.gave d (BitVec.ofInt 64 (-66)))) ∧
      (∀ bs ls, (s.val a).toNat ≤ 16383 → Tab.find s.smaps (s.val a).toNat = none → (s.val b).toNat % 32 = 0 →
        s.pages (clusterOf s.cur.core) s.me.asid s.me.lvl .read .data (s.val b) (pagesOf (s.val b) 32) = .ok ls →
        s.ownRead s.me s.cur.core (fun r x => pageFault r .read x) (s.val b) 4 = .ok bs → (smapRecordOk bs = false →
          exec (.smapSet d a b) s = .next ((s.ownNote s.me s.cur.core (s.val b) 4).gave d (BitVec.ofInt 64 (-66)))) ∧
        (smapRecordOk bs = true → exec (.smapSet d a b) s = .next (({ s.ownNote s.me s.cur.core (s.val b) 4 with smaps := Tab.put s.smaps (s.val a).toNat (⟨dwordOf bs 0,
          dwordOf bs 1, field (dwordOf bs 2) 0 32, field (dwordOf bs 2) 32 5, field (dwordOf bs 2) 40 8,
            field (dwordOf bs 2) 48 16, none⟩ : Smap) } : State).gave d 0))))

/-! ### Traps, the return, and moving strands (16) -/

/-- R307, R308, R309, R310: taking an exception. The trap registers tell what struck and where, the context image is
written, and the strand goes on at level S under ASID 0 at XVEC with XTF and XDEPTH advanced, its handles, records,
identifiers, counters and work item its own, and without the lanes; where delivery fails the strand is stopped with the
trap pending, and an error record of kind 9 says so.
R312, R313: what the context image of a strand holds in its header, its scalar registers and its identifiers, each run of
bytes at its offset.
The model's own reading, and no rule's words: the scalar state, FCTL and link of an image, that a link which stood when the handler
began asks nothing of it, and what is kept beside an image (logs 8, 39, 46, 115). -/
def Obligations.TakingTraps : Prop :=
  (∀ (s : State) (core slot : Nat) (t : Trap) (base : Word) (st rec : Strand) (k : Core),
    s.strandAt core slot = some st → st.lvl ≠ .m → k = s.core core → t.log = none → t.cause < 256 → t.elem.all (fun e => decide (e < 2 ^ 17)) = true →
    t.info < 2 ^ 32 → t.word < 4 → t.pos < 8 → rec = st.record t base →
    (rec.xpc = base ∧ rec.xaddr = t.addr ∧ rec.xinfo = t.xinfo ∧ field rec.xcause 0 8 = t.cause ∧
      field rec.xcause 8 2 = st.lvl.num ∧ field rec.xcause 10 2 = t.word ∧ rec.xcause.getLsbD 12 = t.slotB ∧
      field rec.xcause 16 32 = t.info ∧ rec.xel.getLsbD 63 = t.elem.isNone ∧ field rec.xel 20 3 = t.pos ∧
      (∀ e, t.elem = some e → field rec.xel 0 17 = e) ∧ rec.r = st.r ∧ rec.flight = st.flight ∧ rec.xtf = st.xtf) ∧
    (st.xdepth < 15 → k.xvec ≠ 0 → k.xvec.toNat % 8 = 0 → s.vectorBad core k.xvec = false →
      (∀ ls w, s.imageLines (clusterOf core) 0 st.xtf (s.image core slot rec) = .ok ls → (ls.all fun l => !s.poisoned l.1) = true →
        w = s.putImage rec ls →
        ∃ u v, s.takeTrap core slot t base = .next u ∧ u.strandAt core slot = some v ∧
          v.lvl = .s ∧ v.asid = 0 ∧ v.pc = k.xvec ∧ v.r = st.saved ∧ v.kept = st.saved.plink.isSome :: st.kept ∧ v.flight = [] ∧
          v.xcause = rec.xcause ∧ v.xel = rec.xel ∧ v.xpc = base ∧ v.xaddr = t.addr ∧ v.xinfo = t.xinfo ∧
          v.xtf = st.xtf + 0x100000#64 ∧ v.xdepth = st.xdepth + 1 ∧ v.landing = false ∧ v.monitor = none ∧ v.pend = none ∧
          v.h = st.h ∧ v.fmt = st.fmt ∧ v.td = st.td ∧ v.tl = st.tl ∧ v.work = st.work ∧ (∀ l ∈ v.links, l.broken = true) ∧
          (u.core core).holder ≠ some slot ∧ (u.core core).xvec = k.xvec ∧ (u.core core).ctrs = (w.core core).ctrs ∧
          u.hbm = w.hbm ∧ u.pool = w.pool ∧ u.far = w.far ∧ (∀ b, (u.bank b).data = (w.bank b).data) ∧ u.erecs = w.erecs) ∧
      (∀ x, s.imageLines (clusterOf core) 0 st.xtf (s.image core slot rec) = .error x →
        s.takeTrap core slot t base = .next (s.doubleFault core slot rec t)) ∧
      (∀ ls l, s.imageLines (clusterOf core) 0 st.xtf (s.image core slot rec) = .ok ls → l ∈ ls → s.poisoned l.1 = true →
        s.takeTrap core slot t base = .next (s.doubleFault core slot rec t))) ∧
    (15 ≤ st.xdepth ∨ k.xvec = 0 ∨ k.xvec.toNat % 8 ≠ 0 ∨ s.vectorBad core k.xvec = true →
      s.takeTrap core slot t base = .next (s.doubleFault core slot rec t)) ∧
    (∃ v, (s.doubleFault core slot rec t).strandAt core slot = some v ∧
      v = { rec with stopped := true, pend := some (st.pend.getD t) } ∧
      (s.doubleFault core slot rec t).hbm = s.hbm ∧ (s.doubleFault core slot rec t).pool = s.pool ∧
      (s.doubleFault core slot rec t).far = s.far ∧
      (∀ b, ((s.doubleFault core slot rec t).bank b).data = (s.bank b).data) ∧
      (s.doubleFault core slot rec t).erecSeq = s.erecSeq + 1 ∧
      ∃ d, Tab.find (s.doubleFault core slot rec t).erecs (s.erecSeq + 1) = some d ∧ (d.headD 0).toNat % 256 = 9)) ∧
  (∀ (s : State) (core slot : Nat) (t : Strand) (k : Core), k = s.core core → t.vec = none → t.work = none → k.holder ≠ some slot →
    t.flight = [] → t.lvl ≠ .m → core < 512 → slot < 8 → t.asid < 256 → t.wait < 16 → t.ntd < 65 → t.tl.length < 17 →
    (∃ h : List Byte, (0, h) ∈ s.image core slot t ∧ h.length = 256 ∧ ∀ d : Nat → Word, (∀ i, d i = BitVec.ofNat 64 (ofBytes ((h.drop (8 * i)).take 8))) →
      field (d 0) 0 16 = 0x5843 ∧ field (d 0) 16 8 = 1 ∧ field (d 0) 24 2 = t.lvl.num ∧ field (d 0) 26 1 = 0 ∧ field (d 0) 34 8 = t.asid ∧
      ((d 0).getLsbD 42 = t.r.plink.isSome) ∧ ((d 0).getLsbD 43 = t.pend.isSome) ∧ field (d 0) 44 4 = t.wait ∧ (d 0).getLsbD 48 = false ∧
      d 1 = t.pc ∧ d 2 = t.r.plink.getD 0 ∧ d 3 = t.r.frst ∧ d 4 = t.r.bsp ∧ d 5 = t.r.bslo ∧ d 6 = t.r.bslim ∧ d 7 = t.r.fctl ∧
      d 8 = t.xcause ∧ d 9 = t.xel ∧ d 10 = t.xpc ∧ d 11 = t.xaddr ∧ d 12 = t.xinfo ∧ d 13 = t.xtf ∧ d 14 = 0 ∧ d 15 = -1 ∧
      field (d 16) 11 9 = core ∧ field (d 16) 20 3 = slot ∧ field (d 17) 0 8 = 0 ∧ field (d 17) 16 7 = t.ntd ∧ field (d 17) 23 5 = t.tl.length) ∧
    (∃ b : List Byte, (0x100, b) ∈ s.image core slot t ∧ ∀ i < 16, ofBytes ((b.drop (8 * i)).take 8) = (Tab.get 0 t.r.g i).toNat) ∧
    (∃ b : List Byte, (0x180, b) ∈ s.image core slot t ∧ ∀ i < 16, ∀ h, h = Tab.get 0 t.h i →
      ofBytes ((b.drop (8 * i)).take 8) = (if h.getLsbD 62 = true ∧
        (Tab.get Lineage.start s.lineage (1024 * clusterOf core + field h 0 10)).move = none then h &&& ~~~(1#64 <<< 62) else h).toNat) ∧
    (∃ b : List Byte, (0x200, b) ∈ s.image core slot t ∧ ∀ i < 16, ofBytes ((b.drop (8 * i)).take 8) = (Tab.get 0 t.fmt i).toNat) ∧
    (∃ b : List Byte, (0x400, b) ∈ s.image core slot t ∧ ∀ p < 256, (b.getD p 0).toNat = Tab.get 0 t.r.sizes p % 256) ∧
    (∃ b : List Byte, (0x800, b) ∈ s.image core slot t ∧ ∀ p < 256, ofBytes ((b.drop (8 * p)).take 8) = (Tab.get 0 t.r.phys p).toNat) ∧
    (∀ i < 64, ∃ b : List Byte, (0x1000 + 64 * i, b) ∈ s.image core slot t ∧ b.length = 64 ∧
      ofBytes b = if i < t.ntd then (Tab.get 0 t.td i).toNat else 0) ∧
    (∀ i, i < 256 → ∃ b : List Byte, (0xFC000 + 64 * i, b) ∈ s.image core slot t ∧ b.length = 64 ∧ ofBytes b = 0) ∧
    (t.tl ≠ [] → ∃ b : List Byte, (0x280, b) ∈ s.image core slot t ∧ ∀ i < t.tl.length,
      ofBytes ((b.drop (16 * i)).take 8) = (Tab.get Ctr.free k.ctrs (t.tl.getD i 0)).iss % 2 ^ 64 ∧
      ofBytes ((b.drop (16 * i + 8)).take 8) = (Tab.get Ctr.free k.ctrs (t.tl.getD i 0)).done % 2 ^ 64))

/-- R320, R321: `trap` retires and then takes cause 31 with its immediate; `sret` without a frame faults (33, 1), and with a
good image and nothing in flight in it goes on as the image says, XTF and XDEPTH back by one frame, handles, records,
identifiers and counters staying.
R48 check 4, R4: at level U every instruction that runs at S takes the privilege trap, with nothing done.
The model's own reading, and no rule's words: what `sret` reads its frame as, and the lanes of the handler (logs 6, 37, 38). -/
def Obligations.TrapReturnAndPrivilege : Prop :=
  (∀ (s : State) (n : BitVec 20), s.alone → s.calm →
    exec (.trap n) s = s.passOn.takeTrap s.cur.core s.cur.slot { cause := 31, info := n.toNat, after := true } s.cur.base ∧
    (s.me.lvl ≠ .m → ∃ u, exec (.trap n) s = .next u) ∧
    (s.me.lvl ≠ .u →
      (s.me.xdepth = 0 → exec .sret s = s.trapped { cause := 33, info := 1 }) ∧
      (∀ rd, s.me.xdepth ≠ 0 → s.readImage 0 s.me.lvl (s.me.xtf - 0x100000#64) s.cur.core true = .ok rd →
        s.imgNat rd 0x88 1 = 0 → field (s.img rd 0) 26 1 = 0 → field (s.img rd 0) 43 1 = 0 →
        ∃ u v, exec .sret s = .next u ∧ u.strandAt s.cur.core s.cur.slot = some v ∧
          v.lvl = (if field (s.img rd 0) 24 2 = 0 then .u else .s) ∧ v.asid = field (s.img rd 0) 34 8 ∧ v.pc = s.img rd 8 ∧
          v.r.bsp = s.img rd 0x20 ∧ v.r.bslo = s.img rd 0x28 ∧ v.r.bslim = s.img rd 0x30 ∧ v.r.fctl = s.img rd 0x38 &&& 0x1F07#64 ∧
          v.r.fb = field (s.img rd 0x18) 0 8 ∧ v.r.fsz = field (s.img rd 0x18) 8 6 ∧ v.r.nres = field (s.img rd 0x18) 16 9 ∧
          v.r.plink = (if field (s.img rd 0) 42 1 = 1 then some (s.img rd 0x10) else none) ∧
          (∀ i < 16, i ≠ 0 → Tab.get 0 v.r.g i = s.img rd (0x100 + 8 * i)) ∧
          (∀ p < 256, Tab.get 0 v.r.phys p = s.img rd (0x800 + 8 * p)) ∧
          v.xcause = s.img rd 0x40 ∧ v.xel = s.img rd 0x48 ∧ v.xpc = s.img rd 0x50 ∧ v.xaddr = s.img rd 0x58 ∧ v.xinfo = s.img rd 0x60 ∧
          v.xtf = s.me.xtf - 0x100000#64 ∧ v.xdepth = s.me.xdepth - 1 ∧ v.flight = [] ∧ v.stopped = false ∧ v.kept = s.me.kept.tail ∧
          v.h = s.me.h ∧ v.fmt = s.me.fmt ∧ v.td = s.me.td ∧ v.tl = s.me.tl ∧ v.work = s.me.work ∧
          (u.core s.cur.core).holder ≠ some s.cur.slot ∧
          u.hbm = s.hbm ∧ u.pool = s.pool ∧ u.far = s.far ∧ u.banks = s.banks ∧
          (s.curCore.holder ≠ some s.cur.slot → u.agenda = s.agenda)))) ∧
  (∀ (s : State) (i : Instr) (d a b : BitVec 6) (k : BitVec 3), s.alone → s.calm → s.me.lvl = .u →
    i ∈ [Instr.sret, .ctxSave d a b, .ctxLoad d a b, .erecRd d a k, .ldco d a b, .ldcoDrop d a, .launch d a, .glaunch d a, .tlbinvPg a b,
      .tlbinvAs a, .tlbinvAll, .asidSwSet a, .asidSwBind d a b, .asidSwDrop d a, .bankMode d a b, .tcopyMig d a b, .tcopyRes d a,
      .smapSet d a b, .smapInv d a b, .slabGrow d a b] →
    exec i s = s.trapped { cause := 3, word := s.cur.idx, slotB := s.cur.slotB })

/-- R322, R323, R331: `ctx.save` and `ctx.load` answer their codes in the order of the checks and change nothing then; else the
target leaves its slot with its image written, or is placed from its image; `erec.rd` gives a dword of a held record, 0 for
one that is not held, and the newest number.
The model's own reading, and no rule's words: the alignment of the image address, XDEPTH, counters and pending traps of a moved strand (logs 25, 32, 33, 34, 35, 36). -/
def Obligations.MovingStrands : Prop :=
  ∀ (s : State) (d a b : BitVec 6) (k : BitVec 3) (w va : Word) (core slot : Nat), s.alone → s.me.lvl ≠ .u → w = s.val a →
    core = field w 0 9 → slot = field w 16 3 → va = s.val b &&& ~~~0xFFF#64 →
    ((field w 9 7 ≠ 0 ∨ field w 19 45 ≠ 0 ∨ s.outCores.contains core = true) →
      exec (.ctxSave d a b) s = .next (s.gave d (BitVec.ofInt 64 (-81))) ∧ exec (.ctxLoad d a b) s = .next (s.gave d (BitVec.ofInt 64 (-81)))) ∧
    (field w 9 7 = 0 → field w 19 45 = 0 → s.outCores.contains core = false →
      (core = s.cur.core → slot = s.cur.slot → exec (.ctxSave d a b) s = .next (s.gave d (BitVec.ofInt 64 (-88)))) ∧
      (s.strandAt core slot = none → exec (.ctxSave d a b) s = .next (s.gave d (BitVec.ofInt 64 (-80)))) ∧
      ((s.freeSlots core).contains slot = false → exec (.ctxLoad d a b) s = .next (s.gave d (BitVec.ofInt 64 (-80)))) ∧
      (∀ t, s.strandAt core slot = some t → ¬ (core = s.cur.core ∧ slot = s.cur.slot) →
        (t.lvl = .m → exec (.ctxSave d a b) s = .next (s.gave d (BitVec.ofInt 64 (-88)))) ∧
        (∀ ls s1, t.lvl ≠ .m → s.pages (clusterOf s.cur.core) s.me.asid s.me.lvl .write .data va (pagesOf va (2 ^ 20)) = .ok ls →
          s.awaited core slot t = false → t.delivering = false → t.checking = false → ∀ lines,
          s.imageLines (clusterOf s.cur.core) s.me.asid va (s.image core slot t.stoppedForSave) = .ok lines →
          (lines.any fun l => s.stalled l.1) = false → s.linesRefused lines = none →
          s1 = ((s.askPeers 1 .i8 false (lines.filterMap fun l => l.1.peerElt l.2.length none 0 0)).putImage t.stoppedForSave lines).breakLinks →
          exec (.ctxSave d a b) s = .next ((s1.vacate core slot t.stoppedForSave).gave d 0) ∧ (∀ l ∈ s1.me.links, l.broken = true) ∧
            (Tab.rising s.cores none = true → Tab.rising (s.core core).slots none = true →
              ((s1.vacate core slot t.stoppedForSave).gave d 0).strandAt core slot = none))) ∧
      ((s.freeSlots core).contains slot = true → (∀ c, s.readImage s.me.asid s.me.lvl va core false = .code c →
        exec (.ctxLoad d a b) s = .next (s.gave d (BitVec.ofInt 64 c))) ∧
        (∀ rd, s.readImage s.me.asid s.me.lvl va core false = .ok rd → s.scrubFor rd core = none →
          exec (.ctxLoad d a b) s = .next ((s.placeImage rd core slot).breakLinks.gave d 0)) ∧
        (∀ rd o, s.readImage s.me.asid s.me.lvl va core false = .ok rd → s.scrubFor rd core = some o → (s.core core).holder = none →
          (s.core core).scrub = false → s.keptFor core o = false →
          exec (.ctxLoad d a b) s = .next (((s.scrub core o).placeImage rd core slot).breakLinks.gave d 0)))) ∧
    (w = -1 → exec (.erecRd d a k) s = .next (s.gave d (BitVec.ofNat 64 s.erecSeq))) ∧
    (w ≠ -1 → Tab.find s.erecs w.toNat = none → exec (.erecRd d a k) s = .next (s.gave d 0)) ∧
    (∀ r : List Word, w ≠ -1 → Tab.find s.erecs w.toNat = some r → exec (.erecRd d a k) s = .next (s.gave d (r.getD k.toNat 0)))

/-! ### Format records, tensor identifiers and the lanes (07, 09) -/

/-- R131, R158, R159, R172: `fmt.set` takes 0 or a good record and faults (11) on another; `tid.bind` unbinds, or reads its
descriptor, checks it and keeps it with its record; `tid.rd` gives a dword of it, 0 when unbound; each faults (12) outside the
allotment. `vsetl` gives the smaller of its value and VLMAX and takes the lanes, fresh, if the strand has them not; `vrel` gives
them up with all their state.
The model's own reading, and no rule's words: INFO of a bad record (log 64). -/
def Obligations.RecordsIdentifiersLanes : Prop :=
  ∀ (s : State) (d a : BitVec 6) (k : BitVec 3) (ty : Ty) (va : Word), s.alone → va = s.val a →
    ((va = 0 ∨ recordOk va = true) → exec (.fmtSet d a) s = .next (s.setMe { s.me with fmt := Tab.set 0 s.me.fmt d.toNat va }).passOn) ∧
    (s.calm → va ≠ 0 → recordOk va = false → exec (.fmtSet d a) s = s.trapped { cause := 11 }) ∧
    (d.toNat < s.me.ntd → va = 0 → exec (.tidBind d a) s = .next (s.setMe { s.me with td := Tab.del s.me.td d.toNat }).passOn) ∧
    (∀ bs x, d.toNat < s.me.ntd → va ≠ 0 → va.toNat % 8 = 0 →
      s.ownRead s.me s.cur.core (fun r x => pageFault r .read x) va 8 = .ok bs → x = BitVec.ofNat 512 (ofBytes bs) →
      descriptorOk x s.me.fmt = true → ∃ u, exec (.tidBind d a) s = .next u ∧
        u = (State.setMe (s.ownNote s.me s.cur.core va 8) { s.me with
          td := Tab.put s.me.td d.toNat (x ||| ((if 32 ≤ (tidOf x).fcode then Tab.get 0 s.me.fmt ((tidOf x).fcode - 32) else 0).setWidth 512 <<< 448)) }).passOn) ∧
    (a.toNat < s.me.ntd → exec (.tidRd d a k) s =
      .next (s.gave d (((Tab.get 0 s.me.td a.toNat) >>> (64 * k.toNat)).setWidth 64))) ∧
    (∀ ls, d.toNat < s.me.ntd → va.toNat % 8 ≠ 0 →
      s.pages (clusterOf s.cur.core) s.me.asid s.me.lvl .read .data va (pagesOf va 64) = .ok ls → s.calm → s.cur.slotB = false →
      (∃ e l, decodeWord s.cur.word = .ok ⟨e, l, .one (.tidBind d a)⟩) → s.faulted { cause := 27 } (exec (.tidBind d a) s)) ∧
    (s.calm → s.me.ntd ≤ d.toNat → exec (.tidBind d a) s = s.trapped { cause := 12 }) ∧
    (s.calm → s.me.ntd ≤ a.toNat → exec (.tidRd d a k) s = s.trapped { cause := 12 }) ∧
    (s.holdsLanes = true → exec (.vsetl d a ty) s =
      .next (s.gave d (BitVec.ofNat 64 (min va.toNat (vlmax ty.width s.width))))) ∧
    (s.holdsLanes = false → s.lanesFree s.cur.core s.cur.slot s.curCore.gvl = true → ∃ u, exec (.vsetl d a ty) s = .next u ∧
      u.me.r = s.me.r.put d.toNat (BitVec.ofNat 64 (min va.toNat (vlmax ty.width s.curCore.gvl))) ∧ u.me.pc = s.cur.succ ∧
      u.curCore.holder = some s.cur.slot ∧ u.curCore.width = s.curCore.gvl ∧ u.curCore.v = [] ∧ u.curCore.q = [] ∧ u.curCore.tiles = [] ∧
      u.curCore.latch = none ∧ u.hbm = s.hbm ∧ u.pool = s.pool ∧ u.far = s.far ∧ u.banks = s.banks) ∧
    (s.holdsLanes = false → exec .vrel s = .next s.passOn) ∧
    (s.holdsLanes = true → s.curCore.latching = none → (s.curCore.tiles.all fun t => !t.2.busy) = true →
      exec .vrel s = .next (s.releaseLanes s.cur.core s.cur.slot).passOn ∧
      ∀ c : Core, c = ((s.releaseLanes s.cur.core s.cur.slot).core s.cur.core) →
        c.holder = none ∧ c.v = [] ∧ c.q = [] ∧ c.tiles = [] ∧ c.latch = none)

/-! ### Code objects and launches (04) -/

/-- R54 to R59: `ldco` loads a good object into the lowest free entry, translating a portable one to where it is told, and
answers why it does not; `ldco.drop` frees an entry that no launch names.
The model's own reading, and no rule's words: landings as `ldco` reads them, and the code of a bad lifetime (logs 77, 78). -/
def Obligations.CodeObjects : Prop :=
  ∀ (s : State) (d a b : BitVec 6) (n : Nat), s.alone → s.me.lvl ≠ .u → n = (s.val a).toNat →
    (s.readObject (s.val a) = .malformed → exec (.ldco d a b) s = .next (s.gave d (BitVec.ofInt 64 (-4)))) ∧
    (∀ (h : CodeHeader) (ws : List Word) (t : State) (v : Int), s.readObject (s.val a) = .object h ws →
      t = s.ownNote s.me s.cur.core (s.val a + h.off) ws.length → v = h.verdict ws →
      (v ≠ 0 → exec (.ldco d a b) s = .next (t.gave d (BitVec.ofInt 64 v))) ∧
      ((ws.getLast? ≠ some 0 ∨ 0 ∈ ws.dropLast) → v = -4) ∧
      (ws.getLast? = some 0 → 0 ∉ ws.dropLast → (h.maj = 1 → v = if h.life = 0 then 0 else -2) ∧
        (h.maj ≠ 1 → (h.maj ≠ 3 ∨ 1 < h.min) → v = -1) ∧
        (h.maj = 3 → h.min ≤ 1 → h.life = 2 → h.step ≠ field partid 0 8 → v = -3) ∧
        (h.maj = 3 → h.min ≤ 1 → (h.life = 2 → h.step = field partid 0 8) → (∀ w ∈ ws, w = 0) → v = 0)) ∧
      (v = 0 → (∀ i < 1024, (Tab.find s.codes i).isSome = true) → exec (.ldco d a b) s = .next (t.gave d (BitVec.ofInt 64 (-5)))) ∧
      (∀ k, v = 0 → k < 1024 → Tab.find s.codes k = none → (∀ i < k, (Tab.find s.codes i).isSome = true) →
        (h.maj = 3 → exec (.ldco d a b) s = .next
          (({ t with codes := Tab.put t.codes k ⟨s.val a + h.off, h.size, landings ws,
            t.linesAt s.me s.cur.core (s.val a + h.off) (8 * ws.length)⟩ } : State).gave d (BitVec.ofNat 64 k))) ∧
        (h.maj = 1 → (s.val b).toNat % 65536 ≠ 0 → exec (.ldco d a b) s = .next (t.gave d (BitVec.ofInt 64 (-6)))) ∧
        (∀ u, h.maj = 1 → (s.val b).toNat % 65536 = 0 →
          (t.ownAsk (s.val b) ws.length).ownWrite (s.val b) (ws.map translateWord) = .ok u →
          exec (.ldco d a b) s = .next
            (({ u with codes := Tab.put u.codes k ⟨s.val b, h.size, landings (ws.map translateWord),
              u.linesAt s.me s.cur.core (s.val b) (8 * ws.length)⟩ } : State).gave d (BitVec.ofNat 64 k))))) ∧
    ((1023 < n ∨ Tab.find s.codes n = none) → exec (.ldcoDrop d a) s = .next (s.gave d (BitVec.ofInt 64 (-6)))) ∧
    (n ≤ 1023 → (Tab.find s.codes n).isSome = true → (∃ l ∈ s.launches, l.2.code = n ∧ l.2.retired = false) →
      exec (.ldcoDrop d a) s = .next (s.gave d (BitVec.ofInt 64 (-7)))) ∧
    (n ≤ 1023 → (Tab.find s.codes n).isSome = true → (∀ l ∈ s.launches, l.2.code = n → l.2.retired = true) →
      ∃ old, (∀ w ∈ old, w ∈ s.oldCode) ∧
        exec (.ldcoDrop d a) s = .next (({ s with codes := Tab.del s.codes n, oldCode := old } : State).gave d 0))

/-- R60, R61, R70, R75, R76: the first check of a launch that fails gives its code and nothing else happens, each check told by
the fields of the header and of the entries at LNKADDR, `f i lo n` being `n` bits of dword `i`; a good `launch` gets
the next launch ID and waits in the queue as its header says, its dependences' counters pinned and its completion
counter's next number taken; `glaunch` is prepared with its members besides, and published at once where all have retired.
The model's own reading, and no rule's words: the order of the checks, what a launch waits for, and that a link to a launch
from before a reset is refused (logs 79, 80, 81, 82, 139). -/
def Obligations.Launches : Prop :=
  ∀ (s : State) (d a : BitVec 6) (va : Word) (refuse : Int → Prop), s.alone → s.me.lvl ≠ .u → va = s.val a →
    (∀ c, refuse c ↔ (exec (.launch d a) s = .next (s.gave d (BitVec.ofInt 64 c)) ∧ exec (.glaunch d a) s = .next (s.gave d (BitVec.ofInt 64 c)))) →
    (va.toNat % 8 ≠ 0 → refuse (-16)) ∧
    (∀ hb h, va.toNat % 8 = 0 → s.headerDwords va 16 = .ok hb → h = launchHeader (wordList hb) →
      (h.versionOk = false → refuse (-17)) ∧
      (h.versionOk = true → Tab.find s.codes (h.get 0 16 10) = none → refuse (-18)) ∧
      (∀ c, h.versionOk = true → Tab.find s.codes (h.get 0 16 10) = some c →
        (h.get 1 0 32 ∉ c.entries → refuse (-19)) ∧
        (h.get 1 0 32 ∈ c.entries →
          (h.fieldsOk = false → refuse (-20)) ∧
          (h.fieldsOk = true → h.capacityOk s = false → refuse (-21)) ∧
          (h.fieldsOk = true → h.capacityOk s = true → h.resourcesOk = false → refuse (-22))))) ∧
    (∀ (hb : List Byte) (h : Header) (dw : Nat → Word) (f : Nat → Nat → Nat → Nat) (nf ndep nlink ntl : Nat) (W P C at_ : Nat → Nat)
      (gang : List Nat), va.toNat % 8 = 0 → s.headerDwords va 16 = .ok hb → h = launchHeader (wordList hb) →
      (∀ i, dw i = BitVec.ofNat 64 (ofBytes ((hb.drop (8 * i)).take 8))) → (∀ i lo n, f i lo n = (dw i).toNat / 2 ^ lo % 2 ^ n) →
      nf = f 0 44 3 → ndep = f 9 41 3 → nlink = f 9 37 4 → ntl = s.me.tl.length →
      (∀ k, W k = f 2 (7 * k) 7 ∧ P k = f 2 (42 + 3 * k) 3 ∧ C k = (dw (3 + k)).toNat + 1) →
      (∀ p, at_ p = (((List.range nf).filter fun k => P k == p).map C).prod) → gang = (List.range nf).filter (fun k => P k == 4) →
      (∀ i lo n, h.get i lo n = f i lo n) ∧ (∀ i < 16, h.ws.getD i 0 = dw i) ∧
      h.used = (List.range (min nf 6)).map (fun k => (W k, P k, C k)) ∧
      (h.versionOk = true ↔ f 0 0 16 = 1 ∧ f 0 26 6 = 0 ∧ f 0 48 16 = 0 ∧ f 1 32 32 = 0 ∧ f 2 60 4 = 0 ∧ f 9 49 15 = 0 ∧ f 11 32 32 = 0) ∧
      (h.fieldsOk = true ↔ 1 ≤ nf ∧ nf ≤ 6 ∧ ((List.range nf).map W).sum ≤ 64 ∧
        (∀ k < nf, W k ≤ 64 ∧ P k ≤ 5 ∧ C k ≤ 2 ^ W k ∧ (k + 1 < nf → P k ≤ P (k + 1))) ∧
        ∀ k < 6, nf ≤ k → W k = 0 ∧ P k = 0 ∧ C k = 1) ∧
      (nf ≤ 6 → (h.capacityOk s = true ↔ at_ 0 ≤ 8 ∧ at_ 2 ≤ 2 ∧ at_ 3 ≤ 4 ∧
        ∀ cl < 8, at_ 1 ≤ (List.range 64).countP fun j => !s.outCores.contains (64 * cl + j))) ∧
      (h.resourcesOk = true ↔ f 9 0 7 ≤ 64 ∧ f 9 7 5 ≤ 16 ∧ f 9 12 9 ≤ 256 ∧ f 9 21 11 ≤ 1024 ∧ f 9 32 5 ≤ 16 ∧ ndep ≤ 4 ∧
        f 11 0 32 % 512 = 0 ∧ (ndep ≠ 0 → (dw 13).toNat % 8 = 0)) ∧
      (∀ x, s.headerDwords x 0 = .ok []) ∧
      ∀ (c : Code) (db : List Byte) (D : Nat → Word), h.versionOk = true → Tab.find s.codes (f 0 16 10) = some c → f 1 0 32 ∈ c.entries →
        h.fieldsOk = true → h.capacityOk s = true → h.resourcesOk = true → s.headerDwords (dw 13) (2 * ndep) = .ok db →
        (∀ i, D i = BitVec.ofNat 64 (ofBytes ((db.drop (8 * i)).take 8))) →
        ((∃ j < ndep, min 16 ntl ≤ (D (2 * j)).toNat) ∨ f 9 48 1 = 1 ∧ ntl ≤ f 9 44 4 → refuse (-22)) ∧
        ((∀ j < ndep, (D (2 * j)).toNat < min 16 ntl) → (f 9 48 1 = 1 → f 9 44 4 < ntl) →
          (8 < nlink ∨ nlink ≠ 0 ∧ (dw 13).toNat % 8 ≠ 0 → refuse (-23)) ∧
          ∀ (lb : List Byte) (L : Nat → Word) (mark alias_ : Nat → Nat) (good : Prop) (deps : List (Nat × Nat)) (links : List (Nat × Nat × Nat)),
            nlink ≤ 8 → (nlink ≠ 0 → (dw 13).toNat % 8 = 0) →
            s.headerDwords (dw 13 + BitVec.ofNat 64 (16 * ndep)) (2 * nlink) = .ok lb →
            (∀ i, L i = BitVec.ofNat 64 (ofBytes ((lb.drop (8 * i)).take 8))) →
            (∀ j, mark j = (L (2 * j + 1)).toNat % 16 ∧ alias_ j = (L (2 * j + 1)).toNat / 16 % 16) →
            (good ↔ ∀ j < nlink, (L (2 * j + 1)).toNat < 256 ∧ f 9 32 5 ≤ alias_ j ∧ (∀ i < j, alias_ i ≠ alias_ j) ∧
              ∃ p, Tab.find s.launches (L (2 * j)).toNat = some p ∧ mark j < p.ntm) →
            deps = (List.range ndep).map (fun j => ((D (2 * j)).toNat, (D (2 * j + 1)).toNat)) →
            links = (List.range nlink).map (fun j => (alias_ j, (L (2 * j)).toNat, mark j)) →
            (¬good → refuse (-23)) ∧ (good → Tab.find s.asids (f 0 36 8) = none → refuse (-24)) ∧
            (good → Tab.find s.asids (f 0 36 8) ≠ none →
              ∀ queued : Nat, queued = (s.launches.filter fun l => !l.2.retired && decide (l.2.group < l.2.groups)).length →
              (1024 ≤ queued → refuse (-25)) ∧
              (queued < 1024 → ∀ plain multi : Prop, (plain ↔ f 0 47 1 = 0 ∧ dw 14 = 0 ∧ dw 15 = 0 ∧ at_ 4 = 1) →
                (multi ↔ f 0 47 1 = 1 ∧ gang.length = 1 ∧ (dw 15).toNat % 8 = 0) →
                (¬plain → exec (.launch d a) s = .next (s.gave d (BitVec.ofInt 64 (-26)))) ∧
                (plain → s.readLaunch va false = .ok h deps links []) ∧
                (¬multi → exec (.glaunch d a) s = .next (s.gave d (BitVec.ofInt 64 (-26)))) ∧
                (multi → ∀ mb, s.headerDwords (dw 15) (at_ 4) = .ok mb → s.readLaunch va true = .ok h deps links
                  ((List.range (at_ 4)).map fun i => ofBytes ((mb.drop (8 * i)).take 8) % 2 ^ 19)))))) ∧
    (∀ gang c, s.readLaunch va gang = .code c →
      exec (if gang then .glaunch d a else .launch d a) s = .next (s.gave d (BitVec.ofInt 64 c))) ∧
    (∀ h deps links, s.readLaunch va false = .ok h deps links [] → h.get 9 48 1 = 0 →
      ∃ u l, exec (.launch d a) s = .next u ∧ u.me.r = s.me.r.put d.toNat (BitVec.ofNat 64 s.nextLaunch) ∧ u.me.pc = s.cur.succ ∧
        u.nextLaunch = s.nextLaunch + 1 ∧ Tab.find u.launches s.nextLaunch = some l ∧
        (Tab.rising s.launches none = true → ∀ i, i ≠ s.nextLaunch → Tab.find u.launches i = Tab.find s.launches i) ∧
        l.code = h.get 0 16 10 ∧ l.entry = h.get 1 0 32 ∧ l.prio = h.get 0 32 4 ∧ l.asid = h.get 0 36 8 ∧ l.fields = h.used ∧
        l.ntd = h.get 9 0 7 ∧ l.ntl = h.get 9 7 5 ∧ l.nbank = h.get 9 12 9 ∧ l.nlin = h.get 9 21 11 ∧ l.ntm = h.get 9 32 5 ∧
        l.bsbase = h.ws.getD 10 0 ∧ l.frd = h.get 11 0 32 ∧ l.arg = h.ws.getD 12 0 ∧ l.ctl = none ∧ l.links = links ∧
        l.deps = deps.map (fun x => (s.cur.core, s.me.tl.getD x.1 0, x.2)) ∧ l.group = 0 ∧ l.items = [] ∧ l.retired = false ∧
        (Instr.launchGroupStart ∈ u.agenda) ∧ u.hbm = s.hbm ∧ u.pool = s.pool) ∧
    (∀ h deps links t id, s.readLaunch va false = .ok h deps links [] → s.outstanding s.cur.core < 64 →
      (s.ownNote s.me s.cur.core va 16).enqueue h 0 deps links = (t, id) →
      exec (.launch d a) s = .next (t.gave d (BitVec.ofNat 64 id)) ∧ id = s.nextLaunch ∧
      (h.get 9 48 1 = 1 → deps = [] → ∀ k : Nat, k = s.me.tl.getD (h.get 9 44 4) 0 →
        (t.ctr s.cur.core k).iss = (s.ctr s.cur.core k).iss + 1 ∧
        ∃ l, Tab.find t.launches id = some l ∧ l.ctl = some (s.cur.core, k, (s.ctr s.cur.core k).iss + 1))) ∧
    (∀ h deps links members t id u gs me, s.readLaunch va true = .ok h deps links members → s.outstanding s.cur.core < 64 →
      gs = (h.ws.getD 14 0).toNat → me = s.devId % 2 ^ 19 →
      (s.ownNote s.me s.cur.core va 16).enqueue h (s.ownMember gs members) deps links = (t, id) →
      t.prepareGang h id (s.physDeps deps) links members = some u →
      exec (.glaunch d a) s = .next (u.gave d (BitVec.ofNat 64 id)) ∧
      (∀ i m, members[i]? = some m → m ≠ me → Msg.gangPrepare m gs i (h.ws.take 16 ++ members.map (BitVec.ofNat 64)) ∈ u.out) ∧
      ∃ g, Tab.find u.gangs gs = some g ∧ g.issuer = true ∧ g.members = members ∧ g.broken = false ∧
        ((∀ x, Tab.find s.gangs gs = some x → ∃ i < members.length, i ∉ x.ended) → id ∈ g.issued) ∧
        (∀ x, Tab.find s.gangs gs = some x → x.begun = true → (∀ m ∈ members, m = me) → (∀ i < members.length, i ∈ x.ended) →
          g.issued = []) ∧
        (g.committed = true ↔ ∀ m ∈ members, m = me) ∧
        (Tab.find s.gangs gs = none → (∀ i m, members[i]? = some m → m = me → (Tab.find g.parts i).isSome = true) ∧
          (g.begun = true ↔ ∀ m ∈ members, m = me)) ∧
        (∀ x, Tab.find s.gangs gs = some x → x.begun = true → g.parts = x.parts ∧ g.begun = true))

/-- R62, R67, R71 to R74, R77, R78, R99: work identifiers and their fields; `bar.k` completes when the last item of its group has
arrived and waits until then; tide marks are bound once, rise and are read; and `halt` ends its strand, whose item retires,
when nothing of it is left to do.
The model's own reading, and no rule's words: when an item arrives at a barrier, and what `halt` waits for (logs 83, 88). -/
def Obligations.WorkItems : Prop :=
  ∀ (s : State) (d a b c : BitVec 6) (f k : BitVec 3) (n : BitVec 4), s.alone →
    (s.me.work = none → exec (.widGet d) s = .next (s.gave d 0) ∧ exec (.widGetField d f) s = .next (s.gave d 0)) ∧
    (∀ w l, s.me.work = some w → Tab.find s.launches w.launch = some l →
      exec (.widGet d) s = .next (s.gave d w.wid) ∧
      exec (.widGetField d f) s = .next (s.gave d (if h : f.toNat < l.fields.length then
        BitVec.ofNat 64 (w.linear / ((l.fields.take f.toNat).map fun x => x.2.2).prod % (l.fields[f.toNat]'h).2.2) else 0)) ∧
      (∀ i m, k.toNat < (l.fields.takeWhile fun x => x.2.1 < 4).length → Tab.find l.items w.linear = some i → m = i.steps k.toNat → m % 2 = 0 →
        ∀ (all : Prop), (all ↔ ∀ j ∈ l.items, j.1 ≠ w.linear → j.1 / l.groupSize k.toNat = w.linear / l.groupSize k.toNat → m + 1 ≤ j.2.steps k.toNat) →
        (Tab.rising l.items none = true → all → exec (.barK k) s =
          .next (s.mapItem w.launch w.linear fun x => { x with arr := Tab.put x.arr k.toNat (m + 2) }).passOn) ∧
        (Tab.rising l.items none = true → ¬ all → (∃ e x, decodeWord s.cur.word = .ok ⟨e, x, .one (.barK k)⟩) → s.cur.slotB = false →
          ∃ u, exec (.barK k) s = .next u ∧ u.me.flight.length = 1 ∧ u.me.r = s.me.r ∧
            u.launches = (s.mapItem w.launch w.linear fun x => { x with arr := Tab.put x.arr k.toNat (m + 1) }).launches)) ∧
      (∀ m : Mark, n.toNat < l.ntm → m = Tab.get ⟨0, none⟩ l.marks n.toNat →
        (m.bound = none → bindable (s.val a) (s.val b) (s.val c) = true → exec (.tmBind a b c n) s = .next
          (({ s with launches := Tab.put s.launches w.launch { l with
              marks := Tab.put l.marks n.toNat { m with bound := some (s.val a, (s.val b).toNat, (s.val c).toNat) } } } : State).passOn)) ∧
        (m.bound.isSome = true → (s.val a).toNat ≤ m.m → exec (.tmAdv a b n) s = .next
          (({ s with launches := Tab.put s.launches w.launch { l with
              marks := Tab.put l.marks n.toNat { m with m := max m.m (s.val b).toNat } } } : State).passOn)) ∧
        (m.bound.isSome = true → m.m < (s.val a).toNat → ∃ u, exec (.tmAdv a b n) s = .next u ∧ u.note = .wait 5 ∧
          u.launches = s.launches ∧ u.me.flight = [] ∧ u.me.pc = s.me.pc) ∧
        exec (.tmRd d n) s = .next (s.gave d (BitVec.ofNat 64 m.m)) ∧
        (s.calm → (m.bound.isSome = true ∨ bindable (s.val a) (s.val b) (s.val c) = false) →
          exec (.tmBind a b c n) s = s.trapped { cause := 18 }) ∧
        (s.calm → m.bound = none → exec (.tmAdv a b n) s = s.trapped { cause := 18 })) ∧
      (s.calm → (l.fields.takeWhile fun x => x.2.1 < 4).length ≤ k.toNat → exec (.barK k) s = s.trapped { cause := 19 })) ∧
    (s.calm → s.me.work = none → exec (.barK k) s = s.trapped { cause := 19 } ∧ exec (.tmBind a b c n) s = s.trapped { cause := 18 } ∧
      exec (.tmAdv a b n) s = s.trapped { cause := 18 } ∧ exec (.tmRd d n) s = s.trapped { cause := 18 }) ∧
    (Tab.rising s.cores none = true → Tab.rising s.curCore.slots none = true → s.commandsOpen s.cur.core s.me.tl = false →
      (∀ i < 16, s.handle (clusterOf s.cur.core) s.me i = .blank) →
      (s.holdsLanes = true → s.curCore.latching = none ∧ (s.curCore.tiles.all fun t => !t.2.busy) = true) →
      ∃ u, exec .halt s = .next u ∧ u.strandAt s.cur.core s.cur.slot = none ∧ (u.core s.cur.core).holder ≠ some s.cur.slot ∧
        u.hbm = s.hbm ∧ u.pool = s.pool ∧ u.far = s.far ∧ (∀ x, (u.bank x).data = (s.bank x).data) ∧
        (∀ x y, (x, y) ≠ (s.cur.core, s.cur.slot) → u.strandAt x y = s.strandAt x y) ∧
        ∀ w l, s.me.work = some w → Tab.find s.launches w.launch = some l → ∃ m, Tab.find u.launches w.launch = some m ∧
          m.items = Tab.del l.items w.linear ∧ w.linear ∈ m.gone)

/-! ### The summary-tree walker (21) -/

/-- R349 to R362: `twrd` gives the sums of a record, or their means, in f32; `twalk` gives the summary and the positions of its
walk with their count; `twupd` adds a key and a value to every record of the path and gives the position, or −1 for a full
leaf, with nothing changed; `twbuild` writes every record of its build and gives the root's address. Which records pass the
check of R350; what a visit does with a record, the opening test and its logits among it; what a summary and an emission
add; the new radius of R359; and the levels, sums and radii of a build, are said by themselves.
The model's own reading, and no rule's words: the order of the walker's checks; a radius over a distance that is not finite is a
free value (logs 15, 76); how far powers of two are worked out before their rounding (log 150). -/
def Obligations.SummaryTrees : Prop :=
  ∀ (s : State) (v : VCtl) (d a b c : BitVec 6) (ty : Ty) (gn : BitVec 4) (part : BitVec 2), s.alone →
    (∀ (t : Tussock) (adr : Nat → Word) (h0 h1 : Place) (h : List Byte) (p : Nat → Place) (x : Nat → Nat) (got : State),
      s.vready v 32 [] → s.settledV d 32 = true → d.toNat < 32 → s.sound →
      s.tideHeld s.me (s.val a) 128 = false → s.reads .link (s.val a) 1 h0 → s.reads .link (s.val a + 64#64) 1 h1 →
      h = s.readBytes h0 64 ++ s.readBytes h1 64 → headerOk (s.val a) (dwordOf h) none = true → t = headerOf (s.val a) (dwordOf h) →
      (∀ j, adr j = s.val a + BitVec.ofNat 64 (128 + 4 * j + (if part.getLsbD 0 then 4 * t.d else 0))) →
      (∀ j ∈ s.actives v, j < t.d → s.reads .link (adr j) 4 (p j)) → (∀ j, x j = s.readNat (p j) 4) →
      got = ((s.actives v).filter fun j => decide (j < t.d)).foldl (fun u j => u.noteRead (p j))
        (if s.actives v = [] then s else (s.noteRead h0).noteRead h1) →
      got.fills (exec (.twrd v d a part) s) d 32 (s.into v d 32 fun j => if t.d ≤ j then 0 else if part.getLsbD 1 = false then x j
        else if t.count = 0 then 0 else rne32 (FVal.div (f32.value (x j)) (ofInt t.count)))) ∧
    (∀ (t : Tussock) (x : Bool) (q : List FVal) (w : Walk) (m0 : Pages), s.laned → s.header s.me s.cur.core [] (s.val b) none = .ok (t, m0) →
      scaleOk t.scale = true →
      s.len v.ls ≤ vlmax 32 s.width → t.d + 2 ≤ vlmax 32 s.width → t.d ≤ vlmax ty.width s.width → s.fullTo a ty.width t.d = true →
      s.settledV d 32 = true → s.settledV c 32 = true → a.toNat < 32 → d.toNat < 32 → c.toNat < 32 → d ≠ c →
      q = (List.range t.d).map (fun j => tyVal ty (s.lane a ty.width j).num) →
      s.visit s.me s.cur.core {
          q := q, nq := f32.value (rne32 (FVal.sqrt (dot q q))), scale := f32.value t.scale, otau := field s.curCore.otau 0 32
          ofloor := field s.curCore.ofloor 0 32, odepth := field s.curCore.odepth 0 5, dw := t.dw, x := x, n := s.len v.ls } 16 (s.val b)
        (.ok ⟨none, [], 0, [], m0⟩) = .ok w →
      ∀ (m l : Nat) (o : List Nat), (m, l, o) = w.sum.getD (0xFF800000, 0, List.replicate t.d 0) →
      ∃ rd rc : VReg, exec (if x then .twalkX v d a b c ty gn else .twalk v d a b c ty gn) s = .next
        ((((s.noteRecords m0 [(s.val b, 2)]).noteRecords w.pages w.seen).withCore fun k =>
            { k with v := Tab.set VReg.zero (Tab.set VReg.zero k.v d.toNat rd) c.toNat rc }).gave
          (32#6 + gn.setWidth 6) (BitVec.ofNat 64 w.count)) ∧
        (∀ i < 512, rd.get 32 i = if s.len v.ls ≤ i then s.lane d 32 i else .full (w.pos.reverse.getD i 0 % 2 ^ 32)) ∧
        (∀ j < 512, rc.get 32 j = if t.d + 2 ≤ j then s.lane c 32 j
          else .full ((if j < t.d then o.getD j 0 else if j = t.d then m else l) % 2 ^ 32))) ∧
    (∀ (path : List Tussock) (t : Tussock) (key value : List Nat) (m : Pages), s.laned →
      s.path s.me s.cur.core 16 [] (s.val b) none = .ok (path, m) →
      path.getLast? = some t →
      (t.count = 16 → exec (.twupd d a b c ty) s = .next ((s.noteRecords m (path.map Tussock.extent)).gave d (BitVec.ofInt 64 (-1)))) ∧
      (∀ mw, t.count < 16 → a.toNat < 32 → c.toNat < 32 → s.fullTo a ty.width t.d = true → s.fullTo c ty.width t.d = true → (∀ x ∈ path, x.count < 2 ^ 32 - 1) →
        s.pathPages s.me s.cur.core (m.forWrite s.me.lvl) path = .ok mw →
        key = (List.range t.d).map (fun j => rne32 (tyVal ty (s.lane a ty.width j).num)) →
        value = (List.range t.d).map (fun j => rne32 (tyVal ty (s.lane c ty.width j).num)) →
        exec (.twupd d a b c ty) s = .next (State.gave (path.foldl (fun u x => u.writeTussock mw { x with
          count := x.count + 1, radius := newRadius s x key
          ksum := (x.ksum.zip key).map fun y => rne32 (FVal.add false (f32.value y.1) (f32.value y.2))
          vsum := (x.vsum.zip value).map fun y => rne32 (FVal.add false (f32.value y.1) (f32.value y.2)) }) (s.noteRecords m (path.map Tussock.extent))) d
          (t.base + BitVec.ofNat 64 t.count)))) ∧
    ((∀ x ∈ s.curCore.slots, ∀ y ∈ x.2.flight, ∀ e ∈ y.entries, walkerServes e.word = false) →
     (∀ (p : Plot) (keys values : List (List Nat)) (ls : Pages) (rows : Nat → Except Snag (List (List Nat))) (tokens : List Nat)
      (read : State),
      plotOf (s.val a) (s.val b) (s.val c) = some p →
      (∀ m x, (m = p.keyMap ∨ m = p.valueMap) → Tab.find s.smaps m = some x → 8 * (p.dw + 1) * ty.width ≤ x.rb * 8) →
      tokens = (List.range (16 * p.leaves)).map (fun i => p.t0 + i) → (∀ m, rows m = s.slabRows s.me s.cur.core m (8 * (p.dw + 1)) ty tokens) →
      read = (s.noteRows s.me s.cur.core p.keyMap (8 * (p.dw + 1)) ty tokens).noteRows s.me s.cur.core p.valueMap (8 * (p.dw + 1)) ty tokens →
      rows p.keyMap = .ok keys → rows p.valueMap = .ok values →
      s.recordPages s.me s.cur.core [] p.area ((128 + 64 * (p.dw + 1)) * plotCount p.branch 13 p.leaves) = .ok ls →
      exec (.twbuild d a b c ty) s = .next (State.gave ((plotRecords s p keys values).foldl (fun u r => u.walkWriteAt ls r.va r.bytes) read)
        d (((plotRecords s p keys values).getLast?.map Tussock.va).getD 0))) ∧
     (s.calm → plotOf (s.val a) (s.val b) (s.val c) = none → s.cur.slotB = false →
      (∃ e l, decodeWord s.cur.word = .ok ⟨e, l, .one (.twbuild d a b c ty)⟩) →
      s.faulted { cause := 27, addr := s.val a } (exec (.twbuild d a b c ty) s))) ∧
    (∀ (va : Word) (h : Nat → Word) (dw : Option Nat) (nch : Nat), nch = field (h 0) 9 4 →
      (headerOk va h dw = true ↔ va.toNat % 64 = 0 ∧ field (h 0) 0 8 = 0x7C ∧ field (h 0) 13 3 = 0 ∧ field (h 0) 21 11 = 0 ∧
        (∀ i < 5, h (3 + i) = 0) ∧ (if field (h 0) 8 1 = 1 then nch = 0 ∧ field (h 0) 32 32 ≤ 16 else 1 ≤ nch ∧ nch ≤ 8) ∧
        (∀ i < 8, if i < nch then h (8 + i) ≠ 0 ∧ (h (8 + i)).toNat % 64 = 0 else h (8 + i) = 0) ∧
        f32.value (field (h 1) 0 32) ≠ .nan ∧ f32.value (field (h 1) 0 32) ≠ .inf true ∧
        (∀ n e, f32.value (field (h 1) 0 32) = .num true n e → n = 0) ∧ (∀ x, dw = some x → x = field (h 0) 16 5))) ∧
    (∀ n : Tussock, n.dw < 32 → n.count < 2 ^ 32 → n.radius < 2 ^ 32 → n.scale < 2 ^ 32 → n.kids.length ≤ 8 →
      headerOf n.va (dwordOf n.bytes) = { n with ksum := [], vsum := [] } ∧
      (n.ksum.length = n.d → n.vsum.length = n.d → (∀ x ∈ n.ksum ++ n.vsum, x < 2 ^ 32) →
        words32 (n.bytes.drop 128) n.d = n.ksum ∧ words32 (n.bytes.drop (128 + 4 * n.d)) n.d = n.vsum)) ∧
    (∀ (t : Strand) (core : Nat) (k : Quest) (fuel : Nat) (va : Word) (e : Snag) (w : Walk),
      s.visit t core k fuel va (.error e) = .error e ∧ s.visit t core k 0 va (.ok w) = .error (.fault { cause := 27, addr := va }) ∧
      (s.tussock t core w.pages va (some k.dw) = .error e → s.visit t core k (fuel + 1) va (.ok w) = .error e) ∧
      ∀ (n : Tussock) (m : Pages) (w1 : Walk) (z b u : Nat) (near : Prop), s.tussock t core w.pages va (some k.dw) = .ok (n, m) →
        w1 = { w with seen := n.extent :: w.seen, pages := m } →
        z = rne32 (FVal.div (FVal.mul (f32.value (rne32 (dot k.q (n.ksum.map f32.value)))) k.scale) (ofInt n.count)) →
        b = rne32 (FVal.mul (FVal.mul k.nq (f32.value n.radius)) k.scale) → u = rne32 (FVal.add false (f32.value z) (f32.value b)) →
        (near ↔ FVal.cmp (f32.value u) (f32.value k.ofloor) = some .lt ∨ FVal.cmp (f32.value b) (f32.value k.otau) = some .lt ∨
          FVal.cmp (f32.value b) (f32.value k.otau) = some .eq) →
        (n.count = 0 → s.visit t core k (fuel + 1) va (.ok w) = .ok w1) ∧
        (n.count ≠ 0 → k.odepth ≤ 15 - fuel → near → s.visit t core k (fuel + 1) va (.ok w) = .ok (w1.summarize n z)) ∧
        (n.count ≠ 0 → ¬(k.odepth ≤ 15 - fuel ∧ near) → s.visit t core k (fuel + 1) va (.ok w) =
          if n.leaf then .ok (w1.emit k n) else n.kids.foldl (fun acc a => s.visit t core k fuel a acc) (.ok w1))) ∧
    (∀ (w : Walk) (n : Tussock) (z m l m2 : Nat) (o : List Nat) (f g : FVal) (put : FVal → FVal → Nat),
      (w.sum = none → w.summarize n z = { w with sum := some (z, rne32 (ofInt n.count), n.vsum.map fun v => rne32 (f32.value v)) }) ∧
      (w.sum = some (m, l, o) →
        m2 = (if f32.value m = .nan ∨ f32.value z = .nan then 0x7FC00000 else if FVal.cmp (f32.value m) (f32.value z) = some .lt then z else m) →
        f = f32.value (rne32 (exp2Diff (FVal.add false (f32.value m) (f32.value m2).neg))) →
        g = f32.value (rne32 (exp2Diff (FVal.add false (f32.value z) (f32.value m2).neg))) →
        (∀ x y, put x y = rne32 (FVal.add false (FVal.mul x f) (FVal.mul y g))) →
        w.summarize n z = { w with sum := some (m2, put (f32.value l) (ofInt n.count),
          (o.zip n.vsum).map fun p => put (f32.value p.1) (f32.value p.2)) })) ∧
    (∀ (w : Walk) (k : Quest) (n : Tussock) (ps : List Nat),
      ps = (if k.x then (List.range n.count).map fun j => (n.base.toNat + j) % 2 ^ 32 else [n.base.toNat % 2 ^ 32]) →
      w.emit k n = { w with pos := (w.emit k n).pos, count := w.count + ps.length } ∧
      (w.emit k n).pos.reverse = w.pos.reverse ++ ps.take (k.n - w.count)) ∧
    (∀ (xs ys : List FVal) (val : FVal → Rat), (∀ u n e, val (.num u n e) = (if u then -(n : Rat) else n) * (2 : Rat) ^ e) →
      (∀ v, rne32 v = (f32.round .rne false v).code) ∧
      ((∀ x ∈ xs ++ ys, ∃ u n e, x = .num u n e) →
        ∃ u n e, dot xs ys = .num u n e ∧ val (dot xs ys) = ((xs.zip ys).map fun p => val p.1 * val p.2).sum) ∧
      ((∃ p ∈ xs.zip ys, FVal.mul p.1 p.2 = .nan) → dot xs ys = .nan)) ∧
    (∀ (u : Bool) (n : Nat) (e : Int) (x : ℝ), x = (if u then -(n : ℝ) else n) * (2 : ℝ) ^ e →
      exp2Diff .nan = .nan ∧ exp2Diff (.inf u) = (if u then .num false 0 0 else .inf false) ∧
      ∃ g h, exp2Diff (.num u n e) = .num false g h ∧ ∀ y : ℝ, y = g * (2 : ℝ) ^ h →
        (4096 ≤ |x| → y = (2 : ℝ) ^ (if u then -4096 else 4096 : Int)) ∧
        (0 < |x| → |x| < (2 : ℝ) ^ (-40 : Int) → (if u then y < 1 else 1 < y) ∧ |y - 1| < (2 : ℝ) ^ (-40 : Int)) ∧
        (|x| < 4096 → (∀ i : Int, x = i → y = (2 : ℝ) ^ i)) ∧
        ((2 : ℝ) ^ (-40 : Int) ≤ |x| → |x| < 4096 → |y - (2 : ℝ) ^ x| ≤ (2 : ℝ) ^ x * (2 : ℝ) ^ (-180 : Int))) ∧
    (∀ (val : Nat → ℝ) (fin : Nat → Prop), (∀ x u m e, f32.value x = .num u m e → val x = (if u then -(m : ℝ) else m) * (2 : ℝ) ^ e) →
      (∀ x, fin x ↔ x % 2 ^ 31 < 0x7F800000) →
      (∀ (n : Tussock) (key : List Nat) (e : ℝ), (n.count = 0 → newRadius s n key = 0) ∧
        (n.count ≠ 0 → (∀ x ∈ key ++ n.ksum, fin x) → n.radius < 0x7F800000 →
          e = Real.sqrt (((key.zip n.ksum).map fun p => (val p.1 - val p.2 / n.count) ^ 2).sum) →
          ∀ k < 0x7F800000, newRadius s n key ≤ k ↔
            max (val n.radius + e / (n.count + 1)) (e * n.count / (n.count + 1)) ≤ val k)) ∧
      ∀ (p : Plot) (keys values : List (List Nat)) (d size top : Nat) (S O : Nat → Nat) (recs : List Tussock)
        (sums : List (List Nat) → List Nat → Prop), 1 ≤ p.leaves → p.leaves ≤ 4096 → 2 ≤ p.branch → p.branch ≤ 8 →
        d = 8 * (p.dw + 1) → size = 128 + 8 * d → keys.length = 16 * p.leaves → values.length = 16 * p.leaves →
        (∀ r ∈ keys ++ values, r.length = d) → recs = plotRecords s p keys values →
        S 0 = p.leaves → (∀ h, S (h + 1) = (S h + p.branch - 1) / p.branch) → O 0 = 0 → (∀ h, O (h + 1) = O h + S h) →
        S top = 1 → (∀ h < top, 1 < S h) →
        (∀ rows out, sums rows out ↔ out.length = d ∧ ∀ j < d, out.getD j 0 =
          rows.foldl (fun acc r => rne32 (FVal.add false (f32.value acc) (f32.value (r.getD j 0)))) 0) →
        recs.length = O (top + 1) ∧ plotCount p.branch 13 p.leaves = recs.length ∧
        (∀ i r, recs[i]? = some r → r.va = p.area + BitVec.ofNat 64 (size * i) ∧ r.dw = p.dw ∧ r.scale = 0) ∧
        (∀ i < p.leaves, ∃ r rows, recs[i]? = some r ∧ rows = (keys.drop (16 * i)).take 16 ∧ r.leaf = true ∧ r.count = 16 ∧
          r.base = BitVec.ofNat 64 (p.t0 + 16 * i) ∧ r.kids = [] ∧ sums rows r.ksum ∧ sums ((values.drop (16 * i)).take 16) r.vsum ∧
          ((∀ x ∈ r.ksum, fin x) → (∀ y ∈ rows, ∀ x ∈ y, fin x) → ∀ k < 0x7F800000, r.radius ≤ k ↔
            ∀ y ∈ rows, Real.sqrt (((y.zip r.ksum).map fun q => (val q.1 - val q.2 / 16) ^ 2).sum) ≤ val k)) ∧
        ∀ h < top, ∀ i < S (h + 1), ∃ r kids, recs[O (h + 1) + i]? = some r ∧
          kids = (recs.drop (O h + p.branch * i)).take (min p.branch (S h - p.branch * i)) ∧ r.leaf = false ∧
          r.count = (kids.map Tussock.count).sum ∧ r.base = (kids.head?.map Tussock.base).getD 0 ∧ r.kids = kids.map Tussock.va ∧
          sums (kids.map Tussock.ksum) r.ksum ∧ sums (kids.map Tussock.vsum) r.vsum ∧
          ((∀ x ∈ r.ksum, fin x) → (∀ y ∈ kids, y.radius < 0x7F800000 ∧ ∀ x ∈ y.ksum, fin x) → ∀ k < 0x7F800000, r.radius ≤ k ↔
            ∀ y ∈ kids, Real.sqrt (((y.ksum.zip r.ksum).map fun q => (val q.1 / y.count - val q.2 / r.count) ^ 2).sum) +
              val y.radius ≤ val k))

/-! ### Reset, and what every step keeps -/

/-- R18, R83, R108, R111, R112, R128 to R130, R158, R243, R310, R311, R327, R332, R351, R363, R375, R378, R379, R382, R383: the
values that the spec gives for reset, with memory in its canonical form; and a strand starts with FCTL 0 and no link.
The model's own reading, and no rule's words: what the spec gives no reset value for is empty or zero (logs 19, 20, 111). -/
def Obligations.ResetValues : Prop :=
  (∀ c k, k = State.reset.core c → k.slots = [] ∧ k.pol = false ∧ k.age = 512 ∧ k.mvl = 32 ∧ k.lmap = 0 ∧ k.dmode = 0 ∧ k.unchk = 0 ∧
    k.voted = 0 ∧ k.expsplit = 16 ∧ k.otau = 0 ∧ k.ofloor = 0xFF800000#64 ∧ k.odepth = 0 ∧ k.xvec = 0 ∧ k.holder = none) ∧
  (∀ b, (State.reset.bank b).mode = 0 ∧ (State.reset.bank b).switch = none) ∧
  State.reset.cycle = 0 ∧ State.reset.xtfb = 0 ∧ State.reset.efqb = 0 ∧ State.reset.efqHead = 0 ∧ State.reset.efqTail = 0 ∧
  State.reset.erecSeq = 0 ∧ State.reset.jhead = 0 ∧ State.reset.hwin = 0 ∧ State.reset.ftmo = 1300000 ∧ State.reset.gtmo = 1300000 ∧
  (∀ p, State.reset.pstWord p = 0) ∧ (∀ k i, State.reset.pdecDword k i = 0) ∧ (∀ k, Tab.get 0 State.reset.meas k = 0) ∧
  State.reset.keys = [] ∧ State.reset.asids = [] ∧ State.reset.launches = [] ∧ State.reset.codes = [] ∧ State.reset.smaps = [] ∧
  State.reset.cmds = [] ∧ State.reset.lineage = [] ∧ State.reset.poison = [] ∧ State.reset.stage = 0 ∧ Memory.wf State.reset = true ∧
  (∀ pc t, t = Strand.start pc → t.pc = pc ∧ t.lvl = .s ∧ t.asid = 0 ∧ t.r.fctl = 0 ∧ t.r.plink = none ∧ t.xdepth = 0 ∧ t.flight = [] ∧
    t.ntd = 16 ∧ t.xcause = 0 ∧ t.xpc = 0 ∧ t.xaddr = 0 ∧ t.xinfo = 0 ∧ ∀ n < 16, Tab.get 0 t.fmt n = 0)

/-- Every step keeps memory in its canonical form, so that equal memories are equal data. -/
def Obligations.MemoryStaysCanonical : Prop :=
  ∀ (s t : State), Memory.wf s = true → step s = .next t → Memory.wf t = true

/-! ### Events (95) -/

/-- R72, R98, R105, R133, R246, R251, R253, R275, R302, R303, R364: an event of a strand gives the entry in flight that it names
another firing, on what stands before it and in its convoy's window, and leaves every other entry in flight as it is, in its
convoy and in the others; a contribution to `xred`, or the news that a counterpart has retired, is recorded first. An entry
whose group a vote has left undecided fires no more (R329).
The model's own reading, and no rule's words: when an entry fires (logs 1, 47). -/
def Obligations.EventsFireInFlight : Prop :=
  ∀ (s : State) (core slot : Nat) (t : Strand) (older younger : List Convoy) (c : Convoy) (before after : List Entry) (e : Entry) (p : Plan)
    (fires : State → Strand → Out → Prop) (op fn : Entry → Nat) (only : (Entry → Prop) → Prop),
    s.strandAt core slot = some t → t.flight = older ++ c :: younger → c.entries = before ++ e :: after → e.done = false → e.again = false →
    e.stuck = false → p = planOfWord e.word e.slotB → blockedBy p before = false →
    (∀ x, op x = if x.word.getLsbD 62 then 0 else field x.word 54 7) → (∀ x, fn x = field x.word 48 6) →
    (∀ f, only f ↔ f e ∧ (∀ x ∈ before ++ after, ¬ f x) ∧ ∀ d ∈ older ++ younger, ∀ x ∈ d.entries, ¬ f x) →
    (∀ x y o, fires x y o ↔ ∀ s1 e1, p.fireNow ((x.aim core slot c e).setMe { y with r := { y.r with fb := c.before.fb } })
        (older.flatMap Convoy.entries ++ before).reverse e = (s1, e1) → s1.me.flight = t.flight → s1.cur = (x.aim core slot c e).cur →
      ∃ u v, o = .next u ∧ u.strandAt core slot = some v ∧
        v.flight.map Convoy.entries = older.map Convoy.entries ++ (before ++ e1 :: after) :: younger.map Convoy.entries ∧
        v = { s1.me with r := { s1.me.r with fb := if s1.me.r.fb = c.before.fb then y.r.fb else s1.me.r.fb }
                         pc := v.pc, landing := v.landing, flight := v.flight } ∧
        ((p.cls ≠ .c ∨ c.next ≠ none ∨ after ≠ [] ∨ (e1.done = false ∧ e1.res = 0)) →
          v.pc = s1.me.pc ∧ v.flight.map Convoy.next = t.flight.map Convoy.next) ∧
        (p.cls = .c → c.next = none → after = [] → younger = [] → (e1.done = true ∨ e1.res ≠ 0) →
          v.pc = e1.res ∧ v.flight.map Convoy.next = older.map Convoy.next ++ [some e1.res]) ∧
        u.hbm = s1.hbm ∧ u.pool = s1.pool ∧ u.far = s1.far ∧ u.banks = s1.banks ∧ u.launches = s1.launches ∧ u.agenda = s1.agenda) →
    (only (fun x => op x = 0x17) → fires s t (exec (.backingStoreSpill core slot) s)) ∧
    (only (fun x => op x = 4 ∧ fn x = 2) → fires s t (exec (.backingStoreRefill core slot) s)) ∧
    (only (fun x => op x = 0x65) → fires s t (exec (.fifoPush core slot) s)) ∧
    (only (fun x => op x = 0x64) → fires s t (exec (.fifoPop core slot) s)) ∧
    (only (fun x => x.mem = true ∧ x.hasDm = true) → fires s t (exec (.vmuLineReply core slot) s)) ∧
    (only (fun x => x.mem = true) → fires s t (exec (.memoryEventPerform core slot) s)) ∧
    (only (fun x => x.mem = false) → fires s t (exec (.elementFire core slot) s)) ∧
    (only (fun x => op x = 6 ∧ fn x = 0) → fires s t (exec (.mwaitWake core slot) s) ∧ fires s t (exec (.mwaitTimeout core slot) s) ∧
      ∀ y, y = { t with monitor := t.monitor.map fun m => (m.1, m.2.1, true) } →
        fires (s.setStrand core slot y) y (exec (.monitorLost core slot) s)) ∧
    (only (fun x => op x = 9 ∧ fn x = 1) → fires s t (exec (.tideMarkRise core slot) s)) ∧
    (only (fun x => op x = 0x79 ∨ op x = 0x78 ∧ fn x ≠ 2) → e.flt = none → t.stopped = false → (s.core core).slots = [(slot, t)] →
      fires s t (exec (.walkerService core) s)) ∧
    (∀ w l k, only (fun x => op x = 8 ∧ fn x = 1) → s.cores = [(core, s.core core)] → (s.core core).slots = [(slot, t)] → t.work = some w →
      Tab.find s.launches w.launch = some l → fires s t (exec (.barrierRelease w.launch k (w.linear / l.groupSize k)) s)) ∧
    (∀ device x, only (fun x => x.mem = true) → x = ({ s with down := addOnce s.down device } : State) →
      fires x t (exec (.peerTimeout core slot device) s)) ∧
    (∀ w l i member sa g ty gg n vals x, only (fun x => op x = 0x73) → t.work = some w → Tab.find s.launches w.launch = some l →
      Tab.find l.items w.linear = some i →
      ((∀ y ∈ s.xreds, y.member ≠ member) →
        x = ({ s with xreds := s.xreds ++ [⟨w.launch, w.linear, i.nxred, member, [sa, g, ty, gg, n], pairsOf vals⟩] } : State) →
        fires x t (exec (.xredContribution core slot (member :: sa :: g :: ty :: gg :: n :: vals)) s)) ∧
      (x = ({ s with xreds := s.xreds ++ [⟨w.launch, w.linear, 0, member, [], []⟩] } : State) →
        fires x t (exec (.xredContribution core slot [member]) s)))

/-- R48, R89, R99, R136, R138, R307, R328, R329: an event of a strand lets its oldest convoy retire, with its vector results then what
their names hold, or take its trap; turns away the convoy that cannot be fetched or is illegal; and settles a recheck. A convoy
with an instruction that has still to be found to agree stays. R12, R329: an element group lies on the lane of its number; its
first run was there and its second on the next lane in service, and a vote's record names the lane whose value does not stand.
The model's own reading, and no rule's words: the lane named where all three runs differ (log 148). -/
def Obligations.RetirementDeliveryChecking : Prop :=
  ∀ (s : State) (core slot : Nat) (t : Strand), s.strandAt core slot = some t →
    (∀ c rest, t.flight = c :: rest → c.closed = true →
      (∀ e ∈ c.entries, e.done = true ∧ e.flt = none ∧ e.bad = none ∧ (e.chk = false ∨ e.sure = true)) →
      ((∀ e ∈ c.entries, e.ending = .none) → ∃ u v, exec (.convoyRetire core slot) s = .next u ∧ u.strandAt core slot = some v ∧
        v = { t with flight := rest } ∧ u.hbm = s.hbm ∧ u.banks = s.banks ∧
        (∀ e, c.entries = [e] → ∀ n r, e.vd = [(n, r)] → (s.core core).holder = some slot → Tab.rising (s.core core).v none = true →
          Tab.get VReg.zero (u.core core).v n = r)) ∧
      (∀ e, Tab.rising s.cores none = true → Tab.rising (s.core core).slots none = true → c.entries = [e] → e.ending = .halt → rest = [] →
        e.again = false → e.word.getLsbD 62 = false → field e.word 54 7 = 6 → field e.word 48 6 = 1 →
        ∃ u, exec (.haltRetire core slot) s = .next u ∧ u.strandAt core slot = none ∧ u.hbm = s.hbm ∧ u.pool = s.pool)) ∧
    (t.stopped = false →
      (∀ tr, t.pend = some tr → s.awaited core slot t = false → exec (.trapDelivery core slot) s = s.takeTrap core slot tr t.xpc ∧
        (t.lvl ≠ .m → ∃ u, exec (.trapDelivery core slot) s = .next u)) ∧
      (∀ c rest e f, t.pend = none → t.flight = c :: rest → c.closed = true → c.entries = [e] → e.flt = some f → e.bad = none →
        e.held = false → f.after = false → s.awaited core slot t = false → t.checking = false →
        exec (.trapDelivery core slot) s = s.takeTrap core slot { f with pos := e.pos } c.base)) ∧
    (t.stopped = false → t.halting = false → t.vec = none → t.flight = [] → t.pend = none → t.monitor = none → s.awaited core slot t = false →
      (∀ tr, s.fetchWords core t.asid t.lvl t.pc 4 = .error tr → tr.cause = 4 →
        exec (.instructionFetch core slot) s = s.takeTrap core slot tr t.pc) ∧
      (∀ ws, s.fetchWords core t.asid t.lvl t.pc 4 = .ok ws → t.wait = 12 → ∃ u, exec (.instructionFetch core slot) s = .next u ∧
        u.strandAt core slot = some { t with wait := 0 } ∧ u.hbm = s.hbm ∧ u.banks = s.banks) ∧
      (∀ w, s.fetchWords core t.asid t.lvl t.pc 4 = .ok [w] → t.landing = false → legalWord w = false → w.getLsbD 62 = false →
        exec (.illegalInstruction core slot) s = s.takeTrap core slot { cause := 1 } t.pc ∧
        (t.lvl ≠ .m → ∃ u, exec (.illegalInstruction core slot) s = .next u))) ∧
    (∀ c e, t.flight = [c] → c.entries = [e] → e.chk = true → e.done = true → e.sure = false →
      ∃ u, exec (.dailiesRecheck core slot) s = .next u ∧ u.strandAt core slot =
        some { t with flight := [{ c with entries := [{ e with sure := true }] }] } ∧ u.agenda = s.agenda ∧ u.hbm = s.hbm) ∧
    (∀ c rest e, t.flight = c :: rest → e ∈ c.entries → e.chk = true → e.sure = false → exec (.convoyRetire core slot) s = .next s) ∧
    (∀ c e elem (values : List Nat) (group : Nat → Prop) (k : Core) (names : Nat → State → Prop), t.flight = [c] → c.entries = [e] →
      e.w ∈ [8, 16, 32, 64] → e.n ≤ 16384 / e.w →
      elem < e.n → e.hasDm = false → (∀ i, group i ↔ i < e.n ∧ i / (64 / e.w) = elem / (64 / e.w)) → k = s.core core →
      (∀ lane u, names lane u ↔ (Tab.rising s.erecs none = true → core < 512 → lane < 32 → slot < 8 →
        ∃ d, Tab.find u.erecs (s.erecSeq + 1) = some d ∧
          (d.headD 0).toNat = 6 + core * 2 ^ 16 + lane * 2 ^ 25 + slot * 2 ^ 30)) →
      (k.lmap = 0 → k.width ∈ [8, 16, 32] → k.firstLane e elem = elem / (64 / e.w) % k.width ∧
        k.secondLane e elem = (elem / (64 / e.w) + 1) % k.width) ∧
      (∃ u, exec (.dailiesVote core slot (.firstStands 0 elem)) s = .next u ∧ u.strandAt core slot = some t ∧
        (u.core core).voted = min (k.voted + 1) 65535 ∧ u.erecSeq = s.erecSeq + 1 ∧ names (k.secondLane e elem) u ∧ u.hbm = s.hbm) ∧
      (∀ n r, e.vd = [(n, r)] → e.qd = [] →
        (values.length = 64 / e.w → (∀ x ∈ values, x < 2 ^ e.w) →
          ∃ u w x, exec (.dailiesVote core slot (.secondStands 0 elem values)) s = .next u ∧ u.strandAt core slot = some w ∧
          w = { t with flight := [{ c with entries := [{ e with vd := [(n, x)] }] }] } ∧
          (∀ i, group i → x.get e.w i = .full (values.getD (i % (64 / e.w)) 0)) ∧
          (∀ i < 16384 / e.w, ¬ group i → x.get e.w i = r.get e.w i) ∧ (u.core core).voted = min (k.voted + 1) 65535 ∧
          names (k.firstLane e elem) u) ∧
        (∃ u w x first, exec (.dailiesVote core slot (.threeDiffer 0 elem)) s = .next u ∧ u.strandAt core slot = some w ∧
          first = elem / (64 / e.w) * (64 / e.w) ∧
          w = { t with flight := [{ c with
            entries := [{ e with vd := [(n, x)], done := false, stuck := true, flt := some { cause := 32, info := 1, elem := some first } }] }] } ∧
          (∀ i, group i → x.get e.w i = .empty) ∧ (∀ i < 16384 / e.w, ¬ group i → x.get e.w i = r.get e.w i) ∧
          u.erecSeq = s.erecSeq + 2 ∧ (u.core core).voted = min (k.voted + 1) 65535 ∧ names (k.secondLane e elem) u)))

/-- R126, R128 to R130, R184, R191, R210, R211, R232, R243, R283, R324, R326: what happens to a core, a bank, a lineage entry or a cached
line by itself, each with what it changes; error records where the spec has them. An uncorrectable word makes what it holds
POISON, wherever the register stands: under its name, in flight, or kept by a strand. A far line that a link holds stays.
The model's own reading, and no rule's words: what the error records hold, what a scrub writes back, that POISON comes at once,
and what a word of a mask, a tile or the latch takes with it (logs 87, 99, 100, 102, 149). -/
def Obligations.CoreAndClusterEvents : Prop :=
  ∀ (s : State) (core n : Nat) (k : Core), k = s.core core →
    (∀ slot t rest, k.laneQ = slot :: rest → rest.all (fun x => decide (x ≠ slot)) = true → s.strandAt core slot = some t → t.vec = none →
      k.holder = none → k.scrub = false →
      8 ≤ k.gvl → ∃ u, exec (.laneGrant core) s = .next u ∧ (u.core core).holder = some slot ∧ (u.core core).width = k.gvl ∧
        (u.core core).v = [] ∧ (u.core core).q = [] ∧ (u.core core).tiles = [] ∧ (u.core core).latch = none ∧ (u.core core).laneQ = rest ∧
        (u.core core).slots = k.slots ∧ u.hbm = s.hbm ∧ u.banks = s.banks) ∧
    (∀ t : Tile, t = Tab.get Tile.start k.tiles n →
      (t.st = .filling → t.filled = true →
        exec (.tileFillComplete core n) s = .next (s.setTile core n { t with st := .ready, fill := none })) ∧
      (∀ f, t.st = .draining → t.fill = some f → f.done = BitVec.allOnes 131072 →
        exec (.tileDrainComplete core n) s = .next (s.setTile core n { t with st := .ready, fill := none })) ∧
      (∀ l made, k.latching = some (n, made) → k.latch = some l → exec (.latchCopy core) s = .next { s.setCore core { k with
        latch := some { l with codes := t.codes, side := t.side, poison := t.poison }
        latching := some (n, true) } with agenda := s.agenda ++ [.latchCopyComplete core] }) ∧
      (k.latching = some (n, false) → exec (.latchCopyComplete core) s = .next s) ∧
      (k.latching = some (n, true) → exec (.latchCopyComplete core) s = .next (s.setCore core { k with
        latching := none, tiles := Tab.set Tile.start k.tiles n { t with st := .ready } }))) ∧
    (n ∈ [8, 16, 32] → exec (.powerLimitChange core n) s = .next (s.setCore core { k with limit := n })) ∧
    (k.pwr < k.mvl → s.stage ≠ 4 → exec (.lanePowerUp core) s = .next (s.setCore core { k with pwr := k.pwr + 1 })) ∧
    (k.pwr < k.mvl → s.stage = 4 → ∃ x, exec (.lanePowerUp core) s =
        .next { s.setCore core { k with pwr := k.pwr + 1 } with agenda := s.agenda ++ [x] } ∧
      (k.pwr + 1 < k.mvl → x = .lanePowerUp core) ∧
      (k.mvl ≤ k.pwr + 1 → (x = .powerUpStage ∧ ∀ cl < 8, ∀ j ∈ s.serving cl, j ≤ core) ∨
        ∃ j, x = .lanePowerUp j ∧ core < j ∧ ∃ cl < 8, j ∈ s.serving cl)) ∧
    (n < 32 → ∃ u, exec (.lmapFailMark core n) s = .next u ∧ (u.core core).lmap = k.lmap ||| (1#32 <<< n) ∧ u.erecSeq = s.erecSeq + 1) ∧
    (∀ lane syn, lane < 32 → core < 512 → (∀ h, k.holder = some h → h < 8) → ∃ u d, exec (.laneRollback core lane syn) s = .next u ∧
      u.cores = s.cores ∧ u.erecSeq = s.erecSeq + 1 ∧ u.hbm = s.hbm ∧
      Tab.find u.erecs (s.erecSeq + 1) = some d ∧ (d.headD 0).toNat = 5 + core * 2 ^ 16 + lane * 2 ^ 25 + k.holder.getD 0 * 2 ^ 30) ∧
    (∀ kind lane slot asid loc syn, kind < 256 → core < 512 → lane < 32 → slot < 8 → asid < 256 →
      ∃ u d, exec (.eccCorrection (.corrected kind core lane slot asid loc syn)) s = .next u ∧ u.cores = s.cores ∧ u.hbm = s.hbm ∧
      Tab.find u.erecs (s.erecSeq + 1) = some d ∧ (d.headD 0).toNat = kind + core * 2 ^ 16 + lane * 2 ^ 25 + slot * 2 ^ 30 ∧
      d.getD 3 0 = BitVec.ofNat 64 loc ∧ d.getD 4 0 = BitVec.ofNat 64 asid ∧ d.getD 5 0 = BitVec.ofNat 64 syn) ∧
    (∀ (reg w : Nat) (side : Bool) (vword : VReg → VReg → Prop) (qword : QReg → QReg → Prop) (rows : BitVec 256 → BitVec 256 → Nat → Nat → Prop),
      w < 256 →
      (∀ x y, vword x y ↔ ∀ i < 2048, y.get 8 i = if i / 8 = w ∧ x.get 8 i ≠ .empty then .poison else x.get 8 i) →
      (∀ x y, qword x y ↔ ∀ i < 2048, y.get i = if i / 64 = w ∧ x.get i ≠ .empty then .poison else x.get i) →
      (∀ x y n b, rows x y n b ↔ ∀ r < 256, (y.getLsbD r = true ↔ x.getLsbD r = true ∨
        if side then r / 32 = w / 64 else r < n ∧ r * b < 64 * w + 64 ∧ 64 * w < (r + 1) * b)) →
      (∃ u, exec (.eccCorrection (.vector core .named reg w)) s = .next u ∧ u.hbm = s.hbm ∧
        vword (Tab.get VReg.zero k.v reg) (Tab.get VReg.zero (u.core core).v reg)) ∧
      (∃ u, exec (.eccCorrection (.mask core .named reg w)) s = .next u ∧ u.hbm = s.hbm ∧
        qword (Tab.get QReg.zero k.q reg) (Tab.get QReg.zero (u.core core).q reg)) ∧
      (∀ t : Tile, t = Tab.get Tile.start k.tiles reg → ∃ u p, exec (.eccCorrection (.tile core .named reg side w)) s = .next u ∧
        u.hbm = s.hbm ∧ Tab.get Tile.start (u.core core).tiles reg = { t with poison := p } ∧ (t.st = .empty → p = t.poison) ∧
        (t.st ≠ .empty → rows t.poison p t.rows (t.cols * t.ebits))) ∧
      (∀ l, k.latch = some l → ∃ p, exec (.eccCorrection (.latch core .named side w)) s =
        .next (s.setCore core { k with latch := some { l with poison := p } }) ∧ rows l.poison p l.k (l.n * (4 * 2 ^ l.ew))) ∧
      (∀ slot t c e, s.strandAt core slot = some t → t.flight = [c] → c.entries = [e] →
        (∀ r, e.vd = [(reg, r)] → ∃ x, exec (.eccCorrection (.vector core (.inFlight slot 0) reg w)) s = .next (s.setStrand core slot
          { t with flight := [{ c with entries := [{ e with vd := [(reg, x)] }] }] }) ∧ vword r x) ∧
        (∀ r, e.qd = [(reg, r)] → ∃ x, exec (.eccCorrection (.mask core (.inFlight slot 0) reg w)) s = .next (s.setStrand core slot
          { t with flight := [{ c with entries := [{ e with qd := [(reg, x)] }] }] }) ∧ qword r x)) ∧
      (∀ slot t vs, s.strandAt core slot = some t → t.vec = some vs →
        (∃ x, exec (.eccCorrection (.vector core (.saved slot) reg w)) s = .next (s.setStrand core slot { t with vec := some { vs with
          v := Tab.set VReg.zero vs.v reg x } }) ∧ vword (Tab.get VReg.zero vs.v reg) x) ∧
        (∃ x, exec (.eccCorrection (.mask core (.saved slot) reg w)) s = .next (s.setStrand core slot { t with vec := some { vs with
          q := Tab.set QReg.zero vs.q reg x } }) ∧ qword (Tab.get QReg.zero vs.q reg) x))) ∧
    (∀ slot t reg, s.strandAt core slot = some t → ∃ u v, exec (.eccCorrection (.scalar core slot reg)) s = .next u ∧
      u.strandAt core slot = some v ∧ v = { t with lost := v.lost } ∧ reg ∈ v.lost ∧ ∀ x ∈ t.lost, x ∈ v.lost) ∧
    ((∀ g ∈ s.starting, core ∉ g.cores) → exec (.ownerScrub core n) s = .next s) ∧
    (∀ g, s.starting = [g] → core ∈ g.cores →
      (k.holder.isSome = true → exec (.ownerScrub core n) s = .next { s with agenda := s.agenda ++ [.ownerScrub core n] }) ∧
      (k.holder = none → ∃ u, exec (.ownerScrub core n) s = .next u ∧ (u.core core).owner = some n ∧ (u.core core).scrub = false ∧
        (u.core core).v = [] ∧ (u.core core).q = [] ∧ (u.core core).tiles = [] ∧
        (Tab.rising s.far none = true → ∀ l ∈ u.far, l.2.dirty = 0) ∧
        ((g.banks ≠ [] ∨ ∃ x ∈ g.cores, x ≠ core) → (u.core core).slots = k.slots ∧
          u.starting = [{ g with cores := g.cores.filter fun x => x != core }]) ∧
        (g.banks = [] → (∀ x ∈ g.cores, x = core) → u.starting = [] ∧ ∀ a b x, g.strands = [(a, b, x)] →
          u.strandAt a b = some { x with startStamp := s.cycle, lastReady := s.cycle }))) ∧
    (∀ cl b o m, n = 256 * cl + b → Tab.rising s.banks none = true →
      ((∀ g ∈ s.starting, g.banks.head? ≠ some n) → exec (.bankOwnerZeroing cl b o) s = .next s) ∧
      (∀ g more, s.starting = [g] → g.banks = n :: more → ∃ u, exec (.bankOwnerZeroing cl b o) s = .next u ∧ (u.bank n).data = [] ∧
        (u.bank n).owner = some o ∧ (∀ x, x ≠ n → u.bank x = s.bank x) ∧ u.hbm = s.hbm ∧
        (∀ x rest, more = x :: rest → u.starting = [{ g with banks := more }] ∧
          u.agenda = s.agenda ++ [.bankOwnerZeroing (x / 256) (x % 256) o]) ∧
        (more = [] → g.cores = [] → u.starting = [] ∧ ∀ a j x, g.strands = [(a, j, x)] →
          u.strandAt a j = some { x with startStamp := s.cycle, lastReady := s.cycle })) ∧
      ((s.bank n).switch = some m → ∃ u, exec (.bankModeSwitchComplete cl b) s = .next u ∧ (u.bank n).mode = m ∧ (u.bank n).switch = none ∧
        (u.bank n).data = [] ∧ (u.bank n).fifo = [] ∧ (u.bank n).head = 0 ∧ (u.bank n).owner = (s.bank n).owner ∧ u.hbm = s.hbm)) ∧
    (∀ cl b, (∀ r ∈ s.releasing, r.1 = cl → r.2.base.toNat = b → s.rootOpen cl r.2 = false) → ∃ u, exec (.reelStorageRelease cl b) s = .next u ∧
      u = { s with releasing := u.releasing } ∧ ∀ r, r ∈ u.releasing ↔ r ∈ s.releasing ∧ ¬ (r.1 = cl ∧ r.2.base.toNat = b)) ∧
    (∀ cl l a b la li reg x y z, Tab.rising s.lineage none = true → l = s.lin cl n → l.move = some (a, b, la, li, reg) → l.open_ = 0 →
      s.resident la li = some (x, y) →
      s.strandAt x y = some z → ∃ u v, exec (.hmovDelivery cl n) s = .next u ∧ u.strandAt x y = some v ∧
        v = { z with h := Tab.put z.h reg (handleImage n l.gen) } ∧ (u.lin cl n).move = none) ∧
    (∃ u, exec (.cacheEviction n) s = .next u ∧ u.hbm = s.hbm ∧ u.banks = s.banks ∧
      (s.linkedFar n = true ↔ ∃ c ∈ s.cores, ∃ t ∈ c.2.slots, ∃ l ∈ t.2.links, l.broken = false ∧ l.line = 2 ^ 60 + n / 512 ∧ l.slot = n % 512) ∧
      (Tab.rising s.far none = true → (s.linkedFar n = false → Tab.find u.far n = none) ∧
      (s.linkedFar n = true → ∀ l, Tab.find s.far n = some l → Tab.find u.far n = some { l with dirty := 0 }) ∧
      (∀ x, x ≠ n → Tab.find u.far x = Tab.find s.far x) ∧
      ∀ l i, Tab.find s.far n = some l → l.dirty.getLsbD i = true → i < 64 → Tab.wf memDefault s.pool = true →
        Tab.get memDefault u.pool (s.poolAt (n / 512 * 64) + i) = Tab.get memDefault l.bytes i))

/-- R69, R233, R253, R263, R265, R266, R273, R332: what the engines, the placer and other devices do: a chunk or a line copied and the
command taken on, a stop and its record, completion, a group started or aged, none while one of its launch has still to be
scrubbed for, an access served for another device, by which a line written whole becomes sound.
`Combining` says what a sum, a minimum, a maximum and a remote operation give.
The model's own reading, and no rule's words: the order of translations, the answer to a peer, and what an aged queue does (logs 73, 90, 104). -/
def Obligations.EngineEvents : Prop :=
  Combining ∧
  ∀ (s : State) (id : Nat) (c : Cmd), Tab.find s.cmds id = some c → c.fin = false → c.begun = true →
    (∀ n bs t, c.kind = 1 → c.stop = none → n = min c.len (65536 - c.dst.toNat % 65536) → s.copyPiece c n = (.ok bs, t) →
      exec (.tcopyChunk id) s = .next { t with
        cmds := Tab.put t.cmds id { c with dst := c.dst + BitVec.ofNat 64 n, src := c.src + BitVec.ofNat 64 n, len := c.len - n }
        agenda := t.agenda ++ [if c.len = n then .commandComplete id else .tcopyChunk id] }) ∧
    (∀ n r va t, c.kind = 1 → c.stop = none → n = min c.len (65536 - c.dst.toNat % 65536) → s.copyPiece c n = (.stop r va, t) →
      exec (.tcopyChunk id) s = .next { s with
        cmds := Tab.put s.cmds id { c with stop := some (r, va), sent := false, logged := false }
        agenda := s.agenda ++ [.engineFaultQueueWrite id] }) ∧
    (∀ n dls sls bs, s.enginePages c .write c.dst n = .ok dls → s.enginePages c .read c.src n = .ok sls → s.engineRead sls c.src n [] = .ok bs →
      bs.length = n ∧ (s.engineWriteStop dls (vaLines (n + 1) c.dst bs) = none →
        s.copyPiece c n = (.ok bs, (vaLines (n + 1) c.dst bs).foldl (fun u l => u.writeBytes (u.spot dls l.1) l.2) s))) ∧
    (∀ bs t m g, c.kind = 3 → c.stop = none → s.copyPiece c (min c.len 64) = (.ok bs, t) → Tab.find t.smaps c.entry = some m → m.grow = some g →
      exec (.slabLineCopy id) s = .next { t with
        cmds := Tab.put t.cmds id { c with dst := c.dst + 64#64, src := c.src + 64#64, len := c.len - min c.len 64 }
        smaps := Tab.put t.smaps c.entry { m with grow := if c.len ≤ 64 then none else some (g.1, g.2 + 64) }
        agenda := t.agenda ++ [if c.len ≤ 64 then .commandComplete id else .slabLineCopy id] }) ∧
    (∀ m l off sp dp, s.migs = [m] → m.cmd = id → s.leafOf c.asid c.dst = .ok l → off = 64 * m.copied →
      sp = homeOf m.cls (field m.old 57 2) l.key (field m.old 16 32) off → dp = homeOf m.cls l.skew l.key m.frame off → s.poisoned sp = false →
      ∃ t u, t = s.writeBytes dp (s.readBytes sp 64) ∧ exec (.migrationLineCopy id) s = .next u ∧ u.hbm = t.hbm ∧ u.pool = t.pool ∧ u.far = t.far ∧
        (m.copied ≠ 1023 → u.migs = [{ m with copied := m.copied + 1 }] ∧ u.agenda = s.agenda ++ [.migrationLineCopy id]) ∧
        (m.copied = 1023 → u.migs = [] ∧ u.agenda = s.agenda ++ [.commandComplete id])) ∧
    (∀ r va q p, c.stop = some (r, va) → c.sent = false → s.efqb ≠ 0 → s.efqHead < 65536 → s.efqTail < 65536 → (s.efqHead + 65536 - s.efqTail) % 65536 ≠ 64 →
      q = s.efqb + BitVec.ofNat 64 (64 * (s.efqHead % 64)) → s.xlate (clusterOf c.core) 0 .s .write .data q = .ok p → s.poisoned p = false →
      s.reelLive p = false → ∃ u, exec (.engineFaultQueueWrite id) s = .next u ∧ u.efqHead = (s.efqHead + 1) % 65536 ∧
        Tab.find u.cmds id = some { c with sent := true } ∧
        u.hbm = (s.writeBytes p ([BitVec.ofNat 64 (c.kind + r * 2 ^ 8 + c.asid * 2 ^ 16 + c.core * 2 ^ 24 + c.ctr * 2 ^ 33), BitVec.ofNat 64 c.num,
          c.dst, c.src, BitVec.ofNat 64 c.len, va, BitVec.ofNat 64 c.entry, (0 : Word)].flatMap fun w => toBytes 8 w.toNat)).hbm) ∧
    (∀ k, Tab.rising s.cores none = true → Tab.rising (s.core c.core).ctrs none = true → k = s.ctr c.core c.ctr → c.num = k.done + 1 →
      k.mine = none → s.cmds = [(id, c)] → ∃ u, exec (.commandComplete id) s = .next u ∧
      u.cmds = [] ∧ (u.ctr c.core c.ctr).done = k.done + 1 ∧ (u.ctr c.core c.ctr).pins = k.pins - 1 ∧ (u.ctr c.core c.ctr).iss = k.iss ∧
      u.hbm = s.hbm ∧ u.agenda = s.agenda) ∧
    (∀ l a, Tab.find s.launches a = some l → ∀ z, l.since = some z → z + lqage ≤ s.cycle → .launchGroupStart ∉ s.agenda →
      exec (.lqageExpiry a) s = .next { s with agenda := s.agenda ++ [.launchGroupStart] }) ∧
    (s.queued = [] → exec .launchGroupStart s = .next s) ∧
    (∀ a l t, s.launches = [(a, l)] → l.retired = false → l.group < l.groups → l.armed = true → (∀ g ∈ s.starting, g.launch ≠ a) → s.startGroup a l = some t →
      (coresToScrub s t a (s.ownerOf l) = [] → banksToZero s t (s.ownerOf l) = [] →
        ∃ u m, exec .launchGroupStart s = .next u ∧ Tab.find u.launches a = some m ∧ m.group = l.group + 1) ∧
      ((coresToScrub s t a (s.ownerOf l) ≠ [] ∨ banksToZero s t (s.ownerOf l) ≠ []) →
        ∃ u m g, exec .launchGroupStart s = .next u ∧ Tab.find u.launches a = some m ∧ m.group = l.group + 1 ∧
          u.starting = s.starting ++ [g] ∧ g.launch = a ∧ g.cores = coresToScrub s t a (s.ownerOf l) ∧
          g.banks = (banksToZero s t (s.ownerOf l)).mergeSort)) ∧
    (∀ a l, s.launches = [(a, l)] → l.retired = false → l.group < l.groups → l.armed = true → (∀ g ∈ s.starting, g.launch ≠ a) → s.startGroup a l = none →
      ∃ u m, exec .launchGroupStart s = .next u ∧ Tab.find u.launches a = some m ∧ m.group = l.group ∧ m.since = some (l.since.getD s.cycle)) ∧
    (∀ a l g, s.launches = [(a, l)] → l.retired = false → l.group < l.groups → l.armed = true → g ∈ s.starting → g.launch = a →
      ∃ u m, exec .launchGroupStart s = .next u ∧ Tab.find u.launches a = some m ∧ m.group = l.group ∧ u.starting = s.starting) ∧
    (∀ (r : PeerReq) (answer : State → List (Nat × Nat) → Out),
      (∀ u l, answer u l = .next { u with out := u.out ++ [.peerReply l] }) →
      (r.ask = true → exec (.peerAccessRequest r) s = answer s (r.elts.map fun x => (s.homeReason (peerAcc r) x, 0))) ∧
      (r.ask = false →
        (∀ x xs u y w z, r.elts = x :: xs → s.homePerform r x = (u, y) → u.homeAll r xs = (w, z) →
          exec (.peerAccessRequest r) s = answer (w.clearWhole ((((x :: xs).zip (y :: z)).filter fun q =>
            q.2.1 == 0 && r.kind == 1 && q.1.half.isNone).filterMap fun q =>
              (s.homePlace .write q.1).toOption.map fun p => (p, q.1.width))) (y :: z)) ∧
        (∀ x e, r.elts = [x] → s.homePlace (peerAcc r) x = .error e → e ≠ 0 → exec (.peerAccessRequest r) s = answer s [(e, 0)]) ∧
        (∀ x p, r.elts = [x] → s.homePlace (peerAcc r) x = .ok p →
          (s.poisoned p = true → r.kind ≠ 1 → exec (.peerAccessRequest r) s = answer s [(10, 0)]) ∧
          (r.kind = 1 → x.half = none → x.width ≤ 64 → exec (.peerAccessRequest r) s = answer (s.storeAt p x.width x.data) [(0, 0)]) ∧
          (s.poisoned p = false →
            (r.kind = 0 → exec (.peerAccessRequest r) s = answer (s.noteRead p) [(0, s.readNat p x.width)]) ∧
            (r.kind = 13 → exec (.peerAccessRequest r) s =
              answer (s.storeAt p x.width (poolAdd r.ty .rne r.sat (some (s.readNat p x.width)) x.data)) [(0, 0)]) ∧
            (∀ k, r.kind = k + 2 → k ≠ 11 → exec (.peerAccessRequest r) s =
              answer (s.storeAt p x.width (amoNew k r.ty (s.readNat p x.width) x.data x.compare)) [(0, s.readNat p x.width)])))))

/-- R370 to R372, R374, R375, R381, R382, R384: what the host and stores to the device pages do: the host's windows, messages, the journal,
the firmware's requests, the pool decoders, and a poisoned line of the pool. A key slot is removed once no access that reached it
has still to perform; until then it counts as empty for the host's window, and a write that began before goes on under the
window it began with.
The model's own reading, and no rule's words: one removal of a slot at a time (log 131), requests outside near memory, reserved fields, refused statuses and free bytes (logs 15, 23, 51, 52, 98). -/
def Obligations.HostAndRegisterEvents : Prop :=
  ∀ (s : State) (n off v k : Nat) (data : List Nat) (relaxed : Bool) (d : Word), d = BitVec.ofNat 64 v →
    (∀ (began : Option Word) (h : Word) (j : Nat) (t : State), h = began.getD s.hwin → (began = none → s.windowOpen = true) →
      off + data.length ≤ 2 ^ 30 → j = 64 - off % 64 →
      t = s.nearWrite (field h 48 9) (field h 30 9 * 2 ^ 30 + off) ((data.take j).map (BitVec.ofNat 8)) →
      exec (.hostWrite 2 off ⟨data, relaxed, began⟩) s = .next (if data.length ≤ j then t
        else { t with agenda := .hostWrite 2 (off + j) ⟨data.drop j, relaxed, some h⟩ :: t.agenda })) ∧
    (s.windowOpen = true ↔ field s.hwin 30 9 < 509 ∧ ∃ x, Tab.find s.keys (field s.hwin 48 9) = some x ∧ x.going = none) ∧
    (s.windowOpen = false → exec (.hostWrite 2 off ⟨data, relaxed, none⟩) s = .next s) ∧
    (∀ began, exec (.hostWrite 4 off ⟨data, relaxed, began⟩) s = .next s) ∧
    (∀ e t, s.nextEvent = some (e, t) → (∃ b o x w, e = .hostWrite b o ⟨x, false, w⟩) → ∃ l r, s.agenda = l ++ e :: r ∧ t.agenda = l ++ r ∧
      ∀ y ∈ l, ∀ b o x, y ≠ .hostWrite b o x) ∧
    (∃ bs, exec (.hostRead n off k) s = .next { s with out := s.out ++ [.hostData bs] } ∧ bs.length = k ∧
      (n = 2 → s.windowOpen = false → ∀ b ∈ bs, b = 255)) ∧
    (2048 ≤ v → exec (.hmsiStore v) s = .next s) ∧
    (v < 2048 → (s.msixDword (2 * v + 1)).getLsbD 32 = false → exec (.hmsiStore v) s = .next { s with
      out := s.out ++ [.msix v (s.msixDword (2 * v)) (field (s.msixDword (2 * v + 1)) 0 32)] }) ∧
    (v < 2048 → (s.msixDword (2 * v + 1)).getLsbD 32 = true → exec (.hmsiStore v) s = .next { s with msixPend := Tab.put s.msixPend v true }) ∧
    exec (.devregWrite 2 0 v) s = .next { s with hwin := d &&& 0x1FF007FC0000000#64 } ∧
    exec (.devregWrite 4 0 v) s = .next { s with ftmo := v % 2 ^ 32 } ∧ exec (.devregWrite 4 8 v) s = .next { s with gtmo := v % 2 ^ 32 } ∧
    (∀ ds t j, n + 64 ≤ nearBytes → ds = (List.range 8).map (fun i => s.nearDword (n + 8 * i)) → jState ds = 1 → ds.getD 1 0 / 2 ^ 10 = 0 →
      ds.getD 7 0 / 2 ^ 32 = 0 → s.journalAppend ds = some (t, j) → exec (.japp n) s = .next (t.nearWrite 0 n (toBytes 8 j)) ∧ j = s.jhead + 1 ∧
      t.jhead = j ∧ t.journal false j = t.journal true j) ∧
    (n + 64 ≤ nearBytes → s.nearDword (n + 8) % 16 ≠ 1 → exec (.japp n) s = .next (s.nearWrite 0 n (toBytes 8 0))) ∧
    (∀ j x, v = j * 256 + x → x < 256 → (j = 0 ∨ (s.journal false j).getD 0 0 ≠ j ∨
        jStep ((s.journal false j).getD 1 0 % 16) (x % 16) = false) → exec (.jstat v) s = .next s) ∧
    (∀ j x ds, v = j * 256 + x → x < 256 → ds = s.journal false j → j ≠ 0 → ds.getD 0 0 = j → jStep (ds.getD 1 0 % 16) (x % 16) = true →
      exec (.jstat v) s = .next (s.journalWrite j (ds.set 1 (ds.getD 1 0 / 256 * 256 + x)))) ∧
    (∀ slot o key, n + 256 ≤ nearBytes → slot = s.nearDword (n + 16) → o = s.nearDword (n + 24) → key = BitVec.ofNat 512 (ofBytes (s.nearBytes 0 (n + 32) 64)) →
      slot < 512 → Tab.find s.keys slot = none → ∃ u, exec (.fwreqInstallKey n) s = .next u ∧ Tab.find u.keys slot = some ⟨o, key, none⟩) ∧
    (∀ slot x, n + 256 ≤ nearBytes → Tab.rising s.keys none = true → Tab.find s.keys slot = some x →
      (slot = s.nearDword (n + 16) ∧ (∀ y ∈ s.keys, y.2.going = none)) ∨ (x.going = some n ∧ ∀ y ∈ s.keys, y.2.going = some n → y.1 = slot) →
      (s.slotOpen slot = false → ∃ u, exec (.fwreqRemoveKey n) s = .next u ∧ Tab.find u.keys slot = none ∧
        ∀ y, y ≠ slot → Tab.find u.keys y = Tab.find s.keys y) ∧
      (s.slotOpen slot = true → exec (.fwreqRemoveKey n) s = .next { s with
        keys := Tab.put s.keys slot { x with going := some n }, agenda := s.agenda ++ [.fwreqRemoveKey n] })) ∧
    (∀ b, n + 256 ≤ nearBytes → b = s.nearDword (n + 16) → b + 696 ≤ nearBytes → exec (.fwreqAttestation n) s =
      .next ((s.nearWrite 0 (b + 256) (s.report (s.nearBytes 0 (n + 32) 32))).nearWrite 0 n (toBytes 8 0)) ∧
      (s.report (s.nearBytes 0 (n + 32) 32)).length = 440) ∧
    ((s.decoder k).en = true → exec (.pdecEnable k v) s = .next s) ∧
    ((s.decoder k).en = false → Tab.rising s.pdec none = true → ∃ u, exec (.pdecEnable k v) s = .next u ∧ u = { s with pdec := u.pdec } ∧
      ((u.decoder k).en = true ↔ d.getLsbD 8 = true ∧ (s.putPdec k 2 (d &&& 0x7F#64)).mayEnable k = true)) ∧
    (Tab.rising s.pdec none = true → ∃ u, exec (.pdecDisable k v) s = .next u ∧ (u.decoder k).en = false ∧ ((s.decoder k).en = false →
      u = { s with pdec := u.pdec })) ∧
    (∃ u x, exec (.cxlPoisonReport n k) s = .next u ∧ Tab.find u.poison (2 ^ 60 + s.poolAt n / 64) = some true ∧ Tab.find u.erecs (s.erecSeq + 1) = some x ∧
      (x.headD 0).toNat % 256 = 10 ∧ (x.headD 0).toNat / 256 % 256 = 1 ∧ u.hbm = s.hbm ∧ u.pool = s.pool)

/-- R10, R75, R373, R376, R378 to R380, R383: ports, gangs and the device's life: replays, recalibration and retraining; the two-phase start
of a gang; reset, power-up, the boot chain, recovery and the supervisors; and units that leave service.
The model's own reading, and no rule's words: boot images, the messages of gangs, bookkeeping of ports, what reset keeps, recovery and the supervisors' counters (logs 30, 91, 92, 93, 94, 95, 96). -/
def Obligations.DeviceLifeEvents : Prop :=
  ∀ (s : State) (n : Nat), Tab.rising s.pst none = true → Tab.rising s.ports none = true → Tab.rising s.meas none = true →
    Tab.rising s.cores none = true →
    (∀ lane w, w = s.pstWord n → Tab.get 0 (s.port n).reps lane < 7 → field w 0 2 = s.portState n → ∃ u, exec (.flitReplay n lane) s = .next u ∧
      field (u.pstWord n) 32 32 = (field w 32 32 + 1) % 2 ^ 32 ∧ u.portState n = s.portState n ∧
        Tab.get 0 (u.port n).reps lane = Tab.get 0 (s.port n).reps lane + 1) ∧
    (∀ x, x = s.port n → s.portState n = 1 → x.bad = [] → x.cal = none →
      (s.cycle < x.since + 2 ^ 20 → exec (.laneRecalibration n) s = .next { s with agenda := s.agenda ++ [.laneRecalibration n] }) ∧
      (x.since + 2 ^ 20 ≤ s.cycle → ∃ u ok, exec (.laneRecalibration n) s = .next u ∧
        (u.port n).cal = some x.turn ∧ (u.port n).turn = 1 - x.turn ∧ (u.port n).reps = [] ∧ (u.port n).since = x.since + 2 ^ 20 ∧
        u.portState n = 1 ∧ (x.turn ≤ 1 → field (u.pstWord n) 3 2 = x.turn + 1) ∧
        u.agenda = s.agenda ++ [.laneRecalibrationEnd n ok, .laneRecalibration n])) ∧
    (∀ x l, x = s.port n → x.cal = some l → ∃ u w, exec (.laneRecalibrationEnd n true) s = .next u ∧ (u.port n).cal = none ∧ u.portState n = s.portState n ∧
      exec (.laneRecalibrationEnd n false) s = .next w ∧ (w.port n).cal = none ∧ l ∈ (w.port n).bad) ∧
    (s.portState n ≠ 0 → (s.port n).bad.length = 2 → ∃ u, exec (.portRetrain n) s = .next u ∧ u.portState n = 3 ∧ u.agenda = s.agenda ++ [.portRetrainEnd n]) ∧
    (s.portState n = 3 → ∃ u, exec (.portRetrainEnd n) s = .next u ∧ u.portState n = 2) ∧
    (∀ m h t j hd, Tab.find s.gangs n = none → s.journalAppend (gangEntry n true) = some (t, j) → hd = launchHeader ((headerWords h).take 16) →
      hd.get 0 47 1 = 1 → ∃ u g l, exec (.gangPrepareAck n m h) s = .next u ∧
      u.out = t.out ++ [.gangAck n m false] ∧ Tab.find u.gangs n = some g ∧ g.issuer = false ∧ g.jseq = j ∧ g.committed = false ∧ g.begun = false ∧
      g.parts = [(m, t.nextLaunch)] ∧ Tab.find u.launches t.nextLaunch = some l ∧ l.begun = false ∧ l.member = m ∧
      l.gseq = some (hd.ws.getD 14 0).toNat) ∧
    (∀ g l, Tab.find s.gangs n = some g →
      (∀ m id, g.issuer = false → g.parts = [(m, id)] → Tab.find s.launches id = some l → g.begun = false → g.broken = false →
        ∃ u x, exec (.gangCommit n) s = .next u ∧ Tab.find u.launches id = some x ∧ x.begun = true ∧ .gangAck n m true ∈ u.out ∧
          .launchGroupStart ∈ u.agenda) ∧
      (g.issuer = false → g.begun = true → ∃ u, exec (.gangCommit n) s = .next u ∧ u = { s with out := u.out } ∧
        ∀ p ∈ g.parts, .gangAck n p.1 true ∈ u.out) ∧
      (g.committed = true → g.broken = false → g.all g.commits = false → g.since + s.gtmo ≤ s.cycle → ∃ u, exec (.gangCommitResend n) s = .next u ∧
        u.out = s.out ++ [.gangCommit n] ∧ u.agenda = s.agenda ++ [.gangCommitResend n]) ∧
      (g.issuer = true → g.committed = false → g.broken = false → g.since + s.gtmo ≤ s.cycle → ∃ u x, exec (.gangAbort n) s = .next u ∧
        .gangAbort n ∈ u.out ∧ Tab.find u.gangs n = some x ∧ x.broken = true) ∧
      (g.broken = false → ∃ u x, exec (.memberAbort n) s = .next u ∧ Tab.find u.gangs n = some x ∧ x.broken = true) ∧
      (∀ m, g.broken = false → ∃ u x, exec (.gangAcknowledgement n m true) s = .next u ∧ Tab.find u.gangs n = some x ∧ m ∈ x.commits) ∧
      (∀ m, g.issuer = true → g.committed = false → g.broken = false → g.all (addOnce g.acks m) = true → ∃ u x,
        exec (.gangAcknowledgement n m false) s = .next u ∧ Tab.find u.gangs n = some x ∧ x.committed = true ∧
        (g.all (g.parts.map Prod.fst) = false → .gangCommit n ∈ u.out)) ∧
      (∀ m, ∃ u x, exec (.gangPartRetired n m) s = .next u ∧ Tab.find u.gangs n = some x ∧ m ∈ x.retired)) ∧
    (∃ u, exec (.deviceDownReport n) s = .next u ∧ n ∈ u.down ∧ (s.gangs = [] → u = { s with down := u.down })) ∧
    exec .deviceReset s = .next { State.reset with
      choice := s.choice, outCores := s.outCores, outChans := s.outChans, hbm := s.hbm, pool := s.pool
      poolIn := s.poolIn, nextLaunch := s.nextLaunch
      gangs := s.gangs.map fun g => (g.1, { g.2 with issued := [], parts := g.2.parts.map fun p => (p.1, 0) })
      lineKey := s.lineKey, poison := s.poison, devId := s.devId, flash := s.flash, out := s.out } ∧
    (s.stage < 5 → ∃ u x, exec .powerUpStage s = .next u ∧ u.stage = s.stage + 1 ∧ u.agenda = s.agenda ++ [x] ∧
      (s.stage < 2 → x = .powerUpStage) ∧ (s.stage = 2 → x = .bootImageVerify 0) ∧ (s.stage = 4 → x = .journalRecovery) ∧
      (s.stage ≠ 3 → u.cores = s.cores) ∧
      (s.stage = 3 → (∀ cl < 8, ∀ c ∈ s.serving cl, (u.core c).pwr = 0) ∧
        (x = .powerUpStage ∨ ∃ cl < 8, ∃ c ∈ s.serving cl, x = .lanePowerUp c))) ∧
    (∀ img, Tab.find s.flash n = some img → s.stage = 3 → n ≤ 3 →
      if n = 0 ∨ Config.signatureValid (sha512 img.1) img.2.2 img.2.1 = true ∧ img.2.2 = toBytes 32 Config.rootKey.toNat then
        ∃ u, exec (.bootImageVerify n) s = .next u ∧
          Tab.get 0 u.meas n = BitVec.ofNat 512 (ofBytes (sha512 (s.measBytes n ++ sha512 img.1))) ∧
          u.agenda = s.agenda ++ [if n = 3 then .powerUpStage else .bootImageVerify (n + 1)]
      else exec (.bootImageVerify n) s = .next s) ∧
    (s.journalSlots = [] → ∃ u l, exec .journalRecovery s = .next u ∧ u.jhead = 0 ∧ u.handed = [] ∧ u.hbm = s.hbm ∧
      u.agenda = s.agenda ++ l ++ [.supervisorStart] ∧ ∀ x ∈ l, (∃ p < 96, x = .laneRecalibration p) ∨ ∃ d, x = .deviceDownReport d) ∧
    (∃ u, exec .supervisorStart s = .next u ∧ u.hbm = s.hbm ∧ ∀ cl < 8, ∀ core rest, s.serving cl = core :: rest →
      ∃ t, u.strandAt core 0 = some t ∧ t.pc = s.runtime ∧ t.lvl = .s ∧ t.asid = 0 ∧ t.tl = [0, 1, 2, 3] ∧
        t.xtf = s.xtfb + BitVec.ofNat 64 (0x1000000 * (8 * core))) ∧
    (∃ u, exec (.unitOutOfService false n) s = .next u ∧ n ∈ u.outChans ∧ (s.launchesLost n = [] → u = { s with outChans := u.outChans })) ∧
    (∃ u, exec (.unitOutOfService true n) s = .next u ∧ n ∈ u.outCores ∧ (∀ slot, u.strandAt n slot = none) ∧ (u.core n).holder = none)
end

