-- ==== Sys2Proof/Laws/Exec.lean ====
section
/-!
SUPPORT. Each instruction word runs its plan: one equation per constructor, true by `rfl`.
-/

namespace Sys2Proof.Machine

@[simp] theorem exec_b {s : State} {off} : exec (.b off) s = run (planB off) s := rfl
@[simp] theorem exec_beq {s : State} {a} {b} {off} : exec (.beq a b off) s = run (planBeq a b off) s := rfl
@[simp] theorem exec_bne {s : State} {a} {b} {off} : exec (.bne a b off) s = run (planBne a b off) s := rfl
@[simp] theorem exec_blt {s : State} {a} {b} {off} : exec (.blt a b off) s = run (planBlt a b off) s := rfl
@[simp] theorem exec_bge {s : State} {a} {b} {off} : exec (.bge a b off) s = run (planBge a b off) s := rfl
@[simp] theorem exec_bltn {s : State} {a} {b} {off} : exec (.bltn a b off) s = run (planBltn a b off) s := rfl
@[simp] theorem exec_bgen {s : State} {a} {b} {off} : exec (.bgen a b off) s = run (planBgen a b off) s := rfl
@[simp] theorem exec_bz {s : State} {a} {off} : exec (.bz a off) s = run (planBz a off) s := rfl
@[simp] theorem exec_bnz {s : State} {a} {off} : exec (.bnz a off) s = run (planBnz a off) s := rfl
@[simp] theorem exec_jmp {s : State} {a} : exec (.jmp a) s = run (planJmp a) s := rfl
@[simp] theorem exec_calli {s : State} {a} : exec (.calli a) s = run (planCalli a) s := rfl
@[simp] theorem exec_ret {s : State} : exec (.ret) s = run (planRet) s := rfl
@[simp] theorem exec_call {s : State} {off} : exec (.call off) s = run (planCall off) s := rfl
@[simp] theorem exec_mwait {s : State} {d} {a} {b} {c} : exec (.mwait d a b c) s = run (planMwait d a b c) s := rfl
@[simp] theorem exec_halt {s : State} : exec (.halt) s = run (planHalt) s := rfl
@[simp] theorem exec_launch {s : State} {d} {a} : exec (.launch d a) s = run (planLaunch d a) s := rfl
@[simp] theorem exec_glaunch {s : State} {d} {a} : exec (.glaunch d a) s = run (planGlaunch d a) s := rfl
@[simp] theorem exec_widGet {s : State} {d} : exec (.widGet d) s = run (planWidGet d) s := rfl
@[simp] theorem exec_widGetField {s : State} {d} {f} : exec (.widGetField d f) s = run (planWidGetField d f) s := rfl
@[simp] theorem exec_barK {s : State} {k} : exec (.barK k) s = run (planBarK k) s := rfl
@[simp] theorem exec_tmBind {s : State} {a} {b} {c} {n} : exec (.tmBind a b c n) s = run (planTmBind a b c n) s := rfl
@[simp] theorem exec_tmAdv {s : State} {a} {b} {n} : exec (.tmAdv a b n) s = run (planTmAdv a b n) s := rfl
@[simp] theorem exec_tmRd {s : State} {d} {n} : exec (.tmRd d n) s = run (planTmRd d n) s := rfl
@[simp] theorem exec_ldco {s : State} {d} {a} {b} : exec (.ldco d a b) s = run (planLdco d a b) s := rfl
@[simp] theorem exec_ldcoDrop {s : State} {d} {a} : exec (.ldcoDrop d a) s = run (planLdcoDrop d a) s := rfl
@[simp] theorem exec_trap {s : State} {imm} : exec (.trap imm) s = run (planTrap imm) s := rfl
@[simp] theorem exec_sret {s : State} : exec (.sret) s = run (planSret) s := rfl
@[simp] theorem exec_ctxSave {s : State} {d} {a} {b} : exec (.ctxSave d a b) s = run (planCtxSave d a b) s := rfl
@[simp] theorem exec_ctxLoad {s : State} {d} {a} {b} : exec (.ctxLoad d a b) s = run (planCtxLoad d a b) s := rfl
@[simp] theorem exec_erecRd {s : State} {d} {a} {k} : exec (.erecRd d a k) s = run (planErecRd d a k) s := rfl
@[simp] theorem exec_add {s : State} {d} {a} {b} : exec (.add d a b) s = run (planAdd d a b) s := rfl
@[simp] theorem exec_sub {s : State} {d} {a} {b} : exec (.sub d a b) s = run (planSub d a b) s := rfl
@[simp] theorem exec_mul {s : State} {d} {a} {b} : exec (.mul d a b) s = run (planMul d a b) s := rfl
@[simp] theorem exec_mulh {s : State} {d} {a} {b} : exec (.mulh d a b) s = run (planMulh d a b) s := rfl
@[simp] theorem exec_mulhn {s : State} {d} {a} {b} : exec (.mulhn d a b) s = run (planMulhn d a b) s := rfl
@[simp] theorem exec_sAnd {s : State} {d} {a} {b} : exec (.sAnd d a b) s = run (planSAnd d a b) s := rfl
@[simp] theorem exec_sOr {s : State} {d} {a} {b} : exec (.sOr d a b) s = run (planSOr d a b) s := rfl
@[simp] theorem exec_sXor {s : State} {d} {a} {b} : exec (.sXor d a b) s = run (planSXor d a b) s := rfl
@[simp] theorem exec_andn {s : State} {d} {a} {b} : exec (.andn d a b) s = run (planAndn d a b) s := rfl
@[simp] theorem exec_shl {s : State} {d} {a} {b} : exec (.shl d a b) s = run (planShl d a b) s := rfl
@[simp] theorem exec_shr {s : State} {d} {a} {b} : exec (.shr d a b) s = run (planShr d a b) s := rfl
@[simp] theorem exec_sra {s : State} {d} {a} {b} : exec (.sra d a b) s = run (planSra d a b) s := rfl
@[simp] theorem exec_rol {s : State} {d} {a} {b} : exec (.rol d a b) s = run (planRol d a b) s := rfl
@[simp] theorem exec_sMin {s : State} {d} {a} {b} : exec (.sMin d a b) s = run (planSMin d a b) s := rfl
@[simp] theorem exec_sMax {s : State} {d} {a} {b} : exec (.sMax d a b) s = run (planSMax d a b) s := rfl
@[simp] theorem exec_minn {s : State} {d} {a} {b} : exec (.minn d a b) s = run (planMinn d a b) s := rfl
@[simp] theorem exec_maxn {s : State} {d} {a} {b} : exec (.maxn d a b) s = run (planMaxn d a b) s := rfl
@[simp] theorem exec_slt {s : State} {d} {a} {b} : exec (.slt d a b) s = run (planSlt d a b) s := rfl
@[simp] theorem exec_sltn {s : State} {d} {a} {b} : exec (.sltn d a b) s = run (planSltn d a b) s := rfl
@[simp] theorem exec_addi {s : State} {d} {a} {imm} : exec (.addi d a imm) s = run (planAddi d a imm) s := rfl
@[simp] theorem exec_subi {s : State} {d} {a} {imm} : exec (.subi d a imm) s = run (planSubi d a imm) s := rfl
@[simp] theorem exec_muli {s : State} {d} {a} {imm} : exec (.muli d a imm) s = run (planMuli d a imm) s := rfl
@[simp] theorem exec_mulhi {s : State} {d} {a} {imm} : exec (.mulhi d a imm) s = run (planMulhi d a imm) s := rfl
@[simp] theorem exec_mulhni {s : State} {d} {a} {imm} : exec (.mulhni d a imm) s = run (planMulhni d a imm) s := rfl
@[simp] theorem exec_andi {s : State} {d} {a} {imm} : exec (.andi d a imm) s = run (planAndi d a imm) s := rfl
@[simp] theorem exec_ori {s : State} {d} {a} {imm} : exec (.ori d a imm) s = run (planOri d a imm) s := rfl
@[simp] theorem exec_xori {s : State} {d} {a} {imm} : exec (.xori d a imm) s = run (planXori d a imm) s := rfl
@[simp] theorem exec_andni {s : State} {d} {a} {imm} : exec (.andni d a imm) s = run (planAndni d a imm) s := rfl
@[simp] theorem exec_shli {s : State} {d} {a} {imm} : exec (.shli d a imm) s = run (planShli d a imm) s := rfl
@[simp] theorem exec_shri {s : State} {d} {a} {imm} : exec (.shri d a imm) s = run (planShri d a imm) s := rfl
@[simp] theorem exec_srai {s : State} {d} {a} {imm} : exec (.srai d a imm) s = run (planSrai d a imm) s := rfl
@[simp] theorem exec_roli {s : State} {d} {a} {imm} : exec (.roli d a imm) s = run (planRoli d a imm) s := rfl
@[simp] theorem exec_mini {s : State} {d} {a} {imm} : exec (.mini d a imm) s = run (planMini d a imm) s := rfl
@[simp] theorem exec_maxi {s : State} {d} {a} {imm} : exec (.maxi d a imm) s = run (planMaxi d a imm) s := rfl
@[simp] theorem exec_minni {s : State} {d} {a} {imm} : exec (.minni d a imm) s = run (planMinni d a imm) s := rfl
@[simp] theorem exec_maxni {s : State} {d} {a} {imm} : exec (.maxni d a imm) s = run (planMaxni d a imm) s := rfl
@[simp] theorem exec_slti {s : State} {d} {a} {imm} : exec (.slti d a imm) s = run (planSlti d a imm) s := rfl
@[simp] theorem exec_sltni {s : State} {d} {a} {imm} : exec (.sltni d a imm) s = run (planSltni d a imm) s := rfl
@[simp] theorem exec_div {s : State} {d} {a} {b} : exec (.div d a b) s = run (planDiv d a b) s := rfl
@[simp] theorem exec_divn {s : State} {d} {a} {b} : exec (.divn d a b) s = run (planDivn d a b) s := rfl
@[simp] theorem exec_rem {s : State} {d} {a} {b} : exec (.rem d a b) s = run (planRem d a b) s := rfl
@[simp] theorem exec_remn {s : State} {d} {a} {b} : exec (.remn d a b) s = run (planRemn d a b) s := rfl
@[simp] theorem exec_clz {s : State} {d} {a} : exec (.clz d a) s = run (planClz d a) s := rfl
@[simp] theorem exec_ctz {s : State} {d} {a} : exec (.ctz d a) s = run (planCtz d a) s := rfl
@[simp] theorem exec_popc {s : State} {d} {a} : exec (.popc d a) s = run (planPopc d a) s := rfl
@[simp] theorem exec_sel {s : State} {d} {a} {b} {c} : exec (.sel d a b c) s = run (planSel d a b c) s := rfl
@[simp] theorem exec_li {s : State} {d} {imm} : exec (.li d imm) s = run (planLi d imm) s := rfl
@[simp] theorem exec_lui {s : State} {d} {imm} : exec (.lui d imm) s = run (planLui d imm) s := rfl
@[simp] theorem exec_adr {s : State} {d} {imm} : exec (.adr d imm) s = run (planAdr d imm) s := rfl
@[simp] theorem exec_lsa {s : State} {d} {a} {b} {k} : exec (.lsa d a b k) s = run (planLsa d a b k) s := rfl
@[simp] theorem exec_ext {s : State} {d} {a} {pos} {len} : exec (.ext d a pos len) s = run (planExt d a pos len) s := rfl
@[simp] theorem exec_extS {s : State} {d} {a} {pos} {len} : exec (.extS d a pos len) s = run (planExtS d a pos len) s := rfl
@[simp] theorem exec_ins {s : State} {d} {a} {pos} {len} : exec (.ins d a pos len) s = run (planIns d a pos len) s := rfl
@[simp] theorem exec_frame {s : State} {n} : exec (.frame n) s = run (planFrame n) s := rfl
@[simp] theorem exec_faddS {s : State} {d} {a} {b} {rm} : exec (.faddS d a b rm) s = run (planFaddS d a b rm) s := rfl
@[simp] theorem exec_fsubS {s : State} {d} {a} {b} {rm} : exec (.fsubS d a b rm) s = run (planFsubS d a b rm) s := rfl
@[simp] theorem exec_fmulS {s : State} {d} {a} {b} {rm} : exec (.fmulS d a b rm) s = run (planFmulS d a b rm) s := rfl
@[simp] theorem exec_ffmaS {s : State} {d} {a} {b} {rm} {c} : exec (.ffmaS d a b rm c) s = run (planFfmaS d a b rm c) s := rfl
@[simp] theorem exec_fdivS {s : State} {d} {a} {b} {rm} : exec (.fdivS d a b rm) s = run (planFdivS d a b rm) s := rfl
@[simp] theorem exec_fsqrtS {s : State} {d} {a} {rm} : exec (.fsqrtS d a rm) s = run (planFsqrtS d a rm) s := rfl
@[simp] theorem exec_fcmpSEq {s : State} {d} {a} {b} : exec (.fcmpSEq d a b) s = run (planFcmpSEq d a b) s := rfl
@[simp] theorem exec_fcmpSLt {s : State} {d} {a} {b} : exec (.fcmpSLt d a b) s = run (planFcmpSLt d a b) s := rfl
@[simp] theorem exec_fcmpSLe {s : State} {d} {a} {b} : exec (.fcmpSLe d a b) s = run (planFcmpSLe d a b) s := rfl
@[simp] theorem exec_fcmpSUn {s : State} {d} {a} {b} : exec (.fcmpSUn d a b) s = run (planFcmpSUn d a b) s := rfl
@[simp] theorem exec_fcvtSFi {s : State} {d} {a} {rm} : exec (.fcvtSFi d a rm) s = run (planFcvtSFi d a rm) s := rfl
@[simp] theorem exec_fcvtSFn {s : State} {d} {a} {rm} : exec (.fcvtSFn d a rm) s = run (planFcvtSFn d a rm) s := rfl
@[simp] theorem exec_fcvtSIf {s : State} {d} {a} {rm} : exec (.fcvtSIf d a rm) s = run (planFcvtSIf d a rm) s := rfl
@[simp] theorem exec_fcvtSNf {s : State} {d} {a} {rm} : exec (.fcvtSNf d a rm) s = run (planFcvtSNf d a rm) s := rfl
@[simp] theorem exec_mfs {s : State} {d} {num} : exec (.mfs d num) s = run (planMfs d num) s := rfl
@[simp] theorem exec_mts {s : State} {a} {num} : exec (.mts a num) s = run (planMts a num) s := rfl
@[simp] theorem exec_mvlWrite {s : State} {a} {num} : exec (.mvlWrite a num) s = run (planMvlWrite a num) s := rfl
@[simp] theorem exec_tshapeWrite {s : State} {a} {num} : exec (.tshapeWrite a num) s = run (planTshapeWrite a num) s := rfl
@[simp] theorem exec_dlymodeClr {s : State} {a} {num} : exec (.dlymodeClr a num) s = run (planDlymodeClr a num) s := rfl
@[simp] theorem exec_efqWrite {s : State} {a} {num} : exec (.efqWrite a num) s = run (planEfqWrite a num) s := rfl
@[simp] theorem exec_vsetl {s : State} {d} {a} {ty} : exec (.vsetl d a ty) s = run (planVsetl d a ty) s := rfl
@[simp] theorem exec_vrel {s : State} : exec (.vrel) s = run (planVrel) s := rfl
@[simp] theorem exec_vspill {s : State} {v} {a} {b} {ty} {disp} : exec (.vspill v a b ty disp) s = run (planVspill v a b ty disp) s := rfl
@[simp] theorem exec_vfill {s : State} {d} {a} {ty} {disp} : exec (.vfill d a ty disp) s = run (planVfill d a ty disp) s := rfl
@[simp] theorem exec_vadd {s : State} {v} {d} {a} {b} {ty} {sat} : exec (.vadd v d a b ty sat) s = run (planVadd v d a b ty sat) s := rfl
@[simp] theorem exec_vsub {s : State} {v} {d} {a} {b} {ty} {sat} : exec (.vsub v d a b ty sat) s = run (planVsub v d a b ty sat) s := rfl
@[simp] theorem exec_vmul {s : State} {v} {d} {a} {b} {ty} {sat} : exec (.vmul v d a b ty sat) s = run (planVmul v d a b ty sat) s := rfl
@[simp] theorem exec_vmulh {s : State} {v} {d} {a} {b} {ty} : exec (.vmulh v d a b ty) s = run (planVmulh v d a b ty) s := rfl
@[simp] theorem exec_vmin {s : State} {v} {d} {a} {b} {ty} : exec (.vmin v d a b ty) s = run (planVmin v d a b ty) s := rfl
@[simp] theorem exec_vmax {s : State} {v} {d} {a} {b} {ty} : exec (.vmax v d a b ty) s = run (planVmax v d a b ty) s := rfl
@[simp] theorem exec_vand {s : State} {v} {d} {a} {b} {ty} : exec (.vand v d a b ty) s = run (planVand v d a b ty) s := rfl
@[simp] theorem exec_vor {s : State} {v} {d} {a} {b} {ty} : exec (.vor v d a b ty) s = run (planVor v d a b ty) s := rfl
@[simp] theorem exec_vxor {s : State} {v} {d} {a} {b} {ty} : exec (.vxor v d a b ty) s = run (planVxor v d a b ty) s := rfl
@[simp] theorem exec_vshl {s : State} {v} {d} {a} {b} {ty} : exec (.vshl v d a b ty) s = run (planVshl v d a b ty) s := rfl
@[simp] theorem exec_vshr {s : State} {v} {d} {a} {b} {ty} : exec (.vshr v d a b ty) s = run (planVshr v d a b ty) s := rfl
@[simp] theorem exec_vsra {s : State} {v} {d} {a} {b} {ty} : exec (.vsra v d a b ty) s = run (planVsra v d a b ty) s := rfl
@[simp] theorem exec_vcmpEq {s : State} {v} {d} {a} {b} {ty} : exec (.vcmpEq v d a b ty) s = run (planVcmpEq v d a b ty) s := rfl
@[simp] theorem exec_vcmpNe {s : State} {v} {d} {a} {b} {ty} : exec (.vcmpNe v d a b ty) s = run (planVcmpNe v d a b ty) s := rfl
@[simp] theorem exec_vcmpLt {s : State} {v} {d} {a} {b} {ty} : exec (.vcmpLt v d a b ty) s = run (planVcmpLt v d a b ty) s := rfl
@[simp] theorem exec_vcmpLe {s : State} {v} {d} {a} {b} {ty} : exec (.vcmpLe v d a b ty) s = run (planVcmpLe v d a b ty) s := rfl
@[simp] theorem exec_vwadd {s : State} {v} {d} {a} {b} {rm} {ty} {wf} : exec (.vwadd v d a b rm ty wf) s = run (planVwadd v d a b rm ty wf) s := rfl
@[simp] theorem exec_vwmul {s : State} {v} {d} {a} {b} {rm} {ty} {wf} : exec (.vwmul v d a b rm ty wf) s = run (planVwmul v d a b rm ty wf) s := rfl
@[simp] theorem exec_vwmac {s : State} {v} {d} {a} {b} {rm} {c} {ty} {sat} {wf} : exec (.vwmac v d a b rm c ty sat wf) s = run (planVwmac v d a b rm c ty sat wf) s := rfl
@[simp] theorem exec_vmov {s : State} {v} {d} {a} {ty} : exec (.vmov v d a ty) s = run (planVmov v d a ty) s := rfl
@[simp] theorem exec_vid {s : State} {v} {d} {ty} : exec (.vid v d ty) s = run (planVid v d ty) s := rfl
@[simp] theorem exec_vsel {s : State} {v} {d} {a} {b} {ty} : exec (.vsel v d a b ty) s = run (planVsel v d a b ty) s := rfl
@[simp] theorem exec_vdup {s : State} {v} {d} {a} {b} {ty} : exec (.vdup v d a b ty) s = run (planVdup v d a b ty) s := rfl
@[simp] theorem exec_vperm {s : State} {v} {d} {a} {b} {ty} : exec (.vperm v d a b ty) s = run (planVperm v d a b ty) s := rfl
@[simp] theorem exec_vslup {s : State} {v} {d} {a} {b} {ty} : exec (.vslup v d a b ty) s = run (planVslup v d a b ty) s := rfl
@[simp] theorem exec_vsldn {s : State} {v} {d} {a} {b} {ty} : exec (.vsldn v d a b ty) s = run (planVsldn v d a b ty) s := rfl
@[simp] theorem exec_vcmprs {s : State} {v} {d} {a} {ty} : exec (.vcmprs v d a ty) s = run (planVcmprs v d a ty) s := rfl
@[simp] theorem exec_vexpnd {s : State} {v} {d} {a} {ty} : exec (.vexpnd v d a ty) s = run (planVexpnd v d a ty) s := rfl
@[simp] theorem exec_qand {s : State} {v} {d} {a} {b} : exec (.qand v d a b) s = run (planQand v d a b) s := rfl
@[simp] theorem exec_qor {s : State} {v} {d} {a} {b} : exec (.qor v d a b) s = run (planQor v d a b) s := rfl
@[simp] theorem exec_qxor {s : State} {v} {d} {a} {b} : exec (.qxor v d a b) s = run (planQxor v d a b) s := rfl
@[simp] theorem exec_qnot {s : State} {v} {d} {a} : exec (.qnot v d a) s = run (planQnot v d a) s := rfl
@[simp] theorem exec_qpopc {s : State} {v} {d} {a} : exec (.qpopc v d a) s = run (planQpopc v d a) s := rfl
@[simp] theorem exec_qfirst {s : State} {v} {d} {a} : exec (.qfirst v d a) s = run (planQfirst v d a) s := rfl
@[simp] theorem exec_vbmand {s : State} {v} {d} {a} {b} {ty} : exec (.vbmand v d a b ty) s = run (planVbmand v d a b ty) s := rfl
@[simp] theorem exec_vbpfx {s : State} {v} {d} {a} {ty} : exec (.vbpfx v d a ty) s = run (planVbpfx v d a ty) s := rfl
@[simp] theorem exec_vxsect {s : State} {v} {d} {a} {b} {ty} : exec (.vxsect v d a b ty) s = run (planVxsect v d a b ty) s := rfl
@[simp] theorem exec_vconf {s : State} {v} {d} {a} {ty} {qe} : exec (.vconf v d a ty qe) s = run (planVconf v d a ty qe) s := rfl
@[simp] theorem exec_vfadd {s : State} {v} {d} {a} {b} {rm} {ty} : exec (.vfadd v d a b rm ty) s = run (planVfadd v d a b rm ty) s := rfl
@[simp] theorem exec_vfsub {s : State} {v} {d} {a} {b} {rm} {ty} : exec (.vfsub v d a b rm ty) s = run (planVfsub v d a b rm ty) s := rfl
@[simp] theorem exec_vfmul {s : State} {v} {d} {a} {b} {rm} {ty} : exec (.vfmul v d a b rm ty) s = run (planVfmul v d a b rm ty) s := rfl
@[simp] theorem exec_vfmin {s : State} {v} {d} {a} {b} {ty} : exec (.vfmin v d a b ty) s = run (planVfmin v d a b ty) s := rfl
@[simp] theorem exec_vfmax {s : State} {v} {d} {a} {b} {ty} : exec (.vfmax v d a b ty) s = run (planVfmax v d a b ty) s := rfl
@[simp] theorem exec_vfma {s : State} {v} {d} {a} {b} {rm} {c} {ty} : exec (.vfma v d a b rm c ty) s = run (planVfma v d a b rm c ty) s := rfl
@[simp] theorem exec_vfms {s : State} {v} {d} {a} {b} {rm} {c} {ty} : exec (.vfms v d a b rm c ty) s = run (planVfms v d a b rm c ty) s := rfl
@[simp] theorem exec_vfnma {s : State} {v} {d} {a} {b} {rm} {c} {ty} : exec (.vfnma v d a b rm c ty) s = run (planVfnma v d a b rm c ty) s := rfl
@[simp] theorem exec_vfdiv {s : State} {v} {d} {a} {b} {rm} {ty} : exec (.vfdiv v d a b rm ty) s = run (planVfdiv v d a b rm ty) s := rfl
@[simp] theorem exec_vfsqrt {s : State} {v} {d} {a} {rm} {ty} : exec (.vfsqrt v d a rm ty) s = run (planVfsqrt v d a rm ty) s := rfl
@[simp] theorem exec_vrcp {s : State} {v} {d} {a} {rm} {ty} : exec (.vrcp v d a rm ty) s = run (planVrcp v d a rm ty) s := rfl
@[simp] theorem exec_vrsqrt {s : State} {v} {d} {a} {rm} {ty} : exec (.vrsqrt v d a rm ty) s = run (planVrsqrt v d a rm ty) s := rfl
@[simp] theorem exec_vexp2 {s : State} {v} {d} {a} {rm} {ty} : exec (.vexp2 v d a rm ty) s = run (planVexp2 v d a rm ty) s := rfl
@[simp] theorem exec_vfcmpEq {s : State} {v} {d} {a} {b} {ty} : exec (.vfcmpEq v d a b ty) s = run (planVfcmpEq v d a b ty) s := rfl
@[simp] theorem exec_vfcmpLt {s : State} {v} {d} {a} {b} {ty} : exec (.vfcmpLt v d a b ty) s = run (planVfcmpLt v d a b ty) s := rfl
@[simp] theorem exec_vfcmpLe {s : State} {v} {d} {a} {b} {ty} : exec (.vfcmpLe v d a b ty) s = run (planVfcmpLe v d a b ty) s := rfl
@[simp] theorem exec_vfcmpUn {s : State} {v} {d} {a} {b} {ty} : exec (.vfcmpUn v d a b ty) s = run (planVfcmpUn v d a b ty) s := rfl
@[simp] theorem exec_vredoAdd {s : State} {v} {d} {a} {b} {rm} {ty} {sat} : exec (.vredoAdd v d a b rm ty sat) s = run (planVredoAdd v d a b rm ty sat) s := rfl
@[simp] theorem exec_vredoMin {s : State} {v} {d} {a} {b} {ty} : exec (.vredoMin v d a b ty) s = run (planVredoMin v d a b ty) s := rfl
@[simp] theorem exec_vredoMax {s : State} {v} {d} {a} {b} {ty} : exec (.vredoMax v d a b ty) s = run (planVredoMax v d a b ty) s := rfl
@[simp] theorem exec_vredoAnd {s : State} {v} {d} {a} {b} {ty} : exec (.vredoAnd v d a b ty) s = run (planVredoAnd v d a b ty) s := rfl
@[simp] theorem exec_vredoOr {s : State} {v} {d} {a} {b} {ty} : exec (.vredoOr v d a b ty) s = run (planVredoOr v d a b ty) s := rfl
@[simp] theorem exec_vredoXor {s : State} {v} {d} {a} {b} {ty} : exec (.vredoXor v d a b ty) s = run (planVredoXor v d a b ty) s := rfl
@[simp] theorem exec_vredtAdd {s : State} {v} {d} {a} {b} {rm} {ty} {sat} : exec (.vredtAdd v d a b rm ty sat) s = run (planVredtAdd v d a b rm ty sat) s := rfl
@[simp] theorem exec_vredtMin {s : State} {v} {d} {a} {b} {ty} : exec (.vredtMin v d a b ty) s = run (planVredtMin v d a b ty) s := rfl
@[simp] theorem exec_vredtMax {s : State} {v} {d} {a} {b} {ty} : exec (.vredtMax v d a b ty) s = run (planVredtMax v d a b ty) s := rfl
@[simp] theorem exec_vredtAnd {s : State} {v} {d} {a} {b} {ty} : exec (.vredtAnd v d a b ty) s = run (planVredtAnd v d a b ty) s := rfl
@[simp] theorem exec_vredtOr {s : State} {v} {d} {a} {b} {ty} : exec (.vredtOr v d a b ty) s = run (planVredtOr v d a b ty) s := rfl
@[simp] theorem exec_vredtXor {s : State} {v} {d} {a} {b} {ty} : exec (.vredtXor v d a b ty) s = run (planVredtXor v d a b ty) s := rfl
@[simp] theorem exec_vscanAdd {s : State} {v} {d} {a} {b} {rm} {ty} {sat} : exec (.vscanAdd v d a b rm ty sat) s = run (planVscanAdd v d a b rm ty sat) s := rfl
@[simp] theorem exec_vscanMin {s : State} {v} {d} {a} {b} {ty} : exec (.vscanMin v d a b ty) s = run (planVscanMin v d a b ty) s := rfl
@[simp] theorem exec_vscanMax {s : State} {v} {d} {a} {b} {ty} : exec (.vscanMax v d a b ty) s = run (planVscanMax v d a b ty) s := rfl
@[simp] theorem exec_vscanAnd {s : State} {v} {d} {a} {b} {ty} : exec (.vscanAnd v d a b ty) s = run (planVscanAnd v d a b ty) s := rfl
@[simp] theorem exec_vscanOr {s : State} {v} {d} {a} {b} {ty} : exec (.vscanOr v d a b ty) s = run (planVscanOr v d a b ty) s := rfl
@[simp] theorem exec_vscanXor {s : State} {v} {d} {a} {b} {ty} : exec (.vscanXor v d a b ty) s = run (planVscanXor v d a b ty) s := rfl
@[simp] theorem exec_fmtSet {s : State} {d} {a} : exec (.fmtSet d a) s = run (planFmtSet d a) s := rfl
@[simp] theorem exec_tidBind {s : State} {d} {a} : exec (.tidBind d a) s = run (planTidBind d a) s := rfl
@[simp] theorem exec_tidRd {s : State} {d} {a} {k} : exec (.tidRd d a k) s = run (planTidRd d a k) s := rfl
@[simp] theorem exec_vcvtTo {s : State} {v} {d} {a} {rm} {ty} {sat} {fc} : exec (.vcvtTo v d a rm ty sat fc) s = run (planVcvtTo v d a rm ty sat fc) s := rfl
@[simp] theorem exec_vcvtFrom {s : State} {v} {d} {a} {rm} {ty} {sat} {fc} : exec (.vcvtFrom v d a rm ty sat fc) s = run (planVcvtFrom v d a rm ty sat fc) s := rfl
@[simp] theorem exec_vpack {s : State} {v} {d} {a} {ty} {fc} : exec (.vpack v d a ty fc) s = run (planVpack v d a ty fc) s := rfl
@[simp] theorem exec_vunpk {s : State} {v} {d} {a} {ty} {fc} : exec (.vunpk v d a ty fc) s = run (planVunpk v d a ty fc) s := rfl
@[simp] theorem exec_vscl {s : State} {v} {d} {a} {b} {rm} {ty} {sat} {fc} : exec (.vscl v d a b rm ty sat fc) s = run (planVscl v d a b rm ty sat fc) s := rfl
@[simp] theorem exec_vquant {s : State} {v} {d} {a} {b} {rm} {ty} {fc} : exec (.vquant v d a b rm ty fc) s = run (planVquant v d a b rm ty fc) s := rfl
@[simp] theorem exec_tld {s : State} {d} {a} {b} {c} : exec (.tld d a b c) s = run (planTld d a b c) s := rfl
@[simp] theorem exec_tldt {s : State} {d} {a} {b} {c} : exec (.tldt d a b c) s = run (planTldt d a b c) s := rfl
@[simp] theorem exec_tst {s : State} {d} {a} {b} {c} : exec (.tst d a b c) s = run (planTst d a b c) s := rfl
@[simp] theorem exec_tzero {s : State} {d} {a} : exec (.tzero d a) s = run (planTzero d a) s := rfl
@[simp] theorem exec_tlatch {s : State} {a} {b} : exec (.tlatch a b) s = run (planTlatch a b) s := rfl
@[simp] theorem exec_mmr {s : State} {v} {d} {a} {b} {acc} : exec (.mmr v d a b acc) s = run (planMmr v d a b acc) s := rfl
@[simp] theorem exec_mmrT {s : State} {v} {d} {a} {b} {c} {acc} : exec (.mmrT v d a b c acc) s = run (planMmrT v d a b c acc) s := rfl
@[simp] theorem exec_mmrRep {s : State} {v} {d} {a} {b} {acc} {n} : exec (.mmrRep v d a b acc n) s = run (planMmrRep v d a b acc n) s := rfl
@[simp] theorem exec_mmrSk {s : State} {v} {d} {a} {b} {c} {acc} : exec (.mmrSk v d a b c acc) s = run (planMmrSk v d a b c acc) s := rfl
@[simp] theorem exec_rnew {s : State} {d} {a} {b} {nw} : exec (.rnew d a b nw) s = run (planRnew d a b nw) s := rfl
@[simp] theorem exec_rcut {s : State} {d} {a} {b} {nw} {axis} : exec (.rcut d a b nw axis) s = run (planRcut d a b nw axis) s := rfl
@[simp] theorem exec_rsplc {s : State} {d} {a} {b} : exec (.rsplc d a b) s = run (planRsplc d a b) s := rfl
@[simp] theorem exec_rfree {s : State} {a} : exec (.rfree a) s = run (planRfree a) s := rfl
@[simp] theorem exec_hmov {s : State} {d} {a} {b} : exec (.hmov d a b) s = run (planHmov d a b) s := rfl
@[simp] theorem exec_hinfo {s : State} {d} {a} {k} : exec (.hinfo d a k) s = run (planHinfo d a k) s := rfl
@[simp] theorem exec_rld {s : State} {v} {d} {a} {b} : exec (.rld v d a b) s = run (planRld v d a b) s := rfl
@[simp] theorem exec_rst {s : State} {v} {a} {b} {c} : exec (.rst v a b c) s = run (planRst v a b c) s := rfl
@[simp] theorem exec_ldI8 {s : State} {d} {a} {imm} : exec (.ldI8 d a imm) s = run (planLdI8 d a imm) s := rfl
@[simp] theorem exec_ldI16 {s : State} {d} {a} {imm} : exec (.ldI16 d a imm) s = run (planLdI16 d a imm) s := rfl
@[simp] theorem exec_ldI32 {s : State} {d} {a} {imm} : exec (.ldI32 d a imm) s = run (planLdI32 d a imm) s := rfl
@[simp] theorem exec_ldI64 {s : State} {d} {a} {imm} : exec (.ldI64 d a imm) s = run (planLdI64 d a imm) s := rfl
@[simp] theorem exec_ldN8 {s : State} {d} {a} {imm} : exec (.ldN8 d a imm) s = run (planLdN8 d a imm) s := rfl
@[simp] theorem exec_ldN16 {s : State} {d} {a} {imm} : exec (.ldN16 d a imm) s = run (planLdN16 d a imm) s := rfl
@[simp] theorem exec_ldN32 {s : State} {d} {a} {imm} : exec (.ldN32 d a imm) s = run (planLdN32 d a imm) s := rfl
@[simp] theorem exec_st8 {s : State} {d} {a} {imm} : exec (.st8 d a imm) s = run (planSt8 d a imm) s := rfl
@[simp] theorem exec_st16 {s : State} {d} {a} {imm} : exec (.st16 d a imm) s = run (planSt16 d a imm) s := rfl
@[simp] theorem exec_st32 {s : State} {d} {a} {imm} : exec (.st32 d a imm) s = run (planSt32 d a imm) s := rfl
@[simp] theorem exec_st64 {s : State} {d} {a} {imm} : exec (.st64 d a imm) s = run (planSt64 d a imm) s := rfl
@[simp] theorem exec_vld {s : State} {v} {d} {a} {b} {rm} {ty} {sat} {t} {disp} : exec (.vld v d a b rm ty sat t disp) s = run (planVld v d a b rm ty sat t disp) s := rfl
@[simp] theorem exec_vst {s : State} {v} {a} {b} {c} {ty} {t} {disp} : exec (.vst v a b c ty t disp) s = run (planVst v a b c ty t disp) s := rfl
@[simp] theorem exec_vlds {s : State} {v} {d} {a} {b} {ty} {disp} : exec (.vlds v d a b ty disp) s = run (planVlds v d a b ty disp) s := rfl
@[simp] theorem exec_vsts {s : State} {v} {a} {b} {c} {ty} {disp} : exec (.vsts v a b c ty disp) s = run (planVsts v a b c ty disp) s := rfl
@[simp] theorem exec_vgat {s : State} {v} {d} {a} {b} {rm} {ty} {sat} {mode} {k} : exec (.vgat v d a b rm ty sat mode k) s = run (planVgat v d a b rm ty sat mode k) s := rfl
@[simp] theorem exec_vsca {s : State} {v} {a} {b} {c} {ty} {mode} {k} : exec (.vsca v a b c ty mode k) s = run (planVsca v a b c ty mode k) s := rfl
@[simp] theorem exec_vgpool {s : State} {v} {d} {a} {b} {rm} {c} {ty} {sat} {mode} {k} : exec (.vgpool v d a b rm c ty sat mode k) s = run (planVgpool v d a b rm c ty sat mode k) s := rfl
@[simp] theorem exec_vsadd {s : State} {v} {a} {b} {c} {ty} {sat} {mode} {k} : exec (.vsadd v a b c ty sat mode k) s = run (planVsadd v a b c ty sat mode k) s := rfl
@[simp] theorem exec_tcopy {s : State} {d} {a} {b} {c} : exec (.tcopy d a b c) s = run (planTcopy d a b c) s := rfl
@[simp] theorem exec_tcopyMig {s : State} {d} {a} {b} : exec (.tcopyMig d a b) s = run (planTcopyMig d a b) s := rfl
@[simp] theorem exec_tcopyRes {s : State} {d} {a} : exec (.tcopyRes d a) s = run (planTcopyRes d a) s := rfl
@[simp] theorem exec_slabGrow {s : State} {d} {a} {b} : exec (.slabGrow d a b) s = run (planSlabGrow d a b) s := rfl
@[simp] theorem exec_smapSet {s : State} {d} {a} {b} : exec (.smapSet d a b) s = run (planSmapSet d a b) s := rfl
@[simp] theorem exec_smapInv {s : State} {d} {a} {b} : exec (.smapInv d a b) s = run (planSmapInv d a b) s := rfl
@[simp] theorem exec_bankMode {s : State} {d} {a} {b} : exec (.bankMode d a b) s = run (planBankMode d a b) s := rfl
@[simp] theorem exec_tlbinvPg {s : State} {a} {b} : exec (.tlbinvPg a b) s = run (planTlbinvPg a b) s := rfl
@[simp] theorem exec_tlbinvAs {s : State} {a} : exec (.tlbinvAs a) s = run (planTlbinvAs a) s := rfl
@[simp] theorem exec_tlbinvAll {s : State} : exec (.tlbinvAll) s = run (planTlbinvAll) s := rfl
@[simp] theorem exec_pprobe {s : State} {d} {a} : exec (.pprobe d a) s = run (planPprobe d a) s := rfl
@[simp] theorem exec_asidSwSet {s : State} {a} : exec (.asidSwSet a) s = run (planAsidSwSet a) s := rfl
@[simp] theorem exec_asidSwBind {s : State} {d} {a} {b} : exec (.asidSwBind d a b) s = run (planAsidSwBind d a b) s := rfl
@[simp] theorem exec_asidSwDrop {s : State} {d} {a} : exec (.asidSwDrop d a) s = run (planAsidSwDrop d a) s := rfl
@[simp] theorem exec_amoSwap {s : State} {d} {a} {b} {ty} {ord} : exec (.amoSwap d a b ty ord) s = run (planAmoSwap d a b ty ord) s := rfl
@[simp] theorem exec_amoCas {s : State} {d} {a} {b} {c} {ty} {ord} : exec (.amoCas d a b c ty ord) s = run (planAmoCas d a b c ty ord) s := rfl
@[simp] theorem exec_amoAdd {s : State} {d} {a} {b} {ty} {ord} : exec (.amoAdd d a b ty ord) s = run (planAmoAdd d a b ty ord) s := rfl
@[simp] theorem exec_amoFadd {s : State} {d} {a} {b} {ty} {ord} : exec (.amoFadd d a b ty ord) s = run (planAmoFadd d a b ty ord) s := rfl
@[simp] theorem exec_amoAnd {s : State} {d} {a} {b} {ty} {ord} : exec (.amoAnd d a b ty ord) s = run (planAmoAnd d a b ty ord) s := rfl
@[simp] theorem exec_amoOr {s : State} {d} {a} {b} {ty} {ord} : exec (.amoOr d a b ty ord) s = run (planAmoOr d a b ty ord) s := rfl
@[simp] theorem exec_amoXor {s : State} {d} {a} {b} {ty} {ord} : exec (.amoXor d a b ty ord) s = run (planAmoXor d a b ty ord) s := rfl
@[simp] theorem exec_amoMin {s : State} {d} {a} {b} {ty} {ord} : exec (.amoMin d a b ty ord) s = run (planAmoMin d a b ty ord) s := rfl
@[simp] theorem exec_amoMax {s : State} {d} {a} {b} {ty} {ord} : exec (.amoMax d a b ty ord) s = run (planAmoMax d a b ty ord) s := rfl
@[simp] theorem exec_amoMinn {s : State} {d} {a} {b} {ty} {ord} : exec (.amoMinn d a b ty ord) s = run (planAmoMinn d a b ty ord) s := rfl
@[simp] theorem exec_amoMaxn {s : State} {d} {a} {b} {ty} {ord} : exec (.amoMaxn d a b ty ord) s = run (planAmoMaxn d a b ty ord) s := rfl
@[simp] theorem exec_vamoSwap {s : State} {v} {d} {a} {b} {c} {ty} {mode} {ret} {ord} {k} : exec (.vamoSwap v d a b c ty mode ret ord k) s = run (planVamoSwap v d a b c ty mode ret ord k) s := rfl
@[simp] theorem exec_vamoCas {s : State} {v} {d} {a} {b} {c} {ty} {mode} {ret} {ord} {k} : exec (.vamoCas v d a b c ty mode ret ord k) s = run (planVamoCas v d a b c ty mode ret ord k) s := rfl
@[simp] theorem exec_vamoAdd {s : State} {v} {d} {a} {b} {c} {ty} {mode} {ret} {ord} {k} : exec (.vamoAdd v d a b c ty mode ret ord k) s = run (planVamoAdd v d a b c ty mode ret ord k) s := rfl
@[simp] theorem exec_vamoFadd {s : State} {v} {d} {a} {b} {c} {ty} {mode} {ret} {ord} {k} : exec (.vamoFadd v d a b c ty mode ret ord k) s = run (planVamoFadd v d a b c ty mode ret ord k) s := rfl
@[simp] theorem exec_vamoAnd {s : State} {v} {d} {a} {b} {c} {ty} {mode} {ret} {ord} {k} : exec (.vamoAnd v d a b c ty mode ret ord k) s = run (planVamoAnd v d a b c ty mode ret ord k) s := rfl
@[simp] theorem exec_vamoOr {s : State} {v} {d} {a} {b} {c} {ty} {mode} {ret} {ord} {k} : exec (.vamoOr v d a b c ty mode ret ord k) s = run (planVamoOr v d a b c ty mode ret ord k) s := rfl
@[simp] theorem exec_vamoXor {s : State} {v} {d} {a} {b} {c} {ty} {mode} {ret} {ord} {k} : exec (.vamoXor v d a b c ty mode ret ord k) s = run (planVamoXor v d a b c ty mode ret ord k) s := rfl
@[simp] theorem exec_vamoMin {s : State} {v} {d} {a} {b} {c} {ty} {mode} {ret} {ord} {k} : exec (.vamoMin v d a b c ty mode ret ord k) s = run (planVamoMin v d a b c ty mode ret ord k) s := rfl
@[simp] theorem exec_vamoMax {s : State} {v} {d} {a} {b} {c} {ty} {mode} {ret} {ord} {k} : exec (.vamoMax v d a b c ty mode ret ord k) s = run (planVamoMax v d a b c ty mode ret ord k) s := rfl
@[simp] theorem exec_vamoMinn {s : State} {v} {d} {a} {b} {c} {ty} {mode} {ret} {ord} {k} : exec (.vamoMinn v d a b c ty mode ret ord k) s = run (planVamoMinn v d a b c ty mode ret ord k) s := rfl
@[simp] theorem exec_vamoMaxn {s : State} {v} {d} {a} {b} {c} {ty} {mode} {ret} {ord} {k} : exec (.vamoMaxn v d a b c ty mode ret ord k) s = run (planVamoMaxn v d a b c ty mode ret ord k) s := rfl
@[simp] theorem exec_vgl {s : State} {v} {d} {a} {b} {rm} {ty} {sat} {mode} {k} : exec (.vgl v d a b rm ty sat mode k) s = run (planVgl v d a b rm ty sat mode k) s := rfl
@[simp] theorem exec_vscc {s : State} {v} {d} {a} {b} {c} {ty} {mode} {k} : exec (.vscc v d a b c ty mode k) s = run (planVscc v d a b c ty mode k) s := rfl
@[simp] theorem exec_xredAdd {s : State} {v} {d} {a} {ty} {g} : exec (.xredAdd v d a ty g) s = run (planXredAdd v d a ty g) s := rfl
@[simp] theorem exec_xredMin {s : State} {v} {d} {a} {ty} {g} : exec (.xredMin v d a ty g) s = run (planXredMin v d a ty g) s := rfl
@[simp] theorem exec_xredMax {s : State} {v} {d} {a} {ty} {g} : exec (.xredMax v d a ty g) s = run (planXredMax v d a ty g) s := rfl
@[simp] theorem exec_fence {s : State} : exec (.fence) s = run (planFence) s := rfl
@[simp] theorem exec_fenceFab {s : State} : exec (.fenceFab) s = run (planFenceFab) s := rfl
@[simp] theorem exec_fenceFabAcq {s : State} : exec (.fenceFabAcq) s = run (planFenceFabAcq) s := rfl
@[simp] theorem exec_fenceFabRel {s : State} : exec (.fenceFabRel) s = run (planFenceFabRel) s := rfl
@[simp] theorem exec_fenceFabAcqLoad {s : State} {d} {a} : exec (.fenceFabAcqLoad d a) s = run (planFenceFabAcqLoad d a) s := rfl
@[simp] theorem exec_fenceFabRelStore {s : State} {a} {b} : exec (.fenceFabRelStore a b) s = run (planFenceFabRelStore a b) s := rfl
@[simp] theorem exec_fencePool {s : State} : exec (.fencePool) s = run (planFencePool) s := rfl
@[simp] theorem exec_fencePoolAcq {s : State} : exec (.fencePoolAcq) s = run (planFencePoolAcq) s := rfl
@[simp] theorem exec_fencePoolRel {s : State} : exec (.fencePoolRel) s = run (planFencePoolRel) s := rfl
@[simp] theorem exec_fencePoolAcqLoad {s : State} {d} {a} : exec (.fencePoolAcqLoad d a) s = run (planFencePoolAcqLoad d a) s := rfl
@[simp] theorem exec_fencePoolRelStore {s : State} {a} {b} : exec (.fencePoolRelStore a b) s = run (planFencePoolRelStore a b) s := rfl
@[simp] theorem exec_waitTl {s : State} {a} {b} : exec (.waitTl a b) s = run (planWaitTl a b) s := rfl
@[simp] theorem exec_tlNext {s : State} {d} {a} : exec (.tlNext d a) s = run (planTlNext d a) s := rfl
@[simp] theorem exec_twalk {s : State} {v} {d} {a} {b} {c} {ty} {gn} : exec (.twalk v d a b c ty gn) s = run (planTwalk v d a b c ty gn) s := rfl
@[simp] theorem exec_twalkX {s : State} {v} {d} {a} {b} {c} {ty} {gn} : exec (.twalkX v d a b c ty gn) s = run (planTwalkX v d a b c ty gn) s := rfl
@[simp] theorem exec_twupd {s : State} {d} {a} {b} {c} {ty} : exec (.twupd d a b c ty) s = run (planTwupd d a b c ty) s := rfl
@[simp] theorem exec_twrd {s : State} {v} {d} {a} {p} : exec (.twrd v d a p) s = run (planTwrd v d a p) s := rfl
@[simp] theorem exec_twbuild {s : State} {d} {a} {b} {c} {ty} : exec (.twbuild d a b c ty) s = run (planTwbuild d a b c ty) s := rfl
@[simp] theorem exec_nop {s : State} : exec (.nop) s = run (planNop) s := rfl
@[simp] theorem exec_yield_ {s : State} : exec (.yield_) s = run (planYield_) s := rfl
@[simp] theorem exec_pf {s : State} {a} {disp} : exec (.pf a disp) s = run (planPf a disp) s := rfl
@[simp] theorem exec_pfW {s : State} {a} {disp} : exec (.pfW a disp) s = run (planPfW a disp) s := rfl
@[simp] theorem exec_hintNop {s : State} {fn} {d} {a} {b} {v} {rm} {x} : exec (.hintNop fn d a b v rm x) s = run (planHintNop fn d a b v rm x) s := rfl
@[simp] theorem exec_nopC {s : State} : exec (.nopC) s = run (planNopC) s := rfl
@[simp] theorem exec_addC {s : State} {d} {o} : exec (.addC d o) s = run (planAddC d o) s := rfl
@[simp] theorem exec_subC {s : State} {d} {o} : exec (.subC d o) s = run (planSubC d o) s := rfl
@[simp] theorem exec_mulC {s : State} {d} {o} : exec (.mulC d o) s = run (planMulC d o) s := rfl
@[simp] theorem exec_andC {s : State} {d} {o} : exec (.andC d o) s = run (planAndC d o) s := rfl
@[simp] theorem exec_orC {s : State} {d} {o} : exec (.orC d o) s = run (planOrC d o) s := rfl
@[simp] theorem exec_xorC {s : State} {d} {o} : exec (.xorC d o) s = run (planXorC d o) s := rfl
@[simp] theorem exec_andnC {s : State} {d} {o} : exec (.andnC d o) s = run (planAndnC d o) s := rfl
@[simp] theorem exec_shlC {s : State} {d} {o} : exec (.shlC d o) s = run (planShlC d o) s := rfl
@[simp] theorem exec_shrC {s : State} {d} {o} : exec (.shrC d o) s = run (planShrC d o) s := rfl
@[simp] theorem exec_sraC {s : State} {d} {o} : exec (.sraC d o) s = run (planSraC d o) s := rfl
@[simp] theorem exec_minC {s : State} {d} {o} : exec (.minC d o) s = run (planMinC d o) s := rfl
@[simp] theorem exec_maxC {s : State} {d} {o} : exec (.maxC d o) s = run (planMaxC d o) s := rfl
@[simp] theorem exec_minnC {s : State} {d} {o} : exec (.minnC d o) s = run (planMinnC d o) s := rfl
@[simp] theorem exec_maxnC {s : State} {d} {o} : exec (.maxnC d o) s = run (planMaxnC d o) s := rfl
@[simp] theorem exec_liC {s : State} {d} {o} : exec (.liC d o) s = run (planLiC d o) s := rfl
@[simp] theorem exec_vaddC {s : State} {d} {o} : exec (.vaddC d o) s = run (planVaddC d o) s := rfl
@[simp] theorem exec_vsubC {s : State} {d} {o} : exec (.vsubC d o) s = run (planVsubC d o) s := rfl
@[simp] theorem exec_vmulC {s : State} {d} {o} : exec (.vmulC d o) s = run (planVmulC d o) s := rfl
@[simp] theorem exec_vandC {s : State} {d} {o} : exec (.vandC d o) s = run (planVandC d o) s := rfl
@[simp] theorem exec_vorC {s : State} {d} {o} : exec (.vorC d o) s = run (planVorC d o) s := rfl
@[simp] theorem exec_vxorC {s : State} {d} {o} : exec (.vxorC d o) s = run (planVxorC d o) s := rfl
@[simp] theorem exec_vshlC {s : State} {d} {o} : exec (.vshlC d o) s = run (planVshlC d o) s := rfl
@[simp] theorem exec_vshrC {s : State} {d} {o} : exec (.vshrC d o) s = run (planVshrC d o) s := rfl
@[simp] theorem exec_vsraC {s : State} {d} {o} : exec (.vsraC d o) s = run (planVsraC d o) s := rfl
@[simp] theorem exec_vminC {s : State} {d} {o} : exec (.vminC d o) s = run (planVminC d o) s := rfl
@[simp] theorem exec_vmaxC {s : State} {d} {o} : exec (.vmaxC d o) s = run (planVmaxC d o) s := rfl
@[simp] theorem exec_vfaddC {s : State} {d} {o} : exec (.vfaddC d o) s = run (planVfaddC d o) s := rfl
@[simp] theorem exec_vfsubC {s : State} {d} {o} : exec (.vfsubC d o) s = run (planVfsubC d o) s := rfl
@[simp] theorem exec_vfmulC {s : State} {d} {o} : exec (.vfmulC d o) s = run (planVfmulC d o) s := rfl
@[simp] theorem exec_vfminC {s : State} {d} {o} : exec (.vfminC d o) s = run (planVfminC d o) s := rfl
@[simp] theorem exec_vfmaxC {s : State} {d} {o} : exec (.vfmaxC d o) s = run (planVfmaxC d o) s := rfl

end Sys2Proof.Machine
end

