-- ==== Sys2Proof/Laws/Tab.lean ====
section
/-!
SUPPORT. Laws of sparse tables: reading after a write, and that every operation keeps the canonical form.
-/

namespace Sys2Proof.Machine

variable {α : Type}

@[simp] theorem Tab.find_nil (n : Nat) : Tab.find ([] : Tab α) n = none := rfl

theorem Tab.find_cons (k : Nat) (v : α) (t : Tab α) (n : Nat) :
    Tab.find ((k, v) :: t) n = if n = k then some v else Tab.find t n := rfl

/-- Reading after a write, whatever the table. -/
theorem Tab.find_put (t : Tab α) (n m : Nat) (x : α) :
    Tab.find (Tab.put t n x) m = if m = n then some x else Tab.find t m := by
  induction t with
  | nil => rfl
  | cons p t ih =>
    obtain ⟨k, v⟩ := p
    unfold Tab.put
    split
    · rfl
    · split
      · subst_vars; simp only [Tab.find_cons]; split <;> rfl
      · simp only [Tab.find_cons, ih]; split <;> split <;> simp_all

@[simp] theorem Tab.find_put_self (t : Tab α) (n : Nat) (x : α) : Tab.find (Tab.put t n x) n = some x := by
  simp [Tab.find_put]

theorem Tab.find_put_ne (t : Tab α) {n m : Nat} (x : α) (h : m ≠ n) : Tab.find (Tab.put t n x) m = Tab.find t m := by
  simp [Tab.find_put, h]

/-- A second write to a key leaves nothing of the first. -/
@[simp] theorem Tab.put_put (t : Tab α) (n : Nat) (x y : α) : Tab.put (Tab.put t n x) n y = Tab.put t n y := by
  induction t with
  | nil => simp [Tab.put]
  | cons p t ih =>
    obtain ⟨k, v⟩ := p
    by_cases h : n < k
    · simp [Tab.put, h]
    · by_cases h2 : n = k
      · simp [Tab.put, h2]
      · simp [Tab.put, h, h2, ih]

theorem Tab.put_ne_nil (t : Tab α) (n : Nat) (x : α) : Tab.put t n x ≠ [] := by
  cases t with
  | nil => simp [Tab.put]
  | cons p t => unfold Tab.put; split <;> (try split) <;> simp

/-- The keys of a rising table lie above its bound. -/
theorem Tab.rising_lt {t : Tab α} {lo : Nat} (h : Tab.rising t (some lo) = true) {p : Nat × α} (hp : p ∈ t) : lo < p.1 := by
  induction t generalizing lo with
  | nil => cases hp
  | cons q t ih =>
    obtain ⟨k, v⟩ := q
    simp only [Tab.rising, Bool.and_eq_true, decide_eq_true_eq] at h
    rcases List.mem_cons.1 hp with rfl | hp
    · exact h.1
    · exact lt_trans h.1 (ih h.2 hp)

theorem Tab.find_none_of_lt {t : Tab α} {lo n : Nat} (h : Tab.rising t (some lo) = true) (hn : n ≤ lo) :
    Tab.find t n = none := by
  induction t generalizing lo with
  | nil => rfl
  | cons q t ih =>
    obtain ⟨k, v⟩ := q
    simp only [Tab.rising, Bool.and_eq_true, decide_eq_true_eq] at h
    rw [Tab.find_cons, if_neg (by omega)]
    exact ih h.2 (by omega)

theorem Tab.rising_weaken {t : Tab α} {lo lo' : Nat} (h : Tab.rising t (some lo) = true) (hl : lo' ≤ lo) :
    Tab.rising t (some lo') = true := by
  cases t with
  | nil => rfl
  | cons q t =>
    obtain ⟨k, v⟩ := q
    simp only [Tab.rising, Bool.and_eq_true, decide_eq_true_eq] at h ⊢
    exact ⟨by omega, h.2⟩

theorem Tab.rising_none {t : Tab α} {lo : Nat} (h : Tab.rising t (some lo) = true) : Tab.rising t none = true := by
  cases t with
  | nil => rfl
  | cons q t =>
    obtain ⟨k, v⟩ := q
    simp only [Tab.rising, Bool.and_eq_true] at h ⊢
    exact ⟨trivial, h.2⟩

theorem Tab.rising_put_some {t : Tab α} {lo n : Nat} (x : α) (h : Tab.rising t (some lo) = true) (hn : lo < n) :
    Tab.rising (Tab.put t n x) (some lo) = true := by
  induction t generalizing lo with
  | nil => simp [Tab.put, Tab.rising, hn]
  | cons q t ih =>
    obtain ⟨k, v⟩ := q
    simp only [Tab.rising, Bool.and_eq_true, decide_eq_true_eq] at h
    unfold Tab.put
    split
    · simp [Tab.rising, *]
    · split
      · subst_vars; simp [Tab.rising, *]
      · simp only [Tab.rising, Bool.and_eq_true, decide_eq_true_eq]
        exact ⟨h.1, ih h.2 (by omega)⟩

/-- A write keeps the keys rising. -/
theorem Tab.rising_put {t : Tab α} (n : Nat) (x : α) (h : Tab.rising t none = true) : Tab.rising (Tab.put t n x) none = true := by
  cases t with
  | nil => simp [Tab.put, Tab.rising]
  | cons q t =>
    obtain ⟨k, v⟩ := q
    simp only [Tab.rising, Bool.and_eq_true] at h
    unfold Tab.put
    split
    · simp [Tab.rising, *]
    · split
      · subst_vars; simp [Tab.rising, *]
      · simp only [Tab.rising, Bool.true_and]
        exact Tab.rising_put_some x h.2 (by omega)

theorem Tab.rising_del_some {t : Tab α} {lo n : Nat} (h : Tab.rising t (some lo) = true) :
    Tab.rising (Tab.del t n) (some lo) = true := by
  induction t generalizing lo with
  | nil => rfl
  | cons q t ih =>
    obtain ⟨k, v⟩ := q
    simp only [Tab.rising, Bool.and_eq_true, decide_eq_true_eq] at h
    unfold Tab.del
    split
    · exact Tab.rising_weaken h.2 h.1.le
    · simp only [Tab.rising, Bool.and_eq_true, decide_eq_true_eq]
      exact ⟨h.1, ih h.2⟩

/-- Taking an entry out keeps the keys rising. -/
theorem Tab.rising_del {t : Tab α} (n : Nat) (h : Tab.rising t none = true) : Tab.rising (Tab.del t n) none = true := by
  cases t with
  | nil => rfl
  | cons q t =>
    obtain ⟨k, v⟩ := q
    simp only [Tab.rising, Bool.and_eq_true] at h
    unfold Tab.del
    split
    · exact Tab.rising_none h.2
    · simp only [Tab.rising, Bool.true_and]
      exact Tab.rising_del_some h.2

theorem Tab.mem_put {t : Tab α} {n : Nat} {x : α} {p : Nat × α} (h : p ∈ Tab.put t n x) : p = (n, x) ∨ p ∈ t := by
  induction t with
  | nil => simpa [Tab.put] using h
  | cons q t ih =>
    obtain ⟨k, v⟩ := q
    unfold Tab.put at h
    split at h
    · simpa using h
    · split at h
      · rcases List.mem_cons.1 h with h | h
        · exact .inl h
        · exact .inr (List.mem_cons_of_mem _ h)
      · rcases List.mem_cons.1 h with h | h
        · exact .inr (h ▸ List.mem_cons_self)
        · exact (ih h).imp_right (List.mem_cons_of_mem _)

theorem Tab.mem_del {t : Tab α} {n : Nat} {p : Nat × α} (h : p ∈ Tab.del t n) : p ∈ t := by
  induction t with
  | nil => cases h
  | cons q t ih =>
    obtain ⟨k, v⟩ := q
    unfold Tab.del at h
    split at h
    · exact List.mem_cons_of_mem _ h
    · rcases List.mem_cons.1 h with h | h
      · exact h ▸ List.mem_cons_self
      · exact List.mem_cons_of_mem _ (ih h)

theorem Tab.find_del {t : Tab α} (n m : Nat) (h : Tab.rising t none = true) :
    Tab.find (Tab.del t n) m = if m = n then none else Tab.find t m := by
  induction t with
  | nil => simp [Tab.del]
  | cons q t ih =>
    obtain ⟨k, v⟩ := q
    simp only [Tab.rising, Bool.true_and] at h
    unfold Tab.del
    split
    · subst_vars
      rw [Tab.find_cons]
      split
      · subst_vars; exact Tab.find_none_of_lt h le_rfl
      · rfl
    · rw [Tab.find_cons, Tab.find_cons, ih (Tab.rising_none h)]
      split
      · split <;> simp_all
      · rfl

variable [DecidableEq α]

theorem Tab.wf_iff (d : α) (t : Tab α) : Tab.wf d t = true ↔ Tab.rising t none = true ∧ ∀ p ∈ t, p.2 ≠ d := by
  simp [Tab.wf]

@[simp] theorem Tab.wf_nil (d : α) : Tab.wf d ([] : Tab α) = true := rfl

/-- A write keeps the canonical form. -/
theorem Tab.wf_set {d : α} {t : Tab α} (n : Nat) (x : α) (h : Tab.wf d t = true) : Tab.wf d (Tab.set d t n x) = true := by
  rw [Tab.wf_iff] at h ⊢
  unfold Tab.set
  split
  · exact ⟨Tab.rising_del n h.1, fun p hp => h.2 p (Tab.mem_del hp)⟩
  · refine ⟨Tab.rising_put n x h.1, fun p hp => ?_⟩
    rcases Tab.mem_put hp with rfl | hp
    · assumption
    · exact h.2 p hp

theorem Tab.wf_del {d : α} {t : Tab α} (n : Nat) (h : Tab.wf d t = true) : Tab.wf d (Tab.del t n) = true := by
  rw [Tab.wf_iff] at h ⊢
  exact ⟨Tab.rising_del n h.1, fun p hp => h.2 p (Tab.mem_del hp)⟩

/-- Reading after a write of a canonical table. -/
theorem Tab.get_set {d : α} {t : Tab α} (n m : Nat) (x : α) (h : Tab.wf d t = true) :
    Tab.get d (Tab.set d t n x) m = if m = n then x else Tab.get d t m := by
  rw [Tab.wf_iff] at h
  unfold Tab.get Tab.set
  split
  · rw [Tab.find_del n m h.1]
    split <;> simp_all
  · rw [Tab.find_put]
    split <;> rfl

/-- The same of any table, where the value written is not the default one. -/
theorem Tab.get_set_of_ne {d : α} {t : Tab α} (n m : Nat) {x : α} (h : x ≠ d) :
    Tab.get d (Tab.set d t n x) m = if m = n then x else Tab.get d t m := by
  unfold Tab.get Tab.set
  rw [if_neg h, Tab.find_put]
  split <;> rfl

theorem Tab.set_of_ne {d : α} (t : Tab α) (n : Nat) {x : α} (h : x ≠ d) : Tab.set d t n x = Tab.put t n x := by
  simp [Tab.set, h]

end Sys2Proof.Machine
end

