-- ==== Sys2Proof/Laws/State.lean ====
section
/-!
SUPPORT. What each update of the state leaves in each field: one lemma per field per update, true by `rfl`; and reading a
core or a strand after it has been put back.
-/

namespace Sys2Proof.Machine

/-! ### `setCore` changes `cores` alone -/

@[simp] theorem State.setCore_cycle (s : State) (c : Nat) (k : Core) : (s.setCore c k).cycle = s.cycle := rfl
@[simp] theorem State.setCore_choice (s : State) (c : Nat) (k : Core) : (s.setCore c k).choice = s.choice := rfl
@[simp] theorem State.setCore_turn (s : State) (c : Nat) (k : Core) : (s.setCore c k).turn = s.turn := rfl
@[simp] theorem State.setCore_cur (s : State) (c : Nat) (k : Core) : (s.setCore c k).cur = s.cur := rfl
@[simp] theorem State.setCore_note (s : State) (c : Nat) (k : Core) : (s.setCore c k).note = s.note := rfl
@[simp] theorem State.setCore_outCores (s : State) (c : Nat) (k : Core) : (s.setCore c k).outCores = s.outCores := rfl
@[simp] theorem State.setCore_outChans (s : State) (c : Nat) (k : Core) : (s.setCore c k).outChans = s.outChans := rfl
@[simp] theorem State.setCore_banks (s : State) (c : Nat) (k : Core) : (s.setCore c k).banks = s.banks := rfl
@[simp] theorem State.setCore_lineage (s : State) (c : Nat) (k : Core) : (s.setCore c k).lineage = s.lineage := rfl
@[simp] theorem State.setCore_releasing (s : State) (c : Nat) (k : Core) : (s.setCore c k).releasing = s.releasing := rfl
@[simp] theorem State.setCore_movers (s : State) (c : Nat) (k : Core) : (s.setCore c k).movers = s.movers := rfl
@[simp] theorem State.setCore_asids (s : State) (c : Nat) (k : Core) : (s.setCore c k).asids = s.asids := rfl
@[simp] theorem State.setCore_keys (s : State) (c : Nat) (k : Core) : (s.setCore c k).keys = s.keys := rfl
@[simp] theorem State.setCore_hbm (s : State) (c : Nat) (k : Core) : (s.setCore c k).hbm = s.hbm := rfl
@[simp] theorem State.setCore_pool (s : State) (c : Nat) (k : Core) : (s.setCore c k).pool = s.pool := rfl
@[simp] theorem State.setCore_far (s : State) (c : Nat) (k : Core) : (s.setCore c k).far = s.far := rfl
@[simp] theorem State.setCore_poolIn (s : State) (c : Nat) (k : Core) : (s.setCore c k).poolIn = s.poolIn := rfl
@[simp] theorem State.setCore_lineKey (s : State) (c : Nat) (k : Core) : (s.setCore c k).lineKey = s.lineKey := rfl
@[simp] theorem State.setCore_poison (s : State) (c : Nat) (k : Core) : (s.setCore c k).poison = s.poison := rfl
@[simp] theorem State.setCore_stale (s : State) (c : Nat) (k : Core) : (s.setCore c k).stale = s.stale := rfl
@[simp] theorem State.setCore_beside (s : State) (c : Nat) (k : Core) : (s.setCore c k).beside = s.beside := rfl
@[simp] theorem State.setCore_migs (s : State) (c : Nat) (k : Core) : (s.setCore c k).migs = s.migs := rfl
@[simp] theorem State.setCore_smaps (s : State) (c : Nat) (k : Core) : (s.setCore c k).smaps = s.smaps := rfl
@[simp] theorem State.setCore_codes (s : State) (c : Nat) (k : Core) : (s.setCore c k).codes = s.codes := rfl
@[simp] theorem State.setCore_oldCode (s : State) (c : Nat) (k : Core) : (s.setCore c k).oldCode = s.oldCode := rfl
@[simp] theorem State.setCore_launches (s : State) (c : Nat) (k : Core) : (s.setCore c k).launches = s.launches := rfl
@[simp] theorem State.setCore_nextLaunch (s : State) (c : Nat) (k : Core) : (s.setCore c k).nextLaunch = s.nextLaunch := rfl
@[simp] theorem State.setCore_starting (s : State) (c : Nat) (k : Core) : (s.setCore c k).starting = s.starting := rfl
@[simp] theorem State.setCore_gangs (s : State) (c : Nat) (k : Core) : (s.setCore c k).gangs = s.gangs := rfl
@[simp] theorem State.setCore_xreds (s : State) (c : Nat) (k : Core) : (s.setCore c k).xreds = s.xreds := rfl
@[simp] theorem State.setCore_cmds (s : State) (c : Nat) (k : Core) : (s.setCore c k).cmds = s.cmds := rfl
@[simp] theorem State.setCore_nextCmd (s : State) (c : Nat) (k : Core) : (s.setCore c k).nextCmd = s.nextCmd := rfl
@[simp] theorem State.setCore_xtfb (s : State) (c : Nat) (k : Core) : (s.setCore c k).xtfb = s.xtfb := rfl
@[simp] theorem State.setCore_efqb (s : State) (c : Nat) (k : Core) : (s.setCore c k).efqb = s.efqb := rfl
@[simp] theorem State.setCore_efqTail (s : State) (c : Nat) (k : Core) : (s.setCore c k).efqTail = s.efqTail := rfl
@[simp] theorem State.setCore_efqHead (s : State) (c : Nat) (k : Core) : (s.setCore c k).efqHead = s.efqHead := rfl
@[simp] theorem State.setCore_erecs (s : State) (c : Nat) (k : Core) : (s.setCore c k).erecs = s.erecs := rfl
@[simp] theorem State.setCore_erecSeq (s : State) (c : Nat) (k : Core) : (s.setCore c k).erecSeq = s.erecSeq := rfl
@[simp] theorem State.setCore_jhead (s : State) (c : Nat) (k : Core) : (s.setCore c k).jhead = s.jhead := rfl
@[simp] theorem State.setCore_hwin (s : State) (c : Nat) (k : Core) : (s.setCore c k).hwin = s.hwin := rfl
@[simp] theorem State.setCore_ftmo (s : State) (c : Nat) (k : Core) : (s.setCore c k).ftmo = s.ftmo := rfl
@[simp] theorem State.setCore_gtmo (s : State) (c : Nat) (k : Core) : (s.setCore c k).gtmo = s.gtmo := rfl
@[simp] theorem State.setCore_pst (s : State) (c : Nat) (k : Core) : (s.setCore c k).pst = s.pst := rfl
@[simp] theorem State.setCore_ports (s : State) (c : Nat) (k : Core) : (s.setCore c k).ports = s.ports := rfl
@[simp] theorem State.setCore_down (s : State) (c : Nat) (k : Core) : (s.setCore c k).down = s.down := rfl
@[simp] theorem State.setCore_pdec (s : State) (c : Nat) (k : Core) : (s.setCore c k).pdec = s.pdec := rfl
@[simp] theorem State.setCore_meas (s : State) (c : Nat) (k : Core) : (s.setCore c k).meas = s.meas := rfl
@[simp] theorem State.setCore_msix (s : State) (c : Nat) (k : Core) : (s.setCore c k).msix = s.msix := rfl
@[simp] theorem State.setCore_msixPend (s : State) (c : Nat) (k : Core) : (s.setCore c k).msixPend = s.msixPend := rfl
@[simp] theorem State.setCore_devId (s : State) (c : Nat) (k : Core) : (s.setCore c k).devId = s.devId := rfl
@[simp] theorem State.setCore_flash (s : State) (c : Nat) (k : Core) : (s.setCore c k).flash = s.flash := rfl
@[simp] theorem State.setCore_stage (s : State) (c : Nat) (k : Core) : (s.setCore c k).stage = s.stage := rfl
@[simp] theorem State.setCore_runtime (s : State) (c : Nat) (k : Core) : (s.setCore c k).runtime = s.runtime := rfl
@[simp] theorem State.setCore_handed (s : State) (c : Nat) (k : Core) : (s.setCore c k).handed = s.handed := rfl
@[simp] theorem State.setCore_agenda (s : State) (c : Nat) (k : Core) : (s.setCore c k).agenda = s.agenda := rfl
@[simp] theorem State.setCore_out (s : State) (c : Nat) (k : Core) : (s.setCore c k).out = s.out := rfl

/-! ### `setStrand` changes `cores` alone -/

@[simp] theorem State.setStrand_cycle (s : State) (c sl : Nat) (t : Strand) : (s.setStrand c sl t).cycle = s.cycle := rfl
@[simp] theorem State.setStrand_choice (s : State) (c sl : Nat) (t : Strand) : (s.setStrand c sl t).choice = s.choice := rfl
@[simp] theorem State.setStrand_turn (s : State) (c sl : Nat) (t : Strand) : (s.setStrand c sl t).turn = s.turn := rfl
@[simp] theorem State.setStrand_cur (s : State) (c sl : Nat) (t : Strand) : (s.setStrand c sl t).cur = s.cur := rfl
@[simp] theorem State.setStrand_note (s : State) (c sl : Nat) (t : Strand) : (s.setStrand c sl t).note = s.note := rfl
@[simp] theorem State.setStrand_outCores (s : State) (c sl : Nat) (t : Strand) : (s.setStrand c sl t).outCores = s.outCores := rfl
@[simp] theorem State.setStrand_outChans (s : State) (c sl : Nat) (t : Strand) : (s.setStrand c sl t).outChans = s.outChans := rfl
@[simp] theorem State.setStrand_banks (s : State) (c sl : Nat) (t : Strand) : (s.setStrand c sl t).banks = s.banks := rfl
@[simp] theorem State.setStrand_lineage (s : State) (c sl : Nat) (t : Strand) : (s.setStrand c sl t).lineage = s.lineage := rfl
@[simp] theorem State.setStrand_releasing (s : State) (c sl : Nat) (t : Strand) : (s.setStrand c sl t).releasing = s.releasing := rfl
@[simp] theorem State.setStrand_movers (s : State) (c sl : Nat) (t : Strand) : (s.setStrand c sl t).movers = s.movers := rfl
@[simp] theorem State.setStrand_asids (s : State) (c sl : Nat) (t : Strand) : (s.setStrand c sl t).asids = s.asids := rfl
@[simp] theorem State.setStrand_keys (s : State) (c sl : Nat) (t : Strand) : (s.setStrand c sl t).keys = s.keys := rfl
@[simp] theorem State.setStrand_hbm (s : State) (c sl : Nat) (t : Strand) : (s.setStrand c sl t).hbm = s.hbm := rfl
@[simp] theorem State.setStrand_pool (s : State) (c sl : Nat) (t : Strand) : (s.setStrand c sl t).pool = s.pool := rfl
@[simp] theorem State.setStrand_far (s : State) (c sl : Nat) (t : Strand) : (s.setStrand c sl t).far = s.far := rfl
@[simp] theorem State.setStrand_poolIn (s : State) (c sl : Nat) (t : Strand) : (s.setStrand c sl t).poolIn = s.poolIn := rfl
@[simp] theorem State.setStrand_lineKey (s : State) (c sl : Nat) (t : Strand) : (s.setStrand c sl t).lineKey = s.lineKey := rfl
@[simp] theorem State.setStrand_poison (s : State) (c sl : Nat) (t : Strand) : (s.setStrand c sl t).poison = s.poison := rfl
@[simp] theorem State.setStrand_stale (s : State) (c sl : Nat) (t : Strand) : (s.setStrand c sl t).stale = s.stale := rfl
@[simp] theorem State.setStrand_beside (s : State) (c sl : Nat) (t : Strand) : (s.setStrand c sl t).beside = s.beside := rfl
@[simp] theorem State.setStrand_migs (s : State) (c sl : Nat) (t : Strand) : (s.setStrand c sl t).migs = s.migs := rfl
@[simp] theorem State.setStrand_smaps (s : State) (c sl : Nat) (t : Strand) : (s.setStrand c sl t).smaps = s.smaps := rfl
@[simp] theorem State.setStrand_codes (s : State) (c sl : Nat) (t : Strand) : (s.setStrand c sl t).codes = s.codes := rfl
@[simp] theorem State.setStrand_oldCode (s : State) (c sl : Nat) (t : Strand) : (s.setStrand c sl t).oldCode = s.oldCode := rfl
@[simp] theorem State.setStrand_launches (s : State) (c sl : Nat) (t : Strand) : (s.setStrand c sl t).launches = s.launches := rfl
@[simp] theorem State.setStrand_nextLaunch (s : State) (c sl : Nat) (t : Strand) : (s.setStrand c sl t).nextLaunch = s.nextLaunch := rfl
@[simp] theorem State.setStrand_starting (s : State) (c sl : Nat) (t : Strand) : (s.setStrand c sl t).starting = s.starting := rfl
@[simp] theorem State.setStrand_gangs (s : State) (c sl : Nat) (t : Strand) : (s.setStrand c sl t).gangs = s.gangs := rfl
@[simp] theorem State.setStrand_xreds (s : State) (c sl : Nat) (t : Strand) : (s.setStrand c sl t).xreds = s.xreds := rfl
@[simp] theorem State.setStrand_cmds (s : State) (c sl : Nat) (t : Strand) : (s.setStrand c sl t).cmds = s.cmds := rfl
@[simp] theorem State.setStrand_nextCmd (s : State) (c sl : Nat) (t : Strand) : (s.setStrand c sl t).nextCmd = s.nextCmd := rfl
@[simp] theorem State.setStrand_xtfb (s : State) (c sl : Nat) (t : Strand) : (s.setStrand c sl t).xtfb = s.xtfb := rfl
@[simp] theorem State.setStrand_efqb (s : State) (c sl : Nat) (t : Strand) : (s.setStrand c sl t).efqb = s.efqb := rfl
@[simp] theorem State.setStrand_efqTail (s : State) (c sl : Nat) (t : Strand) : (s.setStrand c sl t).efqTail = s.efqTail := rfl
@[simp] theorem State.setStrand_efqHead (s : State) (c sl : Nat) (t : Strand) : (s.setStrand c sl t).efqHead = s.efqHead := rfl
@[simp] theorem State.setStrand_erecs (s : State) (c sl : Nat) (t : Strand) : (s.setStrand c sl t).erecs = s.erecs := rfl
@[simp] theorem State.setStrand_erecSeq (s : State) (c sl : Nat) (t : Strand) : (s.setStrand c sl t).erecSeq = s.erecSeq := rfl
@[simp] theorem State.setStrand_jhead (s : State) (c sl : Nat) (t : Strand) : (s.setStrand c sl t).jhead = s.jhead := rfl
@[simp] theorem State.setStrand_hwin (s : State) (c sl : Nat) (t : Strand) : (s.setStrand c sl t).hwin = s.hwin := rfl
@[simp] theorem State.setStrand_ftmo (s : State) (c sl : Nat) (t : Strand) : (s.setStrand c sl t).ftmo = s.ftmo := rfl
@[simp] theorem State.setStrand_gtmo (s : State) (c sl : Nat) (t : Strand) : (s.setStrand c sl t).gtmo = s.gtmo := rfl
@[simp] theorem State.setStrand_pst (s : State) (c sl : Nat) (t : Strand) : (s.setStrand c sl t).pst = s.pst := rfl
@[simp] theorem State.setStrand_ports (s : State) (c sl : Nat) (t : Strand) : (s.setStrand c sl t).ports = s.ports := rfl
@[simp] theorem State.setStrand_down (s : State) (c sl : Nat) (t : Strand) : (s.setStrand c sl t).down = s.down := rfl
@[simp] theorem State.setStrand_pdec (s : State) (c sl : Nat) (t : Strand) : (s.setStrand c sl t).pdec = s.pdec := rfl
@[simp] theorem State.setStrand_meas (s : State) (c sl : Nat) (t : Strand) : (s.setStrand c sl t).meas = s.meas := rfl
@[simp] theorem State.setStrand_msix (s : State) (c sl : Nat) (t : Strand) : (s.setStrand c sl t).msix = s.msix := rfl
@[simp] theorem State.setStrand_msixPend (s : State) (c sl : Nat) (t : Strand) : (s.setStrand c sl t).msixPend = s.msixPend := rfl
@[simp] theorem State.setStrand_devId (s : State) (c sl : Nat) (t : Strand) : (s.setStrand c sl t).devId = s.devId := rfl
@[simp] theorem State.setStrand_flash (s : State) (c sl : Nat) (t : Strand) : (s.setStrand c sl t).flash = s.flash := rfl
@[simp] theorem State.setStrand_stage (s : State) (c sl : Nat) (t : Strand) : (s.setStrand c sl t).stage = s.stage := rfl
@[simp] theorem State.setStrand_runtime (s : State) (c sl : Nat) (t : Strand) : (s.setStrand c sl t).runtime = s.runtime := rfl
@[simp] theorem State.setStrand_handed (s : State) (c sl : Nat) (t : Strand) : (s.setStrand c sl t).handed = s.handed := rfl
@[simp] theorem State.setStrand_agenda (s : State) (c sl : Nat) (t : Strand) : (s.setStrand c sl t).agenda = s.agenda := rfl
@[simp] theorem State.setStrand_out (s : State) (c sl : Nat) (t : Strand) : (s.setStrand c sl t).out = s.out := rfl

/-! ### `freeSlot` changes `cores` alone -/

@[simp] theorem State.freeSlot_cycle (s : State) (c sl : Nat) : (s.freeSlot c sl).cycle = s.cycle := rfl
@[simp] theorem State.freeSlot_choice (s : State) (c sl : Nat) : (s.freeSlot c sl).choice = s.choice := rfl
@[simp] theorem State.freeSlot_turn (s : State) (c sl : Nat) : (s.freeSlot c sl).turn = s.turn := rfl
@[simp] theorem State.freeSlot_cur (s : State) (c sl : Nat) : (s.freeSlot c sl).cur = s.cur := rfl
@[simp] theorem State.freeSlot_note (s : State) (c sl : Nat) : (s.freeSlot c sl).note = s.note := rfl
@[simp] theorem State.freeSlot_outCores (s : State) (c sl : Nat) : (s.freeSlot c sl).outCores = s.outCores := rfl
@[simp] theorem State.freeSlot_outChans (s : State) (c sl : Nat) : (s.freeSlot c sl).outChans = s.outChans := rfl
@[simp] theorem State.freeSlot_banks (s : State) (c sl : Nat) : (s.freeSlot c sl).banks = s.banks := rfl
@[simp] theorem State.freeSlot_lineage (s : State) (c sl : Nat) : (s.freeSlot c sl).lineage = s.lineage := rfl
@[simp] theorem State.freeSlot_releasing (s : State) (c sl : Nat) : (s.freeSlot c sl).releasing = s.releasing := rfl
@[simp] theorem State.freeSlot_movers (s : State) (c sl : Nat) : (s.freeSlot c sl).movers = s.movers := rfl
@[simp] theorem State.freeSlot_asids (s : State) (c sl : Nat) : (s.freeSlot c sl).asids = s.asids := rfl
@[simp] theorem State.freeSlot_keys (s : State) (c sl : Nat) : (s.freeSlot c sl).keys = s.keys := rfl
@[simp] theorem State.freeSlot_hbm (s : State) (c sl : Nat) : (s.freeSlot c sl).hbm = s.hbm := rfl
@[simp] theorem State.freeSlot_pool (s : State) (c sl : Nat) : (s.freeSlot c sl).pool = s.pool := rfl
@[simp] theorem State.freeSlot_far (s : State) (c sl : Nat) : (s.freeSlot c sl).far = s.far := rfl
@[simp] theorem State.freeSlot_poolIn (s : State) (c sl : Nat) : (s.freeSlot c sl).poolIn = s.poolIn := rfl
@[simp] theorem State.freeSlot_lineKey (s : State) (c sl : Nat) : (s.freeSlot c sl).lineKey = s.lineKey := rfl
@[simp] theorem State.freeSlot_poison (s : State) (c sl : Nat) : (s.freeSlot c sl).poison = s.poison := rfl
@[simp] theorem State.freeSlot_stale (s : State) (c sl : Nat) : (s.freeSlot c sl).stale = s.stale := rfl
@[simp] theorem State.freeSlot_beside (s : State) (c sl : Nat) : (s.freeSlot c sl).beside = s.beside := rfl
@[simp] theorem State.freeSlot_migs (s : State) (c sl : Nat) : (s.freeSlot c sl).migs = s.migs := rfl
@[simp] theorem State.freeSlot_smaps (s : State) (c sl : Nat) : (s.freeSlot c sl).smaps = s.smaps := rfl
@[simp] theorem State.freeSlot_codes (s : State) (c sl : Nat) : (s.freeSlot c sl).codes = s.codes := rfl
@[simp] theorem State.freeSlot_oldCode (s : State) (c sl : Nat) : (s.freeSlot c sl).oldCode = s.oldCode := rfl
@[simp] theorem State.freeSlot_launches (s : State) (c sl : Nat) : (s.freeSlot c sl).launches = s.launches := rfl
@[simp] theorem State.freeSlot_nextLaunch (s : State) (c sl : Nat) : (s.freeSlot c sl).nextLaunch = s.nextLaunch := rfl
@[simp] theorem State.freeSlot_starting (s : State) (c sl : Nat) : (s.freeSlot c sl).starting = s.starting := rfl
@[simp] theorem State.freeSlot_gangs (s : State) (c sl : Nat) : (s.freeSlot c sl).gangs = s.gangs := rfl
@[simp] theorem State.freeSlot_xreds (s : State) (c sl : Nat) : (s.freeSlot c sl).xreds = s.xreds := rfl
@[simp] theorem State.freeSlot_cmds (s : State) (c sl : Nat) : (s.freeSlot c sl).cmds = s.cmds := rfl
@[simp] theorem State.freeSlot_nextCmd (s : State) (c sl : Nat) : (s.freeSlot c sl).nextCmd = s.nextCmd := rfl
@[simp] theorem State.freeSlot_xtfb (s : State) (c sl : Nat) : (s.freeSlot c sl).xtfb = s.xtfb := rfl
@[simp] theorem State.freeSlot_efqb (s : State) (c sl : Nat) : (s.freeSlot c sl).efqb = s.efqb := rfl
@[simp] theorem State.freeSlot_efqTail (s : State) (c sl : Nat) : (s.freeSlot c sl).efqTail = s.efqTail := rfl
@[simp] theorem State.freeSlot_efqHead (s : State) (c sl : Nat) : (s.freeSlot c sl).efqHead = s.efqHead := rfl
@[simp] theorem State.freeSlot_erecs (s : State) (c sl : Nat) : (s.freeSlot c sl).erecs = s.erecs := rfl
@[simp] theorem State.freeSlot_erecSeq (s : State) (c sl : Nat) : (s.freeSlot c sl).erecSeq = s.erecSeq := rfl
@[simp] theorem State.freeSlot_jhead (s : State) (c sl : Nat) : (s.freeSlot c sl).jhead = s.jhead := rfl
@[simp] theorem State.freeSlot_hwin (s : State) (c sl : Nat) : (s.freeSlot c sl).hwin = s.hwin := rfl
@[simp] theorem State.freeSlot_ftmo (s : State) (c sl : Nat) : (s.freeSlot c sl).ftmo = s.ftmo := rfl
@[simp] theorem State.freeSlot_gtmo (s : State) (c sl : Nat) : (s.freeSlot c sl).gtmo = s.gtmo := rfl
@[simp] theorem State.freeSlot_pst (s : State) (c sl : Nat) : (s.freeSlot c sl).pst = s.pst := rfl
@[simp] theorem State.freeSlot_ports (s : State) (c sl : Nat) : (s.freeSlot c sl).ports = s.ports := rfl
@[simp] theorem State.freeSlot_down (s : State) (c sl : Nat) : (s.freeSlot c sl).down = s.down := rfl
@[simp] theorem State.freeSlot_pdec (s : State) (c sl : Nat) : (s.freeSlot c sl).pdec = s.pdec := rfl
@[simp] theorem State.freeSlot_meas (s : State) (c sl : Nat) : (s.freeSlot c sl).meas = s.meas := rfl
@[simp] theorem State.freeSlot_msix (s : State) (c sl : Nat) : (s.freeSlot c sl).msix = s.msix := rfl
@[simp] theorem State.freeSlot_msixPend (s : State) (c sl : Nat) : (s.freeSlot c sl).msixPend = s.msixPend := rfl
@[simp] theorem State.freeSlot_devId (s : State) (c sl : Nat) : (s.freeSlot c sl).devId = s.devId := rfl
@[simp] theorem State.freeSlot_flash (s : State) (c sl : Nat) : (s.freeSlot c sl).flash = s.flash := rfl
@[simp] theorem State.freeSlot_stage (s : State) (c sl : Nat) : (s.freeSlot c sl).stage = s.stage := rfl
@[simp] theorem State.freeSlot_runtime (s : State) (c sl : Nat) : (s.freeSlot c sl).runtime = s.runtime := rfl
@[simp] theorem State.freeSlot_handed (s : State) (c sl : Nat) : (s.freeSlot c sl).handed = s.handed := rfl
@[simp] theorem State.freeSlot_agenda (s : State) (c sl : Nat) : (s.freeSlot c sl).agenda = s.agenda := rfl
@[simp] theorem State.freeSlot_out (s : State) (c sl : Nat) : (s.freeSlot c sl).out = s.out := rfl

/-! ### `setMe` changes `cores` alone -/

@[simp] theorem State.setMe_cycle (s : State) (t : Strand) : (s.setMe t).cycle = s.cycle := rfl
@[simp] theorem State.setMe_choice (s : State) (t : Strand) : (s.setMe t).choice = s.choice := rfl
@[simp] theorem State.setMe_turn (s : State) (t : Strand) : (s.setMe t).turn = s.turn := rfl
@[simp] theorem State.setMe_cur (s : State) (t : Strand) : (s.setMe t).cur = s.cur := rfl
@[simp] theorem State.setMe_note (s : State) (t : Strand) : (s.setMe t).note = s.note := rfl
@[simp] theorem State.setMe_outCores (s : State) (t : Strand) : (s.setMe t).outCores = s.outCores := rfl
@[simp] theorem State.setMe_outChans (s : State) (t : Strand) : (s.setMe t).outChans = s.outChans := rfl
@[simp] theorem State.setMe_banks (s : State) (t : Strand) : (s.setMe t).banks = s.banks := rfl
@[simp] theorem State.setMe_lineage (s : State) (t : Strand) : (s.setMe t).lineage = s.lineage := rfl
@[simp] theorem State.setMe_releasing (s : State) (t : Strand) : (s.setMe t).releasing = s.releasing := rfl
@[simp] theorem State.setMe_movers (s : State) (t : Strand) : (s.setMe t).movers = s.movers := rfl
@[simp] theorem State.setMe_asids (s : State) (t : Strand) : (s.setMe t).asids = s.asids := rfl
@[simp] theorem State.setMe_keys (s : State) (t : Strand) : (s.setMe t).keys = s.keys := rfl
@[simp] theorem State.setMe_hbm (s : State) (t : Strand) : (s.setMe t).hbm = s.hbm := rfl
@[simp] theorem State.setMe_pool (s : State) (t : Strand) : (s.setMe t).pool = s.pool := rfl
@[simp] theorem State.setMe_far (s : State) (t : Strand) : (s.setMe t).far = s.far := rfl
@[simp] theorem State.setMe_poolIn (s : State) (t : Strand) : (s.setMe t).poolIn = s.poolIn := rfl
@[simp] theorem State.setMe_lineKey (s : State) (t : Strand) : (s.setMe t).lineKey = s.lineKey := rfl
@[simp] theorem State.setMe_poison (s : State) (t : Strand) : (s.setMe t).poison = s.poison := rfl
@[simp] theorem State.setMe_stale (s : State) (t : Strand) : (s.setMe t).stale = s.stale := rfl
@[simp] theorem State.setMe_beside (s : State) (t : Strand) : (s.setMe t).beside = s.beside := rfl
@[simp] theorem State.setMe_migs (s : State) (t : Strand) : (s.setMe t).migs = s.migs := rfl
@[simp] theorem State.setMe_smaps (s : State) (t : Strand) : (s.setMe t).smaps = s.smaps := rfl
@[simp] theorem State.setMe_codes (s : State) (t : Strand) : (s.setMe t).codes = s.codes := rfl
@[simp] theorem State.setMe_oldCode (s : State) (t : Strand) : (s.setMe t).oldCode = s.oldCode := rfl
@[simp] theorem State.setMe_launches (s : State) (t : Strand) : (s.setMe t).launches = s.launches := rfl
@[simp] theorem State.setMe_nextLaunch (s : State) (t : Strand) : (s.setMe t).nextLaunch = s.nextLaunch := rfl
@[simp] theorem State.setMe_starting (s : State) (t : Strand) : (s.setMe t).starting = s.starting := rfl
@[simp] theorem State.setMe_gangs (s : State) (t : Strand) : (s.setMe t).gangs = s.gangs := rfl
@[simp] theorem State.setMe_xreds (s : State) (t : Strand) : (s.setMe t).xreds = s.xreds := rfl
@[simp] theorem State.setMe_cmds (s : State) (t : Strand) : (s.setMe t).cmds = s.cmds := rfl
@[simp] theorem State.setMe_nextCmd (s : State) (t : Strand) : (s.setMe t).nextCmd = s.nextCmd := rfl
@[simp] theorem State.setMe_xtfb (s : State) (t : Strand) : (s.setMe t).xtfb = s.xtfb := rfl
@[simp] theorem State.setMe_efqb (s : State) (t : Strand) : (s.setMe t).efqb = s.efqb := rfl
@[simp] theorem State.setMe_efqTail (s : State) (t : Strand) : (s.setMe t).efqTail = s.efqTail := rfl
@[simp] theorem State.setMe_efqHead (s : State) (t : Strand) : (s.setMe t).efqHead = s.efqHead := rfl
@[simp] theorem State.setMe_erecs (s : State) (t : Strand) : (s.setMe t).erecs = s.erecs := rfl
@[simp] theorem State.setMe_erecSeq (s : State) (t : Strand) : (s.setMe t).erecSeq = s.erecSeq := rfl
@[simp] theorem State.setMe_jhead (s : State) (t : Strand) : (s.setMe t).jhead = s.jhead := rfl
@[simp] theorem State.setMe_hwin (s : State) (t : Strand) : (s.setMe t).hwin = s.hwin := rfl
@[simp] theorem State.setMe_ftmo (s : State) (t : Strand) : (s.setMe t).ftmo = s.ftmo := rfl
@[simp] theorem State.setMe_gtmo (s : State) (t : Strand) : (s.setMe t).gtmo = s.gtmo := rfl
@[simp] theorem State.setMe_pst (s : State) (t : Strand) : (s.setMe t).pst = s.pst := rfl
@[simp] theorem State.setMe_ports (s : State) (t : Strand) : (s.setMe t).ports = s.ports := rfl
@[simp] theorem State.setMe_down (s : State) (t : Strand) : (s.setMe t).down = s.down := rfl
@[simp] theorem State.setMe_pdec (s : State) (t : Strand) : (s.setMe t).pdec = s.pdec := rfl
@[simp] theorem State.setMe_meas (s : State) (t : Strand) : (s.setMe t).meas = s.meas := rfl
@[simp] theorem State.setMe_msix (s : State) (t : Strand) : (s.setMe t).msix = s.msix := rfl
@[simp] theorem State.setMe_msixPend (s : State) (t : Strand) : (s.setMe t).msixPend = s.msixPend := rfl
@[simp] theorem State.setMe_devId (s : State) (t : Strand) : (s.setMe t).devId = s.devId := rfl
@[simp] theorem State.setMe_flash (s : State) (t : Strand) : (s.setMe t).flash = s.flash := rfl
@[simp] theorem State.setMe_stage (s : State) (t : Strand) : (s.setMe t).stage = s.stage := rfl
@[simp] theorem State.setMe_runtime (s : State) (t : Strand) : (s.setMe t).runtime = s.runtime := rfl
@[simp] theorem State.setMe_handed (s : State) (t : Strand) : (s.setMe t).handed = s.handed := rfl
@[simp] theorem State.setMe_agenda (s : State) (t : Strand) : (s.setMe t).agenda = s.agenda := rfl
@[simp] theorem State.setMe_out (s : State) (t : Strand) : (s.setMe t).out = s.out := rfl

/-! ### `setR` changes `cores` alone -/

@[simp] theorem State.setR_cycle (s : State) (r : Scalars) : (s.setR r).cycle = s.cycle := rfl
@[simp] theorem State.setR_choice (s : State) (r : Scalars) : (s.setR r).choice = s.choice := rfl
@[simp] theorem State.setR_turn (s : State) (r : Scalars) : (s.setR r).turn = s.turn := rfl
@[simp] theorem State.setR_cur (s : State) (r : Scalars) : (s.setR r).cur = s.cur := rfl
@[simp] theorem State.setR_note (s : State) (r : Scalars) : (s.setR r).note = s.note := rfl
@[simp] theorem State.setR_outCores (s : State) (r : Scalars) : (s.setR r).outCores = s.outCores := rfl
@[simp] theorem State.setR_outChans (s : State) (r : Scalars) : (s.setR r).outChans = s.outChans := rfl
@[simp] theorem State.setR_banks (s : State) (r : Scalars) : (s.setR r).banks = s.banks := rfl
@[simp] theorem State.setR_lineage (s : State) (r : Scalars) : (s.setR r).lineage = s.lineage := rfl
@[simp] theorem State.setR_releasing (s : State) (r : Scalars) : (s.setR r).releasing = s.releasing := rfl
@[simp] theorem State.setR_movers (s : State) (r : Scalars) : (s.setR r).movers = s.movers := rfl
@[simp] theorem State.setR_asids (s : State) (r : Scalars) : (s.setR r).asids = s.asids := rfl
@[simp] theorem State.setR_keys (s : State) (r : Scalars) : (s.setR r).keys = s.keys := rfl
@[simp] theorem State.setR_hbm (s : State) (r : Scalars) : (s.setR r).hbm = s.hbm := rfl
@[simp] theorem State.setR_pool (s : State) (r : Scalars) : (s.setR r).pool = s.pool := rfl
@[simp] theorem State.setR_far (s : State) (r : Scalars) : (s.setR r).far = s.far := rfl
@[simp] theorem State.setR_poolIn (s : State) (r : Scalars) : (s.setR r).poolIn = s.poolIn := rfl
@[simp] theorem State.setR_lineKey (s : State) (r : Scalars) : (s.setR r).lineKey = s.lineKey := rfl
@[simp] theorem State.setR_poison (s : State) (r : Scalars) : (s.setR r).poison = s.poison := rfl
@[simp] theorem State.setR_stale (s : State) (r : Scalars) : (s.setR r).stale = s.stale := rfl
@[simp] theorem State.setR_beside (s : State) (r : Scalars) : (s.setR r).beside = s.beside := rfl
@[simp] theorem State.setR_migs (s : State) (r : Scalars) : (s.setR r).migs = s.migs := rfl
@[simp] theorem State.setR_smaps (s : State) (r : Scalars) : (s.setR r).smaps = s.smaps := rfl
@[simp] theorem State.setR_codes (s : State) (r : Scalars) : (s.setR r).codes = s.codes := rfl
@[simp] theorem State.setR_oldCode (s : State) (r : Scalars) : (s.setR r).oldCode = s.oldCode := rfl
@[simp] theorem State.setR_launches (s : State) (r : Scalars) : (s.setR r).launches = s.launches := rfl
@[simp] theorem State.setR_nextLaunch (s : State) (r : Scalars) : (s.setR r).nextLaunch = s.nextLaunch := rfl
@[simp] theorem State.setR_starting (s : State) (r : Scalars) : (s.setR r).starting = s.starting := rfl
@[simp] theorem State.setR_gangs (s : State) (r : Scalars) : (s.setR r).gangs = s.gangs := rfl
@[simp] theorem State.setR_xreds (s : State) (r : Scalars) : (s.setR r).xreds = s.xreds := rfl
@[simp] theorem State.setR_cmds (s : State) (r : Scalars) : (s.setR r).cmds = s.cmds := rfl
@[simp] theorem State.setR_nextCmd (s : State) (r : Scalars) : (s.setR r).nextCmd = s.nextCmd := rfl
@[simp] theorem State.setR_xtfb (s : State) (r : Scalars) : (s.setR r).xtfb = s.xtfb := rfl
@[simp] theorem State.setR_efqb (s : State) (r : Scalars) : (s.setR r).efqb = s.efqb := rfl
@[simp] theorem State.setR_efqTail (s : State) (r : Scalars) : (s.setR r).efqTail = s.efqTail := rfl
@[simp] theorem State.setR_efqHead (s : State) (r : Scalars) : (s.setR r).efqHead = s.efqHead := rfl
@[simp] theorem State.setR_erecs (s : State) (r : Scalars) : (s.setR r).erecs = s.erecs := rfl
@[simp] theorem State.setR_erecSeq (s : State) (r : Scalars) : (s.setR r).erecSeq = s.erecSeq := rfl
@[simp] theorem State.setR_jhead (s : State) (r : Scalars) : (s.setR r).jhead = s.jhead := rfl
@[simp] theorem State.setR_hwin (s : State) (r : Scalars) : (s.setR r).hwin = s.hwin := rfl
@[simp] theorem State.setR_ftmo (s : State) (r : Scalars) : (s.setR r).ftmo = s.ftmo := rfl
@[simp] theorem State.setR_gtmo (s : State) (r : Scalars) : (s.setR r).gtmo = s.gtmo := rfl
@[simp] theorem State.setR_pst (s : State) (r : Scalars) : (s.setR r).pst = s.pst := rfl
@[simp] theorem State.setR_ports (s : State) (r : Scalars) : (s.setR r).ports = s.ports := rfl
@[simp] theorem State.setR_down (s : State) (r : Scalars) : (s.setR r).down = s.down := rfl
@[simp] theorem State.setR_pdec (s : State) (r : Scalars) : (s.setR r).pdec = s.pdec := rfl
@[simp] theorem State.setR_meas (s : State) (r : Scalars) : (s.setR r).meas = s.meas := rfl
@[simp] theorem State.setR_msix (s : State) (r : Scalars) : (s.setR r).msix = s.msix := rfl
@[simp] theorem State.setR_msixPend (s : State) (r : Scalars) : (s.setR r).msixPend = s.msixPend := rfl
@[simp] theorem State.setR_devId (s : State) (r : Scalars) : (s.setR r).devId = s.devId := rfl
@[simp] theorem State.setR_flash (s : State) (r : Scalars) : (s.setR r).flash = s.flash := rfl
@[simp] theorem State.setR_stage (s : State) (r : Scalars) : (s.setR r).stage = s.stage := rfl
@[simp] theorem State.setR_runtime (s : State) (r : Scalars) : (s.setR r).runtime = s.runtime := rfl
@[simp] theorem State.setR_handed (s : State) (r : Scalars) : (s.setR r).handed = s.handed := rfl
@[simp] theorem State.setR_agenda (s : State) (r : Scalars) : (s.setR r).agenda = s.agenda := rfl
@[simp] theorem State.setR_out (s : State) (r : Scalars) : (s.setR r).out = s.out := rfl

/-! ### `setVal` changes `cores` alone -/

@[simp] theorem State.setVal_cycle (s : State) (x : BitVec 6) (v : Word) : (s.setVal x v).cycle = s.cycle := rfl
@[simp] theorem State.setVal_choice (s : State) (x : BitVec 6) (v : Word) : (s.setVal x v).choice = s.choice := rfl
@[simp] theorem State.setVal_turn (s : State) (x : BitVec 6) (v : Word) : (s.setVal x v).turn = s.turn := rfl
@[simp] theorem State.setVal_cur (s : State) (x : BitVec 6) (v : Word) : (s.setVal x v).cur = s.cur := rfl
@[simp] theorem State.setVal_note (s : State) (x : BitVec 6) (v : Word) : (s.setVal x v).note = s.note := rfl
@[simp] theorem State.setVal_outCores (s : State) (x : BitVec 6) (v : Word) : (s.setVal x v).outCores = s.outCores := rfl
@[simp] theorem State.setVal_outChans (s : State) (x : BitVec 6) (v : Word) : (s.setVal x v).outChans = s.outChans := rfl
@[simp] theorem State.setVal_banks (s : State) (x : BitVec 6) (v : Word) : (s.setVal x v).banks = s.banks := rfl
@[simp] theorem State.setVal_lineage (s : State) (x : BitVec 6) (v : Word) : (s.setVal x v).lineage = s.lineage := rfl
@[simp] theorem State.setVal_releasing (s : State) (x : BitVec 6) (v : Word) : (s.setVal x v).releasing = s.releasing := rfl
@[simp] theorem State.setVal_movers (s : State) (x : BitVec 6) (v : Word) : (s.setVal x v).movers = s.movers := rfl
@[simp] theorem State.setVal_asids (s : State) (x : BitVec 6) (v : Word) : (s.setVal x v).asids = s.asids := rfl
@[simp] theorem State.setVal_keys (s : State) (x : BitVec 6) (v : Word) : (s.setVal x v).keys = s.keys := rfl
@[simp] theorem State.setVal_hbm (s : State) (x : BitVec 6) (v : Word) : (s.setVal x v).hbm = s.hbm := rfl
@[simp] theorem State.setVal_pool (s : State) (x : BitVec 6) (v : Word) : (s.setVal x v).pool = s.pool := rfl
@[simp] theorem State.setVal_far (s : State) (x : BitVec 6) (v : Word) : (s.setVal x v).far = s.far := rfl
@[simp] theorem State.setVal_poolIn (s : State) (x : BitVec 6) (v : Word) : (s.setVal x v).poolIn = s.poolIn := rfl
@[simp] theorem State.setVal_lineKey (s : State) (x : BitVec 6) (v : Word) : (s.setVal x v).lineKey = s.lineKey := rfl
@[simp] theorem State.setVal_poison (s : State) (x : BitVec 6) (v : Word) : (s.setVal x v).poison = s.poison := rfl
@[simp] theorem State.setVal_stale (s : State) (x : BitVec 6) (v : Word) : (s.setVal x v).stale = s.stale := rfl
@[simp] theorem State.setVal_beside (s : State) (x : BitVec 6) (v : Word) : (s.setVal x v).beside = s.beside := rfl
@[simp] theorem State.setVal_migs (s : State) (x : BitVec 6) (v : Word) : (s.setVal x v).migs = s.migs := rfl
@[simp] theorem State.setVal_smaps (s : State) (x : BitVec 6) (v : Word) : (s.setVal x v).smaps = s.smaps := rfl
@[simp] theorem State.setVal_codes (s : State) (x : BitVec 6) (v : Word) : (s.setVal x v).codes = s.codes := rfl
@[simp] theorem State.setVal_oldCode (s : State) (x : BitVec 6) (v : Word) : (s.setVal x v).oldCode = s.oldCode := rfl
@[simp] theorem State.setVal_launches (s : State) (x : BitVec 6) (v : Word) : (s.setVal x v).launches = s.launches := rfl
@[simp] theorem State.setVal_nextLaunch (s : State) (x : BitVec 6) (v : Word) : (s.setVal x v).nextLaunch = s.nextLaunch := rfl
@[simp] theorem State.setVal_starting (s : State) (x : BitVec 6) (v : Word) : (s.setVal x v).starting = s.starting := rfl
@[simp] theorem State.setVal_gangs (s : State) (x : BitVec 6) (v : Word) : (s.setVal x v).gangs = s.gangs := rfl
@[simp] theorem State.setVal_xreds (s : State) (x : BitVec 6) (v : Word) : (s.setVal x v).xreds = s.xreds := rfl
@[simp] theorem State.setVal_cmds (s : State) (x : BitVec 6) (v : Word) : (s.setVal x v).cmds = s.cmds := rfl
@[simp] theorem State.setVal_nextCmd (s : State) (x : BitVec 6) (v : Word) : (s.setVal x v).nextCmd = s.nextCmd := rfl
@[simp] theorem State.setVal_xtfb (s : State) (x : BitVec 6) (v : Word) : (s.setVal x v).xtfb = s.xtfb := rfl
@[simp] theorem State.setVal_efqb (s : State) (x : BitVec 6) (v : Word) : (s.setVal x v).efqb = s.efqb := rfl
@[simp] theorem State.setVal_efqTail (s : State) (x : BitVec 6) (v : Word) : (s.setVal x v).efqTail = s.efqTail := rfl
@[simp] theorem State.setVal_efqHead (s : State) (x : BitVec 6) (v : Word) : (s.setVal x v).efqHead = s.efqHead := rfl
@[simp] theorem State.setVal_erecs (s : State) (x : BitVec 6) (v : Word) : (s.setVal x v).erecs = s.erecs := rfl
@[simp] theorem State.setVal_erecSeq (s : State) (x : BitVec 6) (v : Word) : (s.setVal x v).erecSeq = s.erecSeq := rfl
@[simp] theorem State.setVal_jhead (s : State) (x : BitVec 6) (v : Word) : (s.setVal x v).jhead = s.jhead := rfl
@[simp] theorem State.setVal_hwin (s : State) (x : BitVec 6) (v : Word) : (s.setVal x v).hwin = s.hwin := rfl
@[simp] theorem State.setVal_ftmo (s : State) (x : BitVec 6) (v : Word) : (s.setVal x v).ftmo = s.ftmo := rfl
@[simp] theorem State.setVal_gtmo (s : State) (x : BitVec 6) (v : Word) : (s.setVal x v).gtmo = s.gtmo := rfl
@[simp] theorem State.setVal_pst (s : State) (x : BitVec 6) (v : Word) : (s.setVal x v).pst = s.pst := rfl
@[simp] theorem State.setVal_ports (s : State) (x : BitVec 6) (v : Word) : (s.setVal x v).ports = s.ports := rfl
@[simp] theorem State.setVal_down (s : State) (x : BitVec 6) (v : Word) : (s.setVal x v).down = s.down := rfl
@[simp] theorem State.setVal_pdec (s : State) (x : BitVec 6) (v : Word) : (s.setVal x v).pdec = s.pdec := rfl
@[simp] theorem State.setVal_meas (s : State) (x : BitVec 6) (v : Word) : (s.setVal x v).meas = s.meas := rfl
@[simp] theorem State.setVal_msix (s : State) (x : BitVec 6) (v : Word) : (s.setVal x v).msix = s.msix := rfl
@[simp] theorem State.setVal_msixPend (s : State) (x : BitVec 6) (v : Word) : (s.setVal x v).msixPend = s.msixPend := rfl
@[simp] theorem State.setVal_devId (s : State) (x : BitVec 6) (v : Word) : (s.setVal x v).devId = s.devId := rfl
@[simp] theorem State.setVal_flash (s : State) (x : BitVec 6) (v : Word) : (s.setVal x v).flash = s.flash := rfl
@[simp] theorem State.setVal_stage (s : State) (x : BitVec 6) (v : Word) : (s.setVal x v).stage = s.stage := rfl
@[simp] theorem State.setVal_runtime (s : State) (x : BitVec 6) (v : Word) : (s.setVal x v).runtime = s.runtime := rfl
@[simp] theorem State.setVal_handed (s : State) (x : BitVec 6) (v : Word) : (s.setVal x v).handed = s.handed := rfl
@[simp] theorem State.setVal_agenda (s : State) (x : BitVec 6) (v : Word) : (s.setVal x v).agenda = s.agenda := rfl
@[simp] theorem State.setVal_out (s : State) (x : BitVec 6) (v : Word) : (s.setVal x v).out = s.out := rfl

/-! ### `setBank` changes `banks` alone -/

@[simp] theorem State.setBank_cycle (s : State) (b : Nat) (k : Bank) : (s.setBank b k).cycle = s.cycle := rfl
@[simp] theorem State.setBank_choice (s : State) (b : Nat) (k : Bank) : (s.setBank b k).choice = s.choice := rfl
@[simp] theorem State.setBank_turn (s : State) (b : Nat) (k : Bank) : (s.setBank b k).turn = s.turn := rfl
@[simp] theorem State.setBank_cur (s : State) (b : Nat) (k : Bank) : (s.setBank b k).cur = s.cur := rfl
@[simp] theorem State.setBank_note (s : State) (b : Nat) (k : Bank) : (s.setBank b k).note = s.note := rfl
@[simp] theorem State.setBank_cores (s : State) (b : Nat) (k : Bank) : (s.setBank b k).cores = s.cores := rfl
@[simp] theorem State.setBank_outCores (s : State) (b : Nat) (k : Bank) : (s.setBank b k).outCores = s.outCores := rfl
@[simp] theorem State.setBank_outChans (s : State) (b : Nat) (k : Bank) : (s.setBank b k).outChans = s.outChans := rfl
@[simp] theorem State.setBank_lineage (s : State) (b : Nat) (k : Bank) : (s.setBank b k).lineage = s.lineage := rfl
@[simp] theorem State.setBank_releasing (s : State) (b : Nat) (k : Bank) : (s.setBank b k).releasing = s.releasing := rfl
@[simp] theorem State.setBank_movers (s : State) (b : Nat) (k : Bank) : (s.setBank b k).movers = s.movers := rfl
@[simp] theorem State.setBank_asids (s : State) (b : Nat) (k : Bank) : (s.setBank b k).asids = s.asids := rfl
@[simp] theorem State.setBank_keys (s : State) (b : Nat) (k : Bank) : (s.setBank b k).keys = s.keys := rfl
@[simp] theorem State.setBank_hbm (s : State) (b : Nat) (k : Bank) : (s.setBank b k).hbm = s.hbm := rfl
@[simp] theorem State.setBank_pool (s : State) (b : Nat) (k : Bank) : (s.setBank b k).pool = s.pool := rfl
@[simp] theorem State.setBank_far (s : State) (b : Nat) (k : Bank) : (s.setBank b k).far = s.far := rfl
@[simp] theorem State.setBank_poolIn (s : State) (b : Nat) (k : Bank) : (s.setBank b k).poolIn = s.poolIn := rfl
@[simp] theorem State.setBank_lineKey (s : State) (b : Nat) (k : Bank) : (s.setBank b k).lineKey = s.lineKey := rfl
@[simp] theorem State.setBank_poison (s : State) (b : Nat) (k : Bank) : (s.setBank b k).poison = s.poison := rfl
@[simp] theorem State.setBank_stale (s : State) (b : Nat) (k : Bank) : (s.setBank b k).stale = s.stale := rfl
@[simp] theorem State.setBank_beside (s : State) (b : Nat) (k : Bank) : (s.setBank b k).beside = s.beside := rfl
@[simp] theorem State.setBank_migs (s : State) (b : Nat) (k : Bank) : (s.setBank b k).migs = s.migs := rfl
@[simp] theorem State.setBank_smaps (s : State) (b : Nat) (k : Bank) : (s.setBank b k).smaps = s.smaps := rfl
@[simp] theorem State.setBank_codes (s : State) (b : Nat) (k : Bank) : (s.setBank b k).codes = s.codes := rfl
@[simp] theorem State.setBank_oldCode (s : State) (b : Nat) (k : Bank) : (s.setBank b k).oldCode = s.oldCode := rfl
@[simp] theorem State.setBank_launches (s : State) (b : Nat) (k : Bank) : (s.setBank b k).launches = s.launches := rfl
@[simp] theorem State.setBank_nextLaunch (s : State) (b : Nat) (k : Bank) : (s.setBank b k).nextLaunch = s.nextLaunch := rfl
@[simp] theorem State.setBank_starting (s : State) (b : Nat) (k : Bank) : (s.setBank b k).starting = s.starting := rfl
@[simp] theorem State.setBank_gangs (s : State) (b : Nat) (k : Bank) : (s.setBank b k).gangs = s.gangs := rfl
@[simp] theorem State.setBank_xreds (s : State) (b : Nat) (k : Bank) : (s.setBank b k).xreds = s.xreds := rfl
@[simp] theorem State.setBank_cmds (s : State) (b : Nat) (k : Bank) : (s.setBank b k).cmds = s.cmds := rfl
@[simp] theorem State.setBank_nextCmd (s : State) (b : Nat) (k : Bank) : (s.setBank b k).nextCmd = s.nextCmd := rfl
@[simp] theorem State.setBank_xtfb (s : State) (b : Nat) (k : Bank) : (s.setBank b k).xtfb = s.xtfb := rfl
@[simp] theorem State.setBank_efqb (s : State) (b : Nat) (k : Bank) : (s.setBank b k).efqb = s.efqb := rfl
@[simp] theorem State.setBank_efqTail (s : State) (b : Nat) (k : Bank) : (s.setBank b k).efqTail = s.efqTail := rfl
@[simp] theorem State.setBank_efqHead (s : State) (b : Nat) (k : Bank) : (s.setBank b k).efqHead = s.efqHead := rfl
@[simp] theorem State.setBank_erecs (s : State) (b : Nat) (k : Bank) : (s.setBank b k).erecs = s.erecs := rfl
@[simp] theorem State.setBank_erecSeq (s : State) (b : Nat) (k : Bank) : (s.setBank b k).erecSeq = s.erecSeq := rfl
@[simp] theorem State.setBank_jhead (s : State) (b : Nat) (k : Bank) : (s.setBank b k).jhead = s.jhead := rfl
@[simp] theorem State.setBank_hwin (s : State) (b : Nat) (k : Bank) : (s.setBank b k).hwin = s.hwin := rfl
@[simp] theorem State.setBank_ftmo (s : State) (b : Nat) (k : Bank) : (s.setBank b k).ftmo = s.ftmo := rfl
@[simp] theorem State.setBank_gtmo (s : State) (b : Nat) (k : Bank) : (s.setBank b k).gtmo = s.gtmo := rfl
@[simp] theorem State.setBank_pst (s : State) (b : Nat) (k : Bank) : (s.setBank b k).pst = s.pst := rfl
@[simp] theorem State.setBank_ports (s : State) (b : Nat) (k : Bank) : (s.setBank b k).ports = s.ports := rfl
@[simp] theorem State.setBank_down (s : State) (b : Nat) (k : Bank) : (s.setBank b k).down = s.down := rfl
@[simp] theorem State.setBank_pdec (s : State) (b : Nat) (k : Bank) : (s.setBank b k).pdec = s.pdec := rfl
@[simp] theorem State.setBank_meas (s : State) (b : Nat) (k : Bank) : (s.setBank b k).meas = s.meas := rfl
@[simp] theorem State.setBank_msix (s : State) (b : Nat) (k : Bank) : (s.setBank b k).msix = s.msix := rfl
@[simp] theorem State.setBank_msixPend (s : State) (b : Nat) (k : Bank) : (s.setBank b k).msixPend = s.msixPend := rfl
@[simp] theorem State.setBank_devId (s : State) (b : Nat) (k : Bank) : (s.setBank b k).devId = s.devId := rfl
@[simp] theorem State.setBank_flash (s : State) (b : Nat) (k : Bank) : (s.setBank b k).flash = s.flash := rfl
@[simp] theorem State.setBank_stage (s : State) (b : Nat) (k : Bank) : (s.setBank b k).stage = s.stage := rfl
@[simp] theorem State.setBank_runtime (s : State) (b : Nat) (k : Bank) : (s.setBank b k).runtime = s.runtime := rfl
@[simp] theorem State.setBank_handed (s : State) (b : Nat) (k : Bank) : (s.setBank b k).handed = s.handed := rfl
@[simp] theorem State.setBank_agenda (s : State) (b : Nat) (k : Bank) : (s.setBank b k).agenda = s.agenda := rfl
@[simp] theorem State.setBank_out (s : State) (b : Nat) (k : Bank) : (s.setBank b k).out = s.out := rfl

/-! ### `setCur` changes `cur` alone -/

@[simp] theorem State.setCur_cycle (s : State) (c : Cur) : (s.setCur c).cycle = s.cycle := rfl
@[simp] theorem State.setCur_choice (s : State) (c : Cur) : (s.setCur c).choice = s.choice := rfl
@[simp] theorem State.setCur_turn (s : State) (c : Cur) : (s.setCur c).turn = s.turn := rfl
@[simp] theorem State.setCur_note (s : State) (c : Cur) : (s.setCur c).note = s.note := rfl
@[simp] theorem State.setCur_cores (s : State) (c : Cur) : (s.setCur c).cores = s.cores := rfl
@[simp] theorem State.setCur_outCores (s : State) (c : Cur) : (s.setCur c).outCores = s.outCores := rfl
@[simp] theorem State.setCur_outChans (s : State) (c : Cur) : (s.setCur c).outChans = s.outChans := rfl
@[simp] theorem State.setCur_banks (s : State) (c : Cur) : (s.setCur c).banks = s.banks := rfl
@[simp] theorem State.setCur_lineage (s : State) (c : Cur) : (s.setCur c).lineage = s.lineage := rfl
@[simp] theorem State.setCur_releasing (s : State) (c : Cur) : (s.setCur c).releasing = s.releasing := rfl
@[simp] theorem State.setCur_movers (s : State) (c : Cur) : (s.setCur c).movers = s.movers := rfl
@[simp] theorem State.setCur_asids (s : State) (c : Cur) : (s.setCur c).asids = s.asids := rfl
@[simp] theorem State.setCur_keys (s : State) (c : Cur) : (s.setCur c).keys = s.keys := rfl
@[simp] theorem State.setCur_hbm (s : State) (c : Cur) : (s.setCur c).hbm = s.hbm := rfl
@[simp] theorem State.setCur_pool (s : State) (c : Cur) : (s.setCur c).pool = s.pool := rfl
@[simp] theorem State.setCur_far (s : State) (c : Cur) : (s.setCur c).far = s.far := rfl
@[simp] theorem State.setCur_poolIn (s : State) (c : Cur) : (s.setCur c).poolIn = s.poolIn := rfl
@[simp] theorem State.setCur_lineKey (s : State) (c : Cur) : (s.setCur c).lineKey = s.lineKey := rfl
@[simp] theorem State.setCur_poison (s : State) (c : Cur) : (s.setCur c).poison = s.poison := rfl
@[simp] theorem State.setCur_stale (s : State) (c : Cur) : (s.setCur c).stale = s.stale := rfl
@[simp] theorem State.setCur_beside (s : State) (c : Cur) : (s.setCur c).beside = s.beside := rfl
@[simp] theorem State.setCur_migs (s : State) (c : Cur) : (s.setCur c).migs = s.migs := rfl
@[simp] theorem State.setCur_smaps (s : State) (c : Cur) : (s.setCur c).smaps = s.smaps := rfl
@[simp] theorem State.setCur_codes (s : State) (c : Cur) : (s.setCur c).codes = s.codes := rfl
@[simp] theorem State.setCur_oldCode (s : State) (c : Cur) : (s.setCur c).oldCode = s.oldCode := rfl
@[simp] theorem State.setCur_launches (s : State) (c : Cur) : (s.setCur c).launches = s.launches := rfl
@[simp] theorem State.setCur_nextLaunch (s : State) (c : Cur) : (s.setCur c).nextLaunch = s.nextLaunch := rfl
@[simp] theorem State.setCur_starting (s : State) (c : Cur) : (s.setCur c).starting = s.starting := rfl
@[simp] theorem State.setCur_gangs (s : State) (c : Cur) : (s.setCur c).gangs = s.gangs := rfl
@[simp] theorem State.setCur_xreds (s : State) (c : Cur) : (s.setCur c).xreds = s.xreds := rfl
@[simp] theorem State.setCur_cmds (s : State) (c : Cur) : (s.setCur c).cmds = s.cmds := rfl
@[simp] theorem State.setCur_nextCmd (s : State) (c : Cur) : (s.setCur c).nextCmd = s.nextCmd := rfl
@[simp] theorem State.setCur_xtfb (s : State) (c : Cur) : (s.setCur c).xtfb = s.xtfb := rfl
@[simp] theorem State.setCur_efqb (s : State) (c : Cur) : (s.setCur c).efqb = s.efqb := rfl
@[simp] theorem State.setCur_efqTail (s : State) (c : Cur) : (s.setCur c).efqTail = s.efqTail := rfl
@[simp] theorem State.setCur_efqHead (s : State) (c : Cur) : (s.setCur c).efqHead = s.efqHead := rfl
@[simp] theorem State.setCur_erecs (s : State) (c : Cur) : (s.setCur c).erecs = s.erecs := rfl
@[simp] theorem State.setCur_erecSeq (s : State) (c : Cur) : (s.setCur c).erecSeq = s.erecSeq := rfl
@[simp] theorem State.setCur_jhead (s : State) (c : Cur) : (s.setCur c).jhead = s.jhead := rfl
@[simp] theorem State.setCur_hwin (s : State) (c : Cur) : (s.setCur c).hwin = s.hwin := rfl
@[simp] theorem State.setCur_ftmo (s : State) (c : Cur) : (s.setCur c).ftmo = s.ftmo := rfl
@[simp] theorem State.setCur_gtmo (s : State) (c : Cur) : (s.setCur c).gtmo = s.gtmo := rfl
@[simp] theorem State.setCur_pst (s : State) (c : Cur) : (s.setCur c).pst = s.pst := rfl
@[simp] theorem State.setCur_ports (s : State) (c : Cur) : (s.setCur c).ports = s.ports := rfl
@[simp] theorem State.setCur_down (s : State) (c : Cur) : (s.setCur c).down = s.down := rfl
@[simp] theorem State.setCur_pdec (s : State) (c : Cur) : (s.setCur c).pdec = s.pdec := rfl
@[simp] theorem State.setCur_meas (s : State) (c : Cur) : (s.setCur c).meas = s.meas := rfl
@[simp] theorem State.setCur_msix (s : State) (c : Cur) : (s.setCur c).msix = s.msix := rfl
@[simp] theorem State.setCur_msixPend (s : State) (c : Cur) : (s.setCur c).msixPend = s.msixPend := rfl
@[simp] theorem State.setCur_devId (s : State) (c : Cur) : (s.setCur c).devId = s.devId := rfl
@[simp] theorem State.setCur_flash (s : State) (c : Cur) : (s.setCur c).flash = s.flash := rfl
@[simp] theorem State.setCur_stage (s : State) (c : Cur) : (s.setCur c).stage = s.stage := rfl
@[simp] theorem State.setCur_runtime (s : State) (c : Cur) : (s.setCur c).runtime = s.runtime := rfl
@[simp] theorem State.setCur_handed (s : State) (c : Cur) : (s.setCur c).handed = s.handed := rfl
@[simp] theorem State.setCur_agenda (s : State) (c : Cur) : (s.setCur c).agenda = s.agenda := rfl
@[simp] theorem State.setCur_out (s : State) (c : Cur) : (s.setCur c).out = s.out := rfl

/-! ### `setNote` changes `note` alone -/

@[simp] theorem State.setNote_cycle (s : State) (n : Note) : (s.setNote n).cycle = s.cycle := rfl
@[simp] theorem State.setNote_choice (s : State) (n : Note) : (s.setNote n).choice = s.choice := rfl
@[simp] theorem State.setNote_turn (s : State) (n : Note) : (s.setNote n).turn = s.turn := rfl
@[simp] theorem State.setNote_cur (s : State) (n : Note) : (s.setNote n).cur = s.cur := rfl
@[simp] theorem State.setNote_cores (s : State) (n : Note) : (s.setNote n).cores = s.cores := rfl
@[simp] theorem State.setNote_outCores (s : State) (n : Note) : (s.setNote n).outCores = s.outCores := rfl
@[simp] theorem State.setNote_outChans (s : State) (n : Note) : (s.setNote n).outChans = s.outChans := rfl
@[simp] theorem State.setNote_banks (s : State) (n : Note) : (s.setNote n).banks = s.banks := rfl
@[simp] theorem State.setNote_lineage (s : State) (n : Note) : (s.setNote n).lineage = s.lineage := rfl
@[simp] theorem State.setNote_releasing (s : State) (n : Note) : (s.setNote n).releasing = s.releasing := rfl
@[simp] theorem State.setNote_movers (s : State) (n : Note) : (s.setNote n).movers = s.movers := rfl
@[simp] theorem State.setNote_asids (s : State) (n : Note) : (s.setNote n).asids = s.asids := rfl
@[simp] theorem State.setNote_keys (s : State) (n : Note) : (s.setNote n).keys = s.keys := rfl
@[simp] theorem State.setNote_hbm (s : State) (n : Note) : (s.setNote n).hbm = s.hbm := rfl
@[simp] theorem State.setNote_pool (s : State) (n : Note) : (s.setNote n).pool = s.pool := rfl
@[simp] theorem State.setNote_far (s : State) (n : Note) : (s.setNote n).far = s.far := rfl
@[simp] theorem State.setNote_poolIn (s : State) (n : Note) : (s.setNote n).poolIn = s.poolIn := rfl
@[simp] theorem State.setNote_lineKey (s : State) (n : Note) : (s.setNote n).lineKey = s.lineKey := rfl
@[simp] theorem State.setNote_poison (s : State) (n : Note) : (s.setNote n).poison = s.poison := rfl
@[simp] theorem State.setNote_stale (s : State) (n : Note) : (s.setNote n).stale = s.stale := rfl
@[simp] theorem State.setNote_beside (s : State) (n : Note) : (s.setNote n).beside = s.beside := rfl
@[simp] theorem State.setNote_migs (s : State) (n : Note) : (s.setNote n).migs = s.migs := rfl
@[simp] theorem State.setNote_smaps (s : State) (n : Note) : (s.setNote n).smaps = s.smaps := rfl
@[simp] theorem State.setNote_codes (s : State) (n : Note) : (s.setNote n).codes = s.codes := rfl
@[simp] theorem State.setNote_oldCode (s : State) (n : Note) : (s.setNote n).oldCode = s.oldCode := rfl
@[simp] theorem State.setNote_launches (s : State) (n : Note) : (s.setNote n).launches = s.launches := rfl
@[simp] theorem State.setNote_nextLaunch (s : State) (n : Note) : (s.setNote n).nextLaunch = s.nextLaunch := rfl
@[simp] theorem State.setNote_starting (s : State) (n : Note) : (s.setNote n).starting = s.starting := rfl
@[simp] theorem State.setNote_gangs (s : State) (n : Note) : (s.setNote n).gangs = s.gangs := rfl
@[simp] theorem State.setNote_xreds (s : State) (n : Note) : (s.setNote n).xreds = s.xreds := rfl
@[simp] theorem State.setNote_cmds (s : State) (n : Note) : (s.setNote n).cmds = s.cmds := rfl
@[simp] theorem State.setNote_nextCmd (s : State) (n : Note) : (s.setNote n).nextCmd = s.nextCmd := rfl
@[simp] theorem State.setNote_xtfb (s : State) (n : Note) : (s.setNote n).xtfb = s.xtfb := rfl
@[simp] theorem State.setNote_efqb (s : State) (n : Note) : (s.setNote n).efqb = s.efqb := rfl
@[simp] theorem State.setNote_efqTail (s : State) (n : Note) : (s.setNote n).efqTail = s.efqTail := rfl
@[simp] theorem State.setNote_efqHead (s : State) (n : Note) : (s.setNote n).efqHead = s.efqHead := rfl
@[simp] theorem State.setNote_erecs (s : State) (n : Note) : (s.setNote n).erecs = s.erecs := rfl
@[simp] theorem State.setNote_erecSeq (s : State) (n : Note) : (s.setNote n).erecSeq = s.erecSeq := rfl
@[simp] theorem State.setNote_jhead (s : State) (n : Note) : (s.setNote n).jhead = s.jhead := rfl
@[simp] theorem State.setNote_hwin (s : State) (n : Note) : (s.setNote n).hwin = s.hwin := rfl
@[simp] theorem State.setNote_ftmo (s : State) (n : Note) : (s.setNote n).ftmo = s.ftmo := rfl
@[simp] theorem State.setNote_gtmo (s : State) (n : Note) : (s.setNote n).gtmo = s.gtmo := rfl
@[simp] theorem State.setNote_pst (s : State) (n : Note) : (s.setNote n).pst = s.pst := rfl
@[simp] theorem State.setNote_ports (s : State) (n : Note) : (s.setNote n).ports = s.ports := rfl
@[simp] theorem State.setNote_down (s : State) (n : Note) : (s.setNote n).down = s.down := rfl
@[simp] theorem State.setNote_pdec (s : State) (n : Note) : (s.setNote n).pdec = s.pdec := rfl
@[simp] theorem State.setNote_meas (s : State) (n : Note) : (s.setNote n).meas = s.meas := rfl
@[simp] theorem State.setNote_msix (s : State) (n : Note) : (s.setNote n).msix = s.msix := rfl
@[simp] theorem State.setNote_msixPend (s : State) (n : Note) : (s.setNote n).msixPend = s.msixPend := rfl
@[simp] theorem State.setNote_devId (s : State) (n : Note) : (s.setNote n).devId = s.devId := rfl
@[simp] theorem State.setNote_flash (s : State) (n : Note) : (s.setNote n).flash = s.flash := rfl
@[simp] theorem State.setNote_stage (s : State) (n : Note) : (s.setNote n).stage = s.stage := rfl
@[simp] theorem State.setNote_runtime (s : State) (n : Note) : (s.setNote n).runtime = s.runtime := rfl
@[simp] theorem State.setNote_handed (s : State) (n : Note) : (s.setNote n).handed = s.handed := rfl
@[simp] theorem State.setNote_agenda (s : State) (n : Note) : (s.setNote n).agenda = s.agenda := rfl
@[simp] theorem State.setNote_out (s : State) (n : Note) : (s.setNote n).out = s.out := rfl

@[simp] theorem State.setCur_self (s : State) (c : Cur) : (s.setCur c).cur = c := rfl
@[simp] theorem State.setNote_self (s : State) (n : Note) : (s.setNote n).note = n := rfl

/-! ### `Core.place` -/

@[simp] theorem Core.place_slots (k : Core) (sl : Nat) (t : Strand) : (k.place sl t).slots = Tab.put k.slots sl t := rfl
@[simp] theorem Core.place_pol (k : Core) (sl : Nat) (t : Strand) : (k.place sl t).pol = k.pol := rfl
@[simp] theorem Core.place_age (k : Core) (sl : Nat) (t : Strand) : (k.place sl t).age = k.age := rfl
@[simp] theorem Core.place_rr (k : Core) (sl : Nat) (t : Strand) : (k.place sl t).rr = k.rr := rfl
@[simp] theorem Core.place_greedy (k : Core) (sl : Nat) (t : Strand) : (k.place sl t).greedy = k.greedy := rfl
@[simp] theorem Core.place_yielding (k : Core) (sl : Nat) (t : Strand) : (k.place sl t).yielding = k.yielding := rfl
@[simp] theorem Core.place_holder (k : Core) (sl : Nat) (t : Strand) : (k.place sl t).holder = k.holder := rfl
@[simp] theorem Core.place_width (k : Core) (sl : Nat) (t : Strand) : (k.place sl t).width = k.width := rfl
@[simp] theorem Core.place_laneQ (k : Core) (sl : Nat) (t : Strand) : (k.place sl t).laneQ = k.laneQ := rfl
@[simp] theorem Core.place_v (k : Core) (sl : Nat) (t : Strand) : (k.place sl t).v = k.v := rfl
@[simp] theorem Core.place_q (k : Core) (sl : Nat) (t : Strand) : (k.place sl t).q = k.q := rfl
@[simp] theorem Core.place_tiles (k : Core) (sl : Nat) (t : Strand) : (k.place sl t).tiles = k.tiles := rfl
@[simp] theorem Core.place_latch (k : Core) (sl : Nat) (t : Strand) : (k.place sl t).latch = k.latch := rfl
@[simp] theorem Core.place_latching (k : Core) (sl : Nat) (t : Strand) : (k.place sl t).latching = k.latching := rfl
@[simp] theorem Core.place_pwr (k : Core) (sl : Nat) (t : Strand) : (k.place sl t).pwr = k.pwr := rfl
@[simp] theorem Core.place_mvl (k : Core) (sl : Nat) (t : Strand) : (k.place sl t).mvl = k.mvl := rfl
@[simp] theorem Core.place_limit (k : Core) (sl : Nat) (t : Strand) : (k.place sl t).limit = k.limit := rfl
@[simp] theorem Core.place_lmap (k : Core) (sl : Nat) (t : Strand) : (k.place sl t).lmap = k.lmap := rfl
@[simp] theorem Core.place_dmode (k : Core) (sl : Nat) (t : Strand) : (k.place sl t).dmode = k.dmode := rfl
@[simp] theorem Core.place_unchk (k : Core) (sl : Nat) (t : Strand) : (k.place sl t).unchk = k.unchk := rfl
@[simp] theorem Core.place_voted (k : Core) (sl : Nat) (t : Strand) : (k.place sl t).voted = k.voted := rfl
@[simp] theorem Core.place_expsplit (k : Core) (sl : Nat) (t : Strand) : (k.place sl t).expsplit = k.expsplit := rfl
@[simp] theorem Core.place_otau (k : Core) (sl : Nat) (t : Strand) : (k.place sl t).otau = k.otau := rfl
@[simp] theorem Core.place_ofloor (k : Core) (sl : Nat) (t : Strand) : (k.place sl t).ofloor = k.ofloor := rfl
@[simp] theorem Core.place_odepth (k : Core) (sl : Nat) (t : Strand) : (k.place sl t).odepth = k.odepth := rfl
@[simp] theorem Core.place_xvec (k : Core) (sl : Nat) (t : Strand) : (k.place sl t).xvec = k.xvec := rfl
@[simp] theorem Core.place_ctrs (k : Core) (sl : Nat) (t : Strand) : (k.place sl t).ctrs = k.ctrs := rfl
@[simp] theorem Core.place_owner (k : Core) (sl : Nat) (t : Strand) : (k.place sl t).owner = k.owner := rfl
@[simp] theorem Core.place_scrub (k : Core) (sl : Nat) (t : Strand) : (k.place sl t).scrub = k.scrub := rfl

/-! ### `Strand.setR` -/

@[simp] theorem Strand.setR_lvl (t : Strand) (r : Scalars) : (t.setR r).lvl = t.lvl := rfl
@[simp] theorem Strand.setR_asid (t : Strand) (r : Scalars) : (t.setR r).asid = t.asid := rfl
@[simp] theorem Strand.setR_pc (t : Strand) (r : Scalars) : (t.setR r).pc = t.pc := rfl
@[simp] theorem Strand.setR_r (t : Strand) (r : Scalars) : (t.setR r).r = r := rfl
@[simp] theorem Strand.setR_h (t : Strand) (r : Scalars) : (t.setR r).h = t.h := rfl
@[simp] theorem Strand.setR_fmt (t : Strand) (r : Scalars) : (t.setR r).fmt = t.fmt := rfl
@[simp] theorem Strand.setR_td (t : Strand) (r : Scalars) : (t.setR r).td = t.td := rfl
@[simp] theorem Strand.setR_ntd (t : Strand) (r : Scalars) : (t.setR r).ntd = t.ntd := rfl
@[simp] theorem Strand.setR_tl (t : Strand) (r : Scalars) : (t.setR r).tl = t.tl := rfl
@[simp] theorem Strand.setR_links (t : Strand) (r : Scalars) : (t.setR r).links = t.links := rfl
@[simp] theorem Strand.setR_wait (t : Strand) (r : Scalars) : (t.setR r).wait = t.wait := rfl
@[simp] theorem Strand.setR_startStamp (t : Strand) (r : Scalars) : (t.setR r).startStamp = t.startStamp := rfl
@[simp] theorem Strand.setR_lastReady (t : Strand) (r : Scalars) : (t.setR r).lastReady = t.lastReady := rfl
@[simp] theorem Strand.setR_lastIssue (t : Strand) (r : Scalars) : (t.setR r).lastIssue = t.lastIssue := rfl
@[simp] theorem Strand.setR_landing (t : Strand) (r : Scalars) : (t.setR r).landing = t.landing := rfl
@[simp] theorem Strand.setR_xfer (t : Strand) (r : Scalars) : (t.setR r).xfer = t.xfer := rfl
@[simp] theorem Strand.setR_halting (t : Strand) (r : Scalars) : (t.setR r).halting = t.halting := rfl
@[simp] theorem Strand.setR_stopped (t : Strand) (r : Scalars) : (t.setR r).stopped = t.stopped := rfl
@[simp] theorem Strand.setR_pend (t : Strand) (r : Scalars) : (t.setR r).pend = t.pend := rfl
@[simp] theorem Strand.setR_delivering (t : Strand) (r : Scalars) : (t.setR r).delivering = t.delivering := rfl
@[simp] theorem Strand.setR_xcause (t : Strand) (r : Scalars) : (t.setR r).xcause = t.xcause := rfl
@[simp] theorem Strand.setR_xel (t : Strand) (r : Scalars) : (t.setR r).xel = t.xel := rfl
@[simp] theorem Strand.setR_xpc (t : Strand) (r : Scalars) : (t.setR r).xpc = t.xpc := rfl
@[simp] theorem Strand.setR_xaddr (t : Strand) (r : Scalars) : (t.setR r).xaddr = t.xaddr := rfl
@[simp] theorem Strand.setR_xinfo (t : Strand) (r : Scalars) : (t.setR r).xinfo = t.xinfo := rfl
@[simp] theorem Strand.setR_xtf (t : Strand) (r : Scalars) : (t.setR r).xtf = t.xtf := rfl
@[simp] theorem Strand.setR_xdepth (t : Strand) (r : Scalars) : (t.setR r).xdepth = t.xdepth := rfl
@[simp] theorem Strand.setR_work (t : Strand) (r : Scalars) : (t.setR r).work = t.work := rfl
@[simp] theorem Strand.setR_flight (t : Strand) (r : Scalars) : (t.setR r).flight = t.flight := rfl
@[simp] theorem Strand.setR_monitor (t : Strand) (r : Scalars) : (t.setR r).monitor = t.monitor := rfl
@[simp] theorem Strand.setR_vec (t : Strand) (r : Scalars) : (t.setR r).vec = t.vec := rfl
@[simp] theorem Strand.setR_lost (t : Strand) (r : Scalars) : (t.setR r).lost = t.lost := rfl
@[simp] theorem Strand.setR_kept (t : Strand) (r : Scalars) : (t.setR r).kept = t.kept := rfl

/-! ### `Strand.begin` -/

@[simp] theorem Strand.begin_lvl (t : Strand) (c : Convoy) : (t.begin c).lvl = t.lvl := rfl
@[simp] theorem Strand.begin_asid (t : Strand) (c : Convoy) : (t.begin c).asid = t.asid := rfl
@[simp] theorem Strand.begin_pc (t : Strand) (c : Convoy) : (t.begin c).pc = t.pc := rfl
@[simp] theorem Strand.begin_r (t : Strand) (c : Convoy) : (t.begin c).r = t.r := rfl
@[simp] theorem Strand.begin_h (t : Strand) (c : Convoy) : (t.begin c).h = t.h := rfl
@[simp] theorem Strand.begin_fmt (t : Strand) (c : Convoy) : (t.begin c).fmt = t.fmt := rfl
@[simp] theorem Strand.begin_td (t : Strand) (c : Convoy) : (t.begin c).td = t.td := rfl
@[simp] theorem Strand.begin_ntd (t : Strand) (c : Convoy) : (t.begin c).ntd = t.ntd := rfl
@[simp] theorem Strand.begin_tl (t : Strand) (c : Convoy) : (t.begin c).tl = t.tl := rfl
@[simp] theorem Strand.begin_links (t : Strand) (c : Convoy) : (t.begin c).links = t.links := rfl
@[simp] theorem Strand.begin_wait (t : Strand) (c : Convoy) : (t.begin c).wait = 0 := rfl
@[simp] theorem Strand.begin_startStamp (t : Strand) (c : Convoy) : (t.begin c).startStamp = t.startStamp := rfl
@[simp] theorem Strand.begin_lastReady (t : Strand) (c : Convoy) : (t.begin c).lastReady = t.lastReady := rfl
@[simp] theorem Strand.begin_lastIssue (t : Strand) (c : Convoy) : (t.begin c).lastIssue = t.lastIssue := rfl
@[simp] theorem Strand.begin_landing (t : Strand) (c : Convoy) : (t.begin c).landing = false := rfl
@[simp] theorem Strand.begin_xfer (t : Strand) (c : Convoy) : (t.begin c).xfer = t.xfer := rfl
@[simp] theorem Strand.begin_halting (t : Strand) (c : Convoy) : (t.begin c).halting = t.halting := rfl
@[simp] theorem Strand.begin_stopped (t : Strand) (c : Convoy) : (t.begin c).stopped = t.stopped := rfl
@[simp] theorem Strand.begin_pend (t : Strand) (c : Convoy) : (t.begin c).pend = t.pend := rfl
@[simp] theorem Strand.begin_delivering (t : Strand) (c : Convoy) : (t.begin c).delivering = t.delivering := rfl
@[simp] theorem Strand.begin_xcause (t : Strand) (c : Convoy) : (t.begin c).xcause = t.xcause := rfl
@[simp] theorem Strand.begin_xel (t : Strand) (c : Convoy) : (t.begin c).xel = t.xel := rfl
@[simp] theorem Strand.begin_xpc (t : Strand) (c : Convoy) : (t.begin c).xpc = t.xpc := rfl
@[simp] theorem Strand.begin_xaddr (t : Strand) (c : Convoy) : (t.begin c).xaddr = t.xaddr := rfl
@[simp] theorem Strand.begin_xinfo (t : Strand) (c : Convoy) : (t.begin c).xinfo = t.xinfo := rfl
@[simp] theorem Strand.begin_xtf (t : Strand) (c : Convoy) : (t.begin c).xtf = t.xtf := rfl
@[simp] theorem Strand.begin_xdepth (t : Strand) (c : Convoy) : (t.begin c).xdepth = t.xdepth := rfl
@[simp] theorem Strand.begin_work (t : Strand) (c : Convoy) : (t.begin c).work = t.work := rfl
@[simp] theorem Strand.begin_flight (t : Strand) (c : Convoy) : (t.begin c).flight = t.flight ++ [c] := rfl
@[simp] theorem Strand.begin_monitor (t : Strand) (c : Convoy) : (t.begin c).monitor = t.monitor := rfl
@[simp] theorem Strand.begin_vec (t : Strand) (c : Convoy) : (t.begin c).vec = t.vec := rfl
@[simp] theorem Strand.begin_lost (t : Strand) (c : Convoy) : (t.begin c).lost = t.lost := rfl
@[simp] theorem Strand.begin_kept (t : Strand) (c : Convoy) : (t.begin c).kept = t.kept := rfl

/-! ### `Strand.issuedAt` -/

@[simp] theorem Strand.issuedAt_lvl (t : Strand) (pc : Word) (n : Nat) : (t.issuedAt pc n).lvl = t.lvl := rfl
@[simp] theorem Strand.issuedAt_asid (t : Strand) (pc : Word) (n : Nat) : (t.issuedAt pc n).asid = t.asid := rfl
@[simp] theorem Strand.issuedAt_pc (t : Strand) (pc : Word) (n : Nat) : (t.issuedAt pc n).pc = pc := rfl
@[simp] theorem Strand.issuedAt_r (t : Strand) (pc : Word) (n : Nat) : (t.issuedAt pc n).r = t.r := rfl
@[simp] theorem Strand.issuedAt_h (t : Strand) (pc : Word) (n : Nat) : (t.issuedAt pc n).h = t.h := rfl
@[simp] theorem Strand.issuedAt_fmt (t : Strand) (pc : Word) (n : Nat) : (t.issuedAt pc n).fmt = t.fmt := rfl
@[simp] theorem Strand.issuedAt_td (t : Strand) (pc : Word) (n : Nat) : (t.issuedAt pc n).td = t.td := rfl
@[simp] theorem Strand.issuedAt_ntd (t : Strand) (pc : Word) (n : Nat) : (t.issuedAt pc n).ntd = t.ntd := rfl
@[simp] theorem Strand.issuedAt_tl (t : Strand) (pc : Word) (n : Nat) : (t.issuedAt pc n).tl = t.tl := rfl
@[simp] theorem Strand.issuedAt_links (t : Strand) (pc : Word) (n : Nat) : (t.issuedAt pc n).links = t.links := rfl
@[simp] theorem Strand.issuedAt_wait (t : Strand) (pc : Word) (n : Nat) : (t.issuedAt pc n).wait = t.wait := rfl
@[simp] theorem Strand.issuedAt_startStamp (t : Strand) (pc : Word) (n : Nat) : (t.issuedAt pc n).startStamp = t.startStamp := rfl
@[simp] theorem Strand.issuedAt_lastReady (t : Strand) (pc : Word) (n : Nat) : (t.issuedAt pc n).lastReady = t.lastReady := rfl
@[simp] theorem Strand.issuedAt_lastIssue (t : Strand) (pc : Word) (n : Nat) : (t.issuedAt pc n).lastIssue = n := rfl
@[simp] theorem Strand.issuedAt_landing (t : Strand) (pc : Word) (n : Nat) : (t.issuedAt pc n).landing = t.landing := rfl
@[simp] theorem Strand.issuedAt_xfer (t : Strand) (pc : Word) (n : Nat) : (t.issuedAt pc n).xfer = t.xfer := rfl
@[simp] theorem Strand.issuedAt_halting (t : Strand) (pc : Word) (n : Nat) : (t.issuedAt pc n).halting = t.halting := rfl
@[simp] theorem Strand.issuedAt_stopped (t : Strand) (pc : Word) (n : Nat) : (t.issuedAt pc n).stopped = t.stopped := rfl
@[simp] theorem Strand.issuedAt_pend (t : Strand) (pc : Word) (n : Nat) : (t.issuedAt pc n).pend = t.pend := rfl
@[simp] theorem Strand.issuedAt_delivering (t : Strand) (pc : Word) (n : Nat) : (t.issuedAt pc n).delivering = t.delivering := rfl
@[simp] theorem Strand.issuedAt_xcause (t : Strand) (pc : Word) (n : Nat) : (t.issuedAt pc n).xcause = t.xcause := rfl
@[simp] theorem Strand.issuedAt_xel (t : Strand) (pc : Word) (n : Nat) : (t.issuedAt pc n).xel = t.xel := rfl
@[simp] theorem Strand.issuedAt_xpc (t : Strand) (pc : Word) (n : Nat) : (t.issuedAt pc n).xpc = t.xpc := rfl
@[simp] theorem Strand.issuedAt_xaddr (t : Strand) (pc : Word) (n : Nat) : (t.issuedAt pc n).xaddr = t.xaddr := rfl
@[simp] theorem Strand.issuedAt_xinfo (t : Strand) (pc : Word) (n : Nat) : (t.issuedAt pc n).xinfo = t.xinfo := rfl
@[simp] theorem Strand.issuedAt_xtf (t : Strand) (pc : Word) (n : Nat) : (t.issuedAt pc n).xtf = t.xtf := rfl
@[simp] theorem Strand.issuedAt_xdepth (t : Strand) (pc : Word) (n : Nat) : (t.issuedAt pc n).xdepth = t.xdepth := rfl
@[simp] theorem Strand.issuedAt_work (t : Strand) (pc : Word) (n : Nat) : (t.issuedAt pc n).work = t.work := rfl
@[simp] theorem Strand.issuedAt_flight (t : Strand) (pc : Word) (n : Nat) : (t.issuedAt pc n).flight = t.flight := rfl
@[simp] theorem Strand.issuedAt_monitor (t : Strand) (pc : Word) (n : Nat) : (t.issuedAt pc n).monitor = t.monitor := rfl
@[simp] theorem Strand.issuedAt_vec (t : Strand) (pc : Word) (n : Nat) : (t.issuedAt pc n).vec = t.vec := rfl
@[simp] theorem Strand.issuedAt_lost (t : Strand) (pc : Word) (n : Nat) : (t.issuedAt pc n).lost = t.lost := rfl
@[simp] theorem Strand.issuedAt_kept (t : Strand) (pc : Word) (n : Nat) : (t.issuedAt pc n).kept = t.kept := rfl

/-! ### `Strand.pass` -/

@[simp] theorem Strand.pass_lvl (t : Strand)  : (t.pass).lvl = t.lvl := rfl
@[simp] theorem Strand.pass_asid (t : Strand)  : (t.pass).asid = t.asid := rfl
@[simp] theorem Strand.pass_pc (t : Strand)  : (t.pass).pc = t.pc := rfl
@[simp] theorem Strand.pass_r (t : Strand)  : (t.pass).r = t.r := rfl
@[simp] theorem Strand.pass_h (t : Strand)  : (t.pass).h = t.h := rfl
@[simp] theorem Strand.pass_fmt (t : Strand)  : (t.pass).fmt = t.fmt := rfl
@[simp] theorem Strand.pass_td (t : Strand)  : (t.pass).td = t.td := rfl
@[simp] theorem Strand.pass_ntd (t : Strand)  : (t.pass).ntd = t.ntd := rfl
@[simp] theorem Strand.pass_tl (t : Strand)  : (t.pass).tl = t.tl := rfl
@[simp] theorem Strand.pass_links (t : Strand)  : (t.pass).links = t.links := rfl
@[simp] theorem Strand.pass_wait (t : Strand)  : (t.pass).wait = t.wait := rfl
@[simp] theorem Strand.pass_startStamp (t : Strand)  : (t.pass).startStamp = t.startStamp := rfl
@[simp] theorem Strand.pass_lastReady (t : Strand)  : (t.pass).lastReady = t.lastReady := rfl
@[simp] theorem Strand.pass_lastIssue (t : Strand)  : (t.pass).lastIssue = t.lastIssue := rfl
@[simp] theorem Strand.pass_landing (t : Strand)  : (t.pass).landing = t.landing := rfl
@[simp] theorem Strand.pass_xfer (t : Strand)  : (t.pass).xfer = t.xfer := rfl
@[simp] theorem Strand.pass_halting (t : Strand)  : (t.pass).halting = t.halting := rfl
@[simp] theorem Strand.pass_stopped (t : Strand)  : (t.pass).stopped = t.stopped := rfl
@[simp] theorem Strand.pass_pend (t : Strand)  : (t.pass).pend = t.pend := rfl
@[simp] theorem Strand.pass_delivering (t : Strand)  : (t.pass).delivering = t.delivering := rfl
@[simp] theorem Strand.pass_xcause (t : Strand)  : (t.pass).xcause = t.xcause := rfl
@[simp] theorem Strand.pass_xel (t : Strand)  : (t.pass).xel = t.xel := rfl
@[simp] theorem Strand.pass_xpc (t : Strand)  : (t.pass).xpc = t.xpc := rfl
@[simp] theorem Strand.pass_xaddr (t : Strand)  : (t.pass).xaddr = t.xaddr := rfl
@[simp] theorem Strand.pass_xinfo (t : Strand)  : (t.pass).xinfo = t.xinfo := rfl
@[simp] theorem Strand.pass_xtf (t : Strand)  : (t.pass).xtf = t.xtf := rfl
@[simp] theorem Strand.pass_xdepth (t : Strand)  : (t.pass).xdepth = t.xdepth := rfl
@[simp] theorem Strand.pass_work (t : Strand)  : (t.pass).work = t.work := rfl
@[simp] theorem Strand.pass_flight (t : Strand)  : (t.pass).flight = t.flight.tail := rfl
@[simp] theorem Strand.pass_monitor (t : Strand)  : (t.pass).monitor = t.monitor := rfl
@[simp] theorem Strand.pass_vec (t : Strand)  : (t.pass).vec = t.vec := rfl
@[simp] theorem Strand.pass_lost (t : Strand)  : (t.pass).lost = t.lost := rfl
@[simp] theorem Strand.pass_kept (t : Strand)  : (t.pass).kept = t.kept := rfl

/-! ### `Strand.passed` -/

@[simp] theorem Strand.passed_lvl (t : Strand) (pc : Word) (n : Nat) : (t.passed pc n).lvl = t.lvl := rfl
@[simp] theorem Strand.passed_asid (t : Strand) (pc : Word) (n : Nat) : (t.passed pc n).asid = t.asid := rfl
@[simp] theorem Strand.passed_pc (t : Strand) (pc : Word) (n : Nat) : (t.passed pc n).pc = pc := rfl
@[simp] theorem Strand.passed_r (t : Strand) (pc : Word) (n : Nat) : (t.passed pc n).r = t.r := rfl
@[simp] theorem Strand.passed_h (t : Strand) (pc : Word) (n : Nat) : (t.passed pc n).h = t.h := rfl
@[simp] theorem Strand.passed_fmt (t : Strand) (pc : Word) (n : Nat) : (t.passed pc n).fmt = t.fmt := rfl
@[simp] theorem Strand.passed_td (t : Strand) (pc : Word) (n : Nat) : (t.passed pc n).td = t.td := rfl
@[simp] theorem Strand.passed_ntd (t : Strand) (pc : Word) (n : Nat) : (t.passed pc n).ntd = t.ntd := rfl
@[simp] theorem Strand.passed_tl (t : Strand) (pc : Word) (n : Nat) : (t.passed pc n).tl = t.tl := rfl
@[simp] theorem Strand.passed_links (t : Strand) (pc : Word) (n : Nat) : (t.passed pc n).links = t.links := rfl
@[simp] theorem Strand.passed_wait (t : Strand) (pc : Word) (n : Nat) : (t.passed pc n).wait = 0 := rfl
@[simp] theorem Strand.passed_startStamp (t : Strand) (pc : Word) (n : Nat) : (t.passed pc n).startStamp = t.startStamp := rfl
@[simp] theorem Strand.passed_lastReady (t : Strand) (pc : Word) (n : Nat) : (t.passed pc n).lastReady = t.lastReady := rfl
@[simp] theorem Strand.passed_lastIssue (t : Strand) (pc : Word) (n : Nat) : (t.passed pc n).lastIssue = n := rfl
@[simp] theorem Strand.passed_landing (t : Strand) (pc : Word) (n : Nat) : (t.passed pc n).landing = false := rfl
@[simp] theorem Strand.passed_xfer (t : Strand) (pc : Word) (n : Nat) : (t.passed pc n).xfer = t.xfer := rfl
@[simp] theorem Strand.passed_halting (t : Strand) (pc : Word) (n : Nat) : (t.passed pc n).halting = t.halting := rfl
@[simp] theorem Strand.passed_stopped (t : Strand) (pc : Word) (n : Nat) : (t.passed pc n).stopped = t.stopped := rfl
@[simp] theorem Strand.passed_pend (t : Strand) (pc : Word) (n : Nat) : (t.passed pc n).pend = t.pend := rfl
@[simp] theorem Strand.passed_delivering (t : Strand) (pc : Word) (n : Nat) : (t.passed pc n).delivering = t.delivering := rfl
@[simp] theorem Strand.passed_xcause (t : Strand) (pc : Word) (n : Nat) : (t.passed pc n).xcause = t.xcause := rfl
@[simp] theorem Strand.passed_xel (t : Strand) (pc : Word) (n : Nat) : (t.passed pc n).xel = t.xel := rfl
@[simp] theorem Strand.passed_xpc (t : Strand) (pc : Word) (n : Nat) : (t.passed pc n).xpc = t.xpc := rfl
@[simp] theorem Strand.passed_xaddr (t : Strand) (pc : Word) (n : Nat) : (t.passed pc n).xaddr = t.xaddr := rfl
@[simp] theorem Strand.passed_xinfo (t : Strand) (pc : Word) (n : Nat) : (t.passed pc n).xinfo = t.xinfo := rfl
@[simp] theorem Strand.passed_xtf (t : Strand) (pc : Word) (n : Nat) : (t.passed pc n).xtf = t.xtf := rfl
@[simp] theorem Strand.passed_xdepth (t : Strand) (pc : Word) (n : Nat) : (t.passed pc n).xdepth = t.xdepth := rfl
@[simp] theorem Strand.passed_work (t : Strand) (pc : Word) (n : Nat) : (t.passed pc n).work = t.work := rfl
@[simp] theorem Strand.passed_flight (t : Strand) (pc : Word) (n : Nat) : (t.passed pc n).flight = [] := rfl
@[simp] theorem Strand.passed_monitor (t : Strand) (pc : Word) (n : Nat) : (t.passed pc n).monitor = t.monitor := rfl
@[simp] theorem Strand.passed_vec (t : Strand) (pc : Word) (n : Nat) : (t.passed pc n).vec = t.vec := rfl
@[simp] theorem Strand.passed_lost (t : Strand) (pc : Word) (n : Nat) : (t.passed pc n).lost = t.lost := rfl
@[simp] theorem Strand.passed_kept (t : Strand) (pc : Word) (n : Nat) : (t.passed pc n).kept = t.kept := rfl

/-! ### Cores and strands -/

/-- A core that holds a strand is not a core at its start. -/
theorem Core.ne_start {k : Core} (h : k.slots ≠ []) : k ≠ Core.start := fun e => h (e ▸ rfl)

theorem Core.place_ne (k : Core) (sl : Nat) (t : Strand) : k.place sl t ≠ Core.start := Core.ne_start (Tab.put_ne_nil _ _ _)

@[simp] theorem Core.place_place (k : Core) (sl : Nat) (t u : Strand) : (k.place sl t).place sl u = k.place sl u := by
  simp [Core.place]

theorem State.core_setCore (s : State) (c c' : Nat) {k : Core} (h : k ≠ Core.start) :
    (s.setCore c k).core c' = if c' = c then k else s.core c' := by
  simp only [State.core, State.setCore, Tab.get_set_of_ne c c' h]

theorem State.core_setCore_self (s : State) (c : Nat) {k : Core} (h : k ≠ Core.start) : (s.setCore c k).core c = k := by
  simp [State.core_setCore s c c h]

theorem State.setCore_setCore (s : State) (c : Nat) {k k' : Core} (h : k ≠ Core.start) (h' : k' ≠ Core.start) :
    (s.setCore c k).setCore c k' = s.setCore c k' := by
  simp [State.setCore, Tab.set_of_ne _ _ h, Tab.set_of_ne _ _ h']

/-- The core that a strand was put into. -/
@[simp] theorem State.core_setStrand_self (s : State) (c sl : Nat) (t : Strand) :
    (s.setStrand c sl t).core c = (s.core c).place sl t :=
  State.core_setCore_self s c (Core.place_ne _ _ _)

theorem State.core_setStrand_ne (s : State) {c c' : Nat} (sl : Nat) (t : Strand) (h : c' ≠ c) :
    (s.setStrand c sl t).core c' = s.core c' := by
  simp [State.setStrand, State.core_setCore s c c' (Core.place_ne (s.core c) sl t), h]

/-- The strand that was put into a slot. -/
@[simp] theorem State.strandAt_setStrand_self (s : State) (c sl : Nat) (t : Strand) :
    (s.setStrand c sl t).strandAt c sl = some t := by
  simp [State.strandAt]

theorem State.strandAt_setStrand (s : State) (c sl c' sl' : Nat) (t : Strand) :
    (s.setStrand c sl t).strandAt c' sl' = if c' = c ∧ sl' = sl then some t else s.strandAt c' sl' := by
  by_cases h : c' = c
  · subst h; simp [State.strandAt, Tab.find_put]
  · simp [State.strandAt, State.core_setStrand_ne s sl t h, h]

/-- A strand put into a slot twice: the second stands. -/
@[simp] theorem State.setStrand_setStrand (s : State) (c sl : Nat) (t u : Strand) :
    (s.setStrand c sl t).setStrand c sl u = s.setStrand c sl u := by
  show State.setCore _ _ _ = State.setCore _ _ _
  rw [State.core_setStrand_self, Core.place_place]
  exact State.setCore_setCore _ _ (Core.place_ne _ _ _) (Core.place_ne _ _ _)

/-- A core put back whole after a strand was put into it. -/
theorem State.setStrand_setCore (s : State) (c sl : Nat) (t : Strand) {k : Core} (h : k ≠ Core.start) :
    (s.setStrand c sl t).setCore c k = s.setCore c k := State.setCore_setCore _ _ (Core.place_ne _ _ _) h

/-- The acting strand after it has been put back. -/
@[simp] theorem State.me_setMe (s : State) (t : Strand) : (s.setMe t).me = t := by
  simp [State.me, State.setMe]

@[simp] theorem State.setMe_setMe (s : State) (t u : Strand) : (s.setMe t).setMe u = s.setMe u := by
  simp [State.setMe]

@[simp] theorem State.strandAt_setMe (s : State) (t : Strand) :
    (s.setMe t).strandAt s.cur.core s.cur.slot = some t := by
  simp [State.setMe]

theorem State.me_of_strandAt {s : State} {t : Strand} (h : s.strandAt s.cur.core s.cur.slot = some t) : s.me = t := by
  simp [State.me, h]

theorem State.strandAt_me {s : State} (h : (s.strandAt s.cur.core s.cur.slot).isSome = true) :
    s.strandAt s.cur.core s.cur.slot = some s.me := by
  obtain ⟨t, ht⟩ := Option.isSome_iff_exists.1 h
  simp [State.me, ht]

@[simp] theorem State.curCore_setMe (s : State) (t : Strand) :
    (s.setMe t).curCore = s.curCore.place s.cur.slot t := by
  simp [State.curCore, State.setMe]

@[simp] theorem State.me_setR (s : State) (r : Scalars) : (s.setR r).me = s.me.setR r := by simp [State.setR]

@[simp] theorem State.setR_setR (s : State) (r u : Scalars) : (s.setR r).setR u = s.setR u := by
  simp [State.setR, Strand.setR]

@[simp] theorem State.me_setVal (s : State) (x : BitVec 6) (v : Word) :
    (s.setVal x v).me = s.me.setR (s.me.r.put x.toNat v) := by simp [State.setVal]

/-! ### `cur` and `note` beside the rest -/

@[simp] theorem State.setCur_core (s : State) (c : Cur) (i : Nat) : (s.setCur c).core i = s.core i := rfl
@[simp] theorem State.setCur_strandAt (s : State) (c : Cur) (i j : Nat) : (s.setCur c).strandAt i j = s.strandAt i j := rfl
@[simp] theorem State.setCur_setCur (s : State) (c d : Cur) : (s.setCur c).setCur d = s.setCur d := rfl
@[simp] theorem State.setCur_setStrand (s : State) (c : Cur) (i j : Nat) (t : Strand) :
    (s.setCur c).setStrand i j t = (s.setStrand i j t).setCur c := rfl
@[simp] theorem State.setCur_setCore (s : State) (c : Cur) (i : Nat) (k : Core) :
    (s.setCur c).setCore i k = (s.setCore i k).setCur c := rfl
@[simp] theorem State.setNote_setCur (s : State) (c : Cur) (n : Note) : (s.setNote n).setCur c = (s.setCur c).setNote n := rfl
@[simp] theorem State.setNote_core (s : State) (n : Note) (i : Nat) : (s.setNote n).core i = s.core i := rfl
@[simp] theorem State.setNote_strandAt (s : State) (n : Note) (i j : Nat) : (s.setNote n).strandAt i j = s.strandAt i j := rfl
@[simp] theorem State.setNote_me (s : State) (n : Note) : (s.setNote n).me = s.me := rfl
@[simp] theorem State.setNote_curCore (s : State) (n : Note) : (s.setNote n).curCore = s.curCore := rfl
@[simp] theorem State.setNote_setNote (s : State) (n m : Note) : (s.setNote n).setNote m = s.setNote m := rfl
@[simp] theorem State.setNote_setStrand (s : State) (n : Note) (i j : Nat) (t : Strand) :
    (s.setNote n).setStrand i j t = (s.setStrand i j t).setNote n := rfl
@[simp] theorem State.setNote_setMe (s : State) (n : Note) (t : Strand) :
    (s.setNote n).setMe t = (s.setMe t).setNote n := rfl
@[simp] theorem State.setNote_setCore (s : State) (n : Note) (i : Nat) (k : Core) :
    (s.setNote n).setCore i k = (s.setCore i k).setNote n := rfl

/-! ### Scalar registers -/

/-- g0 reads zero (R100). -/
@[simp] theorem Scalars.get_g0 (r : Scalars) : r.get 32 = 0 := by simp [Scalars.get]

/-- A write to g0 is discarded (R100). -/
@[simp] theorem Scalars.put_g0 (r : Scalars) (v : Word) : r.put 32 v = r := by simp [Scalars.put]

end Sys2Proof.Machine
end

