-- ==== Sys2Proof/Laws/Memory.lean ====
section
/-!
SUPPORT. Laws of memory: its canonical form, that reset has it and that every operation over memory keeps it, and what a
table of bytes reads as after a run of bytes is written.
-/

namespace Sys2Proof.Machine

/-! ### Runs of bytes -/

theorem Tab.rising_iff_pairwise {α : Type} (t : Tab α) :
    Tab.rising t none = true ↔ t.Pairwise fun p q => p.1 < q.1 := by
  induction t with
  | nil => simp [Tab.rising]
  | cons p t ih =>
    obtain ⟨k, v⟩ := p
    simp only [Tab.rising, Bool.true_and, List.pairwise_cons]
    constructor
    · intro h
      exact ⟨fun q hq => Tab.rising_lt h hq, ih.1 (Tab.rising_none h)⟩
    · rintro ⟨h, hp⟩
      have := ih.2 hp
      cases t with
      | nil => rfl
      | cons q t =>
        simp only [Tab.rising, Bool.and_eq_true, decide_eq_true_eq, Bool.true_and] at this ⊢
        exact ⟨h q List.mem_cons_self, this⟩

theorem Tab.rising_filter {α : Type} {t : Tab α} (f : Nat × α → Bool) (h : Tab.rising t none = true) :
    Tab.rising (t.filter f) none = true := by
  rw [Tab.rising_iff_pairwise] at h ⊢
  exact h.filter f

theorem Tab.rising_map {α β : Type} {t : Tab α} (f : Nat × α → β) (h : Tab.rising t none = true) :
    Tab.rising (t.map fun p => (p.1, f p)) none = true := by
  rw [Tab.rising_iff_pairwise] at h ⊢
  exact List.pairwise_map.2 h

theorem keyed_pairwise (base : Nat) (bs : List Byte) :
    (bs.mapIdx fun i b => (base + i, b)).Pairwise fun p q => p.1 < q.1 := by
  rw [List.pairwise_iff_getElem]
  intro i j hi hj hij
  simp only [List.getElem_mapIdx]
  omega

theorem mem_keyed {base : Nat} {bs : List Byte} {p : Nat × Byte} (h : p ∈ bs.mapIdx fun i b => (base + i, b)) :
    base ≤ p.1 ∧ p.1 < base + bs.length := by
  obtain ⟨i, hi, rfl⟩ := List.mem_mapIdx.1 h
  simp only
  omega

/-- A run of bytes keeps the canonical form. -/
theorem wf_putBytes {t : Tab Byte} (base : Nat) (bs : List Byte) (h : Tab.wf memDefault t = true) :
    Tab.wf memDefault (putBytes t base bs) = true := by
  rw [Tab.wf_iff, Tab.rising_iff_pairwise] at h ⊢
  obtain ⟨hp, hd⟩ := h
  unfold putBytes
  constructor
  · rw [List.pairwise_append, List.pairwise_append]
    refine ⟨⟨hp.filter _, (keyed_pairwise base bs).filter _, ?_⟩, hp.filter _, ?_⟩
    · intro a ha b hb
      have h1 := (List.mem_filter.1 ha).2
      have h2 := mem_keyed (List.mem_filter.1 hb).1
      simp only [decide_eq_true_eq] at h1
      omega
    · intro a ha b hb
      have h2 := (List.mem_filter.1 hb).2
      simp only [decide_eq_true_eq] at h2
      rcases List.mem_append.1 ha with ha | ha
      · have h1 := (List.mem_filter.1 ha).2
        simp only [decide_eq_true_eq] at h1
        omega
      · have h1 := mem_keyed (List.mem_filter.1 ha).1
        omega
  · intro p hp
    rcases List.mem_append.1 hp with hp | hp
    · rcases List.mem_append.1 hp with hp | hp
      · exact hd p (List.mem_filter.1 hp).1
      · simpa using (List.mem_filter.1 hp).2
    · exact hd p (List.mem_filter.1 hp).1

theorem Tab.find_append {α : Type} (a b : Tab α) (n : Nat) : Tab.find (a ++ b) n = (Tab.find a n).or (Tab.find b n) := by
  induction a with
  | nil => rfl
  | cons p a ih =>
    obtain ⟨k, v⟩ := p
    simp only [List.cons_append, Tab.find_cons, ih]
    split <;> rfl

theorem Tab.find_filter_key {α : Type} (f : Nat → Bool) (t : Tab α) (n : Nat) :
    Tab.find (t.filter fun e => f e.1) n = if f n then Tab.find t n else none := by
  induction t with
  | nil => simp
  | cons p t ih =>
    obtain ⟨k, v⟩ := p
    by_cases hk : f k = true
    · rw [List.filter_cons_of_pos (by simpa using hk), Tab.find_cons, Tab.find_cons, ih]
      by_cases h : n = k
      · subst h; simp [hk]
      · simp [h]
    · rw [List.filter_cons_of_neg (by simpa using hk), ih, Tab.find_cons]
      by_cases h : n = k
      · subst h; simp [hk]
      · simp [h]

theorem find_keyed (base : Nat) (bs : List Byte) (n : Nat) :
    Tab.find ((bs.mapIdx fun i b => (base + i, b)).filter fun e => e.2 ≠ memDefault) n =
      if base ≤ n ∧ n < base + bs.length ∧ bs.getD (n - base) 0 ≠ memDefault then some (bs.getD (n - base) 0) else none := by
  induction bs generalizing base with
  | nil =>
    have : ¬ (base ≤ n ∧ n < base + ([] : List Byte).length ∧ ([] : List Byte).getD (n - base) 0 ≠ memDefault) := by
      rintro ⟨h1, h2, -⟩
      simp only [List.length_nil, Nat.add_zero] at h2
      omega
    rw [if_neg this]
    rfl
  | cons b bs ih =>
    have hm : ((b :: bs).mapIdx fun i b => (base + i, b)) = (base, b) :: (bs.mapIdx fun i b => (base + 1 + i, b)) := by
      simp only [List.mapIdx_cons, Nat.add_zero, List.cons.injEq, true_and]
      congr 1
      funext i x
      simp only [Prod.mk.injEq, and_true]
      omega
    rw [hm]
    by_cases hn : n = base
    · subst hn
      by_cases hb : b = memDefault
      · rw [List.filter_cons_of_neg (by simp [hb]), ih]
        simp [hb]
      · rw [List.filter_cons_of_pos (by simp [hb]), Tab.find_cons]
        simp [hb]
    · have hs : ∀ l : List (Nat × Byte), Tab.find (List.filter (fun e => decide (e.2 ≠ memDefault)) ((base, b) :: l)) n =
          Tab.find (List.filter (fun e => decide (e.2 ≠ memDefault)) l) n := by
        intro l
        by_cases hb : b = memDefault
        · rw [List.filter_cons_of_neg (by simp [hb])]
        · rw [List.filter_cons_of_pos (by simp [hb]), Tab.find_cons, if_neg hn]
      rw [hs, ih]
      by_cases h : base + 1 ≤ n
      · have e : n - base = (n - (base + 1)) + 1 := by omega
        have hl : (n < base + 1 + bs.length) ↔ (n < base + (b :: bs).length) := by simp; omega
        simp only [e, List.getD_cons_succ, hl, show base ≤ n by omega, h]
      · have : ¬ base ≤ n := by omega
        simp [h, this]

/-- Reading after a run of bytes is written. -/
theorem get_putBytes (t : Tab Byte) (base : Nat) (bs : List Byte) (n : Nat) :
    Tab.get memDefault (putBytes t base bs) n =
      if base ≤ n ∧ n < base + bs.length then bs.getD (n - base) 0 else Tab.get memDefault t n := by
  unfold Tab.get putBytes
  rw [Tab.find_append, Tab.find_append, find_keyed, Tab.find_filter_key (fun k => decide (k < base)),
    Tab.find_filter_key (fun k => decide (base + bs.length ≤ k))]
  by_cases h1 : n < base
  · have : ¬ base ≤ n := by omega
    have h3 : ¬ base + bs.length ≤ n := by omega
    simp [h1, this, h3]
  · by_cases h2 : n < base + bs.length
    · have h4 : base ≤ n := by omega
      have h3 : ¬ base + bs.length ≤ n := by omega
      by_cases hb : bs.getD (n - base) 0 = memDefault
      · simp only [h1, h2, h4, h3, hb, decide_false, Bool.false_eq_true, if_false, ne_eq, not_true_eq_false, and_false,
          Option.or_none, Option.getD_none, and_self, if_true]
      · rw [List.getD_eq_getElem?_getD] at hb
        have hb' : ¬ bs[n - base]?.getD 0#8 = memDefault := hb
        simp [h1, h2, h4, h3, hb']
    · have h3 : base + bs.length ≤ n := by omega
      simp [h1, h2, h3]

/-! ### The canonical form of memory -/

theorem Memory.wf_iff (s : State) : Memory.wf s = true ↔
    Tab.wf memDefault s.hbm = true ∧ Tab.wf memDefault s.pool = true ∧ Tab.rising s.banks none = true ∧
      Tab.rising s.far none = true ∧ (∀ b ∈ s.banks, Tab.wf memDefault b.2.data = true) ∧
      ∀ l ∈ s.far, Tab.wf memDefault l.2.bytes = true := by
  simp [Memory.wf, and_assoc]

theorem Memory.wf_reset : Memory.wf State.reset = true := by decide

/-- The canonical form rests on the bytes alone. -/
theorem Memory.wf_of_eq {s t : State} (h : Memory.wf s = true) (h1 : t.hbm = s.hbm) (h2 : t.pool = s.pool)
    (h3 : t.banks = s.banks) (h4 : t.far = s.far) : Memory.wf t = true := by
  rw [Memory.wf_iff] at h ⊢
  rw [h1, h2, h3, h4]
  exact h

theorem Tab.find_mem {α : Type} {t : Tab α} {n : Nat} {x : α} (h : Tab.find t n = some x) : (n, x) ∈ t := by
  induction t with
  | nil => cases h
  | cons p t ih =>
    obtain ⟨k, v⟩ := p
    rw [Tab.find_cons] at h
    split at h
    · simp_all
    · exact List.mem_cons_of_mem _ (ih h)

theorem wf_bank_data {s : State} (h : Memory.wf s = true) (b : Nat) : Tab.wf memDefault (s.bank b).data = true := by
  have hb := ((Memory.wf_iff s).1 h).2.2.2.2.1
  unfold State.bank Tab.get
  cases hf : Tab.find s.banks b with
  | none => rfl
  | some k => exact hb _ (Tab.find_mem hf)

/-- A bank changed keeps the form, if its data has it. -/
theorem Memory.wf_setBank {s : State} (h : Memory.wf s = true) (b : Nat) (k : Bank) (hk : Tab.wf memDefault k.data = true) :
    Memory.wf (s.setBank b k) = true := by
  obtain ⟨h1, h2, h3, h4, h5, h6⟩ := (Memory.wf_iff s).1 h
  refine (Memory.wf_iff _).2 ⟨h1, h2, ?_, h4, ?_, h6⟩
  · show Tab.rising (Tab.set Bank.start s.banks b k) none = true
    unfold Tab.set
    split
    · exact Tab.rising_del b h3
    · exact Tab.rising_put b k h3
  · intro p hp
    replace hp : p ∈ Tab.set Bank.start s.banks b k := hp
    unfold Tab.set at hp
    split at hp
    · exact h5 p (Tab.mem_del hp)
    · rcases Tab.mem_put hp with rfl | hp
      · exact hk
      · exact h5 p hp

/-- A far line put keeps the form, if its bytes have it. -/
theorem Memory.wf_putFar {s : State} (h : Memory.wf s = true) (k : Nat) (l : FarLine) (hl : Tab.wf memDefault l.bytes = true) :
    Memory.wf { s with far := Tab.put s.far k l } = true := by
  obtain ⟨h1, h2, h3, h4, h5, h6⟩ := (Memory.wf_iff s).1 h
  refine (Memory.wf_iff _).2 ⟨h1, h2, h3, Tab.rising_put k l h4, h5, ?_⟩
  intro p hp
  rcases Tab.mem_put hp with rfl | hp
  · exact hl
  · exact h6 p hp

theorem Memory.wf_hbm {s : State} (h : Memory.wf s = true) (t : Tab Byte) (ht : Tab.wf memDefault t = true) :
    Memory.wf { s with hbm := t } = true := by
  obtain ⟨-, h2, h3, h4, h5, h6⟩ := (Memory.wf_iff s).1 h
  exact (Memory.wf_iff _).2 ⟨ht, h2, h3, h4, h5, h6⟩

theorem Memory.wf_pool {s : State} (h : Memory.wf s = true) (t : Tab Byte) (ht : Tab.wf memDefault t = true) :
    Memory.wf { s with pool := t } = true := by
  obtain ⟨h1, -, h3, h4, h5, h6⟩ := (Memory.wf_iff s).1 h
  exact (Memory.wf_iff _).2 ⟨h1, ht, h3, h4, h5, h6⟩

theorem Memory.wf_farLine {s : State} (h : Memory.wf s = true) (a k : Nat) :
    Tab.wf memDefault (s.farLine a k).bytes = true := by
  unfold State.farLine
  cases hf : Tab.find s.far (farKey a k) with
  | none => exact wf_putBytes _ _ rfl
  | some l => exact ((Memory.wf_iff s).1 h).2.2.2.2.2 _ (Tab.find_mem hf)

theorem Memory.wf_rekey {s : State} (h : Memory.wf s = true) (base line slot tweak : Nat) (near : Bool) :
    Memory.wf (s.rekey base line slot tweak near) = true := by
  obtain ⟨h1, h2, -⟩ := (Memory.wf_iff s).1 h
  unfold State.rekey
  split
  · exact Memory.wf_of_eq h rfl rfl rfl rfl
  · cases near
    · exact Memory.wf_of_eq (Memory.wf_pool h _ (wf_putBytes base _ h2)) rfl rfl rfl rfl
    · exact Memory.wf_of_eq (Memory.wf_hbm h _ (wf_putBytes base _ h1)) rfl rfl rfl rfl

theorem Memory.wf_seeWrite {s : State} (h : Memory.wf s = true) (p : Place) : Memory.wf (s.seeWrite p) = true := by
  unfold State.seeWrite
  split
  · exact h
  · exact Memory.wf_of_eq h rfl rfl rfl rfl

theorem Memory.wf_keepStale {s : State} (h : Memory.wf s = true) (a n : Nat) (t : Tab Byte) :
    Memory.wf (s.keepStale a n t) = true :=
  Memory.wf_of_eq h rfl rfl rfl rfl

theorem Memory.wf_keepCode {s : State} (h : Memory.wf s = true) (p : Place) (n : Nat) : Memory.wf (s.keepCode p n) = true := by
  unfold State.keepCode
  split
  · exact h
  · split
    · exact h
    · split
      · exact Memory.wf_of_eq h rfl rfl rfl rfl
      · exact h

theorem Memory.wf_mendLine {s : State} (h : Memory.wf s = true) (p : Place) (n : Nat) : Memory.wf (s.mendLine p n) = true := by
  unfold State.mendLine
  split
  · exact h
  · split
    · exact Memory.wf_of_eq h rfl rfl rfl rfl
    · exact h

/-- Bytes written at a place keep the form. -/
theorem Memory.wf_writeBytes {s : State} (h : Memory.wf s = true) (p : Place) (bs : List Byte) :
    Memory.wf (s.writeBytes p bs) = true := by
  have h0 := Memory.wf_mendLine (Memory.wf_seeWrite (Memory.wf_keepCode h p bs.length) p) p bs.length
  unfold State.writeBytes
  generalize ((s.keepCode p bs.length).seeWrite p).mendLine p bs.length = u at h0 ⊢
  cases p with
  | near a k x =>
    have h1 := Memory.wf_rekey h0 (a / 64 * 64) (a / 64) k (x / 64) true
    have ht := wf_putBytes a bs ((Memory.wf_iff _).1 h1).1
    refine Memory.wf_hbm ?_ _ ht
    split
    · exact Memory.wf_keepStale h1 a bs.length _
    · exact h1
  | far a k => exact Memory.wf_putFar h0 _ _ (wf_putBytes (a % 64) bs (Memory.wf_farLine h0 a k))
  | scratch b o => exact Memory.wf_setBank h0 b _ (wf_putBytes o bs (wf_bank_data h0 b))
  | peer d i va => exact Memory.wf_of_eq h0 rfl rfl rfl rfl
  | devreg a b => exact h0

/-- One element written keeps the form. -/
theorem Memory.wf_storeAt {s : State} (h : Memory.wf s = true) (p : Place) (w v : Nat) : Memory.wf (s.storeAt p w v) = true :=
  Memory.wf_writeBytes h p _

theorem Memory.wf_noteRead {s : State} (h : Memory.wf s = true) (p : Place) : Memory.wf (s.noteRead p) = true := by
  cases p with
  | far a k => exact Memory.wf_putFar h _ _ (Memory.wf_farLine h a k)
  | near _ _ _ => exact h
  | peer _ _ _ => exact h
  | scratch _ _ => exact h
  | devreg _ _ => exact h

theorem Memory.wf_writeBackFar {s : State} (h : Memory.wf s = true) (key : Nat) : Memory.wf (s.writeBackFar key) = true := by
  unfold State.writeBackFar
  cases hf : Tab.find s.far key with
  | none => exact h
  | some l =>
    simp only
    split
    · exact h
    · have h1 := Memory.wf_rekey h (s.poolAt (key / 512 * 64)) (2 ^ 60 + s.poolAt (key / 512 * 64) / 64) l.slot (key / 512) false
      have hl := ((Memory.wf_iff s).1 h).2.2.2.2.2 _ (Tab.find_mem hf)
      generalize s.rekey (s.poolAt (key / 512 * 64)) (2 ^ 60 + s.poolAt (key / 512 * 64) / 64) l.slot (key / 512) false = u at h1 ⊢
      obtain ⟨h1, hp, h3, h4, h5, h6⟩ := (Memory.wf_iff u).1 h1
      refine (Memory.wf_iff _).2 ⟨h1, ?_, h3, Tab.rising_put _ _ h4, h5, fun p hp => ?_⟩
      rotate_left
      · rcases Tab.mem_put hp with rfl | hp
        · exact hl
        · exact h6 p hp
      simp only
      generalize u.pool = t at hp ⊢
      generalize List.range 64 = is
      induction is generalizing t with
      | nil => exact hp
      | cons i is ih =>
        rw [List.foldl_cons]
        refine ih _ ?_
        split
        · exact Tab.wf_set _ _ hp
        · exact hp

/-- A fold of operations that keep the form keeps it. -/
theorem Memory.wf_foldl {β : Type} (f : State → β → State) (hf : ∀ s x, Memory.wf s = true → Memory.wf (f s x) = true) (l : List β)
    {s : State} (h : Memory.wf s = true) : Memory.wf (l.foldl f s) = true := by
  induction l generalizing s with
  | nil => exact h
  | cons x l ih => exact ih (hf s x h)

theorem Memory.wf_writeBackAll {s : State} (h : Memory.wf s = true) : Memory.wf s.writeBackAll = true :=
  Memory.wf_foldl _ (fun _ _ h => Memory.wf_writeBackFar h _) _ h

theorem Memory.wf_far_filter {s : State} (h : Memory.wf s = true) (f : Nat × FarLine → Bool) :
    Memory.wf { s with far := s.far.filter f } = true := by
  obtain ⟨h1, h2, h3, h4, h5, h6⟩ := (Memory.wf_iff s).1 h
  exact (Memory.wf_iff _).2 ⟨h1, h2, h3, Tab.rising_filter f h4, h5, fun l hl => h6 l (List.mem_filter.1 hl).1⟩

theorem Memory.wf_discardClean {s : State} (h : Memory.wf s = true) : Memory.wf s.discardClean = true := Memory.wf_far_filter h _

theorem Memory.wf_evictFar {s : State} (h : Memory.wf s = true) (key : Nat) : Memory.wf (s.evictFar key) = true := by
  obtain ⟨h1, h2, h3, h4, h5, h6⟩ := (Memory.wf_iff _).1 (Memory.wf_writeBackFar h key)
  exact (Memory.wf_iff _).2 ⟨h1, h2, h3, Tab.rising_del key h4, h5, fun l hl => h6 l (Tab.mem_del hl)⟩

theorem Memory.wf_zeroed {s : State} (h : Memory.wf s = true) (b : Nat) : Memory.wf (s.zeroed b) = true :=
  Memory.wf_of_eq (Memory.wf_setBank h b _ rfl) rfl rfl rfl rfl

theorem Memory.wf_nearWrite {s : State} (h : Memory.wf s = true) (slot addr : Nat) (bs : List Byte) :
    Memory.wf (s.nearWrite slot addr bs) = true :=
  Memory.wf_foldl _ (fun _ _ h => Memory.wf_writeBytes h _ _) _ h

theorem Memory.wf_putJournal {s : State} (h : Memory.wf s = true) (m : Bool) (j : Nat) (ds : List Nat) :
    Memory.wf (s.putJournal m j ds) = true :=
  Memory.wf_hbm h _ (wf_putBytes _ _ ((Memory.wf_iff s).1 h).1)

theorem Memory.wf_leaveBanks {s : State} (h : Memory.wf s = true) (core slot : Nat) : Memory.wf (s.leaveBanks core slot) = true := by
  unfold State.leaveBanks
  have h1 : Memory.wf (if s.movers.isEmpty then s else
      { s with movers := s.movers.filter fun m => !(m.2.2.2.1 == core && m.2.2.2.2 == slot) }) = true := by
    split
    · exact h
    · exact Memory.wf_of_eq h rfl rfl rfl rfl
  revert h1
  generalize (if s.movers.isEmpty then s else
      { s with movers := s.movers.filter fun m => !(m.2.2.2.1 == core && m.2.2.2.2 == slot) }) = t
  intro h1
  simp only
  split
  · obtain ⟨h1, h2, h3, h4, h5, h6⟩ := (Memory.wf_iff t).1 h1
    refine (Memory.wf_iff _).2 ⟨h1, h2, Tab.rising_map _ h3, h4, ?_, h6⟩
    intro p hp
    obtain ⟨q, hq, rfl⟩ := List.mem_map.1 hp
    exact h5 q hq
  · exact h1

end Sys2Proof.Machine
end

