-- ==== Sys2Proof/Laws/PerInstr.lean ====
section
/-!
SUPPORT. Per instruction: the encoding tables read the right way round. `Wf.Statement i` says that a well-formed `i` is at
most one of a full-form word and a compact slot, and that the instruction which the opcode map reads from its own fields
(or from its own slot) is `i` again, every operand included. It is the half of the round trip that lies in the tables.
-/

namespace Sys2Proof.Laws.Wf

open Sys2Proof

/-- What the tables say of one instruction. -/
def Statement (i : Instr) : Prop :=
  wellFormed i = true →
    (∀ f, fieldsOf i = some f → slotOf i = none ∧ ∃ rm, Rm.ofCode f.rm = some rm ∧ rawInstr f rm = .ok i) ∧
      ∀ s, slotOf i = some s → rawSlot s = i

theorem full {i : Instr} {f : Full} (hf : fieldsOf i = some f) (hs : slotOf i = none)
    (h : ∃ rm, Rm.ofCode f.rm = some rm ∧ rawInstr f rm = .ok i) : Statement i := by
  refine fun _ => ⟨fun g hg => ⟨hs, ?_⟩, fun s h => nomatch hs.symm.trans h⟩
  rw [← Option.some.inj (hf.symm.trans hg)]
  exact h

theorem slot {i : Instr} {s : BitVec 30} (hf : fieldsOf i = none) (hs : slotOf i = some s) (h : rawSlot s = i) :
    Statement i := by
  refine fun _ => ⟨fun g hg => (nomatch hf.symm.trans hg), fun t ht => ?_⟩
  rw [← Option.some.inj (hs.symm.trans ht)]
  exact h

theorem event {i : Instr} (hf : fieldsOf i = none) (hs : slotOf i = none) : Statement i :=
  fun _ => ⟨fun _ hg => (nomatch hf.symm.trans hg), fun _ ht => nomatch hs.symm.trans ht⟩

/-! ### Fields side by side -/

theorem ext_hi {m n : Nat} (a : BitVec m) (b : BitVec n) (s l : Nat) (h : n ≤ s) :
    (a ++ b).extractLsb' s l = a.extractLsb' (s - n) l := by
  apply BitVec.eq_of_getLsbD_eq
  intro i hi
  simp only [BitVec.getLsbD_extractLsb', BitVec.getLsbD_append, hi, decide_true, Bool.true_and]
  rw [if_neg (by omega)]
  congr 1
  omega

theorem ext_lo {m n : Nat} (a : BitVec m) (b : BitVec n) (s l : Nat) (h : s + l ≤ n) :
    (a ++ b).extractLsb' s l = b.extractLsb' s l := by
  apply BitVec.eq_of_getLsbD_eq
  intro i hi
  simp only [BitVec.getLsbD_extractLsb', BitVec.getLsbD_append, hi, decide_true, Bool.true_and]
  rw [if_pos (by omega)]

theorem ext_all {n : Nat} (b : BitVec n) : b.extractLsb' 0 n = b := by simp

theorem ofCode_code (t : Ty) : Ty.ofCode t.code = t := by cases t <;> rfl

theorem rm_ofCode (r : Rm) : Rm.ofCode r.code = some r := by cases r <;> rfl

theorem slot_op (c : BitVec 5) (d : BitVec 5) (o : BitVec 20) : (c ++ d ++ o : BitVec 30).extractLsb' 25 5 = c :=
  (ext_hi _ _ _ _ (by decide)).trans <| (ext_hi _ _ _ _ (by decide)).trans <| ext_all _

theorem slot_d (c : BitVec 5) (d : BitVec 5) (o : BitVec 20) : (c ++ d ++ o : BitVec 30).extractLsb' 20 5 = d :=
  (ext_hi _ _ _ _ (by decide)).trans <| (ext_lo _ _ _ _ (by decide)).trans <| ext_all _

theorem slot_o (c : BitVec 5) (d : BitVec 5) (o : BitVec 20) : (c ++ d ++ o : BitVec 30).extractLsb' 0 20 = o :=
  (ext_lo _ _ _ _ (by decide)).trans <| ext_all _

theorem carg (o : CArg) : CArg.ofBits o.bits = o := by
  cases o with
  | reg a =>
    have h1 : (0#1 ++ a ++ 0#14 : BitVec 20).extractLsb' 19 1 = 0#1 :=
      (ext_hi _ _ _ _ (by decide)).trans <| (ext_hi _ _ _ _ (by decide)).trans <| ext_all _
    have h2 : (0#1 ++ a ++ 0#14 : BitVec 20).extractLsb' 14 5 = a :=
      (ext_hi _ _ _ _ (by decide)).trans <| (ext_lo _ _ _ _ (by decide)).trans <| ext_all _
    show (if BitVec.extractLsb' 19 1 (0#1 ++ a ++ 0#14 : BitVec 20) == 0#1 then
      CArg.reg (BitVec.extractLsb' 14 5 (0#1 ++ a ++ 0#14 : BitVec 20)) else CArg.imm _) = CArg.reg a
    rw [h2, if_pos (by rw [h1]; rfl)]
  | imm v =>
    have h1 : (1#1 ++ v : BitVec 20).extractLsb' 19 1 = 1#1 := (ext_hi _ _ _ _ (by decide)).trans <| ext_all _
    have h2 : (1#1 ++ v : BitVec 20).extractLsb' 0 19 = v := (ext_lo _ _ _ _ (by decide)).trans <| ext_all _
    show (if BitVec.extractLsb' 19 1 (1#1 ++ v : BitVec 20) == 0#1 then CArg.reg _ else
      CArg.imm (BitVec.extractLsb' 0 19 (1#1 ++ v : BitVec 20))) = CArg.imm v
    rw [h2, if_neg (by rw [h1]; decide)]

theorem field_6_14_at_0 (x0 : BitVec 6) (x1 : BitVec 14) :
    (x0 ++ x1 : BitVec 20).extractLsb' 14 6 = x0 :=
  (ext_hi _ _ _ _ (by decide)).trans <| (ext_all _)

theorem field_16_1_3_at_1 (x0 : BitVec 16) (x1 : BitVec 1) (x2 : BitVec 3) :
    (x0 ++ x1 ++ x2 : BitVec 20).extractLsb' 3 1 = x1 :=
  (ext_hi _ _ _ _ (by decide)).trans <| (ext_lo _ _ _ _ (by decide)).trans <| (ext_all _)

theorem field_16_1_3_at_2 (x0 : BitVec 16) (x1 : BitVec 1) (x2 : BitVec 3) :
    (x0 ++ x1 ++ x2 : BitVec 20).extractLsb' 0 3 = x2 :=
  (ext_lo _ _ _ _ (by decide)).trans <| (ext_all _)

theorem field_17_3_at_1 (x0 : BitVec 17) (x1 : BitVec 3) :
    (x0 ++ x1 : BitVec 20).extractLsb' 0 3 = x1 :=
  (ext_lo _ _ _ _ (by decide)).trans <| (ext_all _)

theorem field_6_10_4_at_0 (x0 : BitVec 6) (x1 : BitVec 10) (x2 : BitVec 4) :
    (x0 ++ x1 ++ x2 : BitVec 20).extractLsb' 14 6 = x0 :=
  (ext_hi _ _ _ _ (by decide)).trans <| (ext_hi _ _ _ _ (by decide)).trans <| (ext_all _)

theorem field_6_10_4_at_2 (x0 : BitVec 6) (x1 : BitVec 10) (x2 : BitVec 4) :
    (x0 ++ x1 ++ x2 : BitVec 20).extractLsb' 0 4 = x2 :=
  (ext_lo _ _ _ _ (by decide)).trans <| (ext_all _)

theorem field_16_4_at_1 (x0 : BitVec 16) (x1 : BitVec 4) :
    (x0 ++ x1 : BitVec 20).extractLsb' 0 4 = x1 :=
  (ext_lo _ _ _ _ (by decide)).trans <| (ext_all _)

theorem field_19_1_at_1 (x0 : BitVec 19) (x1 : BitVec 1) :
    (x0 ++ x1 : BitVec 20).extractLsb' 0 1 = x1 :=
  (ext_lo _ _ _ _ (by decide)).trans <| (ext_all _)

theorem field_18_2_at_1 (x0 : BitVec 18) (x1 : BitVec 2) :
    (x0 ++ x1 : BitVec 20).extractLsb' 0 2 = x1 :=
  (ext_lo _ _ _ _ (by decide)).trans <| (ext_all _)

theorem field_6_7_1_6_at_2 (x0 : BitVec 6) (x1 : BitVec 7) (x2 : BitVec 1) (x3 : BitVec 6) :
    (x0 ++ x1 ++ x2 ++ x3 : BitVec 20).extractLsb' 6 1 = x2 :=
  (ext_hi _ _ _ _ (by decide)).trans <| (ext_lo _ _ _ _ (by decide)).trans <| (ext_all _)

theorem field_6_7_1_6_at_0 (x0 : BitVec 6) (x1 : BitVec 7) (x2 : BitVec 1) (x3 : BitVec 6) :
    (x0 ++ x1 ++ x2 ++ x3 : BitVec 20).extractLsb' 14 6 = x0 :=
  (ext_hi _ _ _ _ (by decide)).trans <| (ext_hi _ _ _ _ (by decide)).trans <| (ext_hi _ _ _ _ (by decide)).trans <| (ext_all _)

theorem field_6_7_1_6_at_3 (x0 : BitVec 6) (x1 : BitVec 7) (x2 : BitVec 1) (x3 : BitVec 6) :
    (x0 ++ x1 ++ x2 ++ x3 : BitVec 20).extractLsb' 0 6 = x3 :=
  (ext_lo _ _ _ _ (by decide)).trans <| (ext_all _)

theorem field_14_6_at_1 (x0 : BitVec 14) (x1 : BitVec 6) :
    (x0 ++ x1 : BitVec 20).extractLsb' 0 6 = x1 :=
  (ext_lo _ _ _ _ (by decide)).trans <| (ext_all _)

theorem field_8_12_at_1 (x0 : BitVec 8) (x1 : BitVec 12) :
    (x0 ++ x1 : BitVec 20).extractLsb' 0 12 = x1 :=
  (ext_lo _ _ _ _ (by decide)).trans <| (ext_all _)

theorem field_6_4_10_at_1 (x0 : BitVec 6) (x1 : BitVec 4) (x2 : BitVec 10) :
    (x0 ++ x1 ++ x2 : BitVec 20).extractLsb' 10 4 = x1 :=
  (ext_hi _ _ _ _ (by decide)).trans <| (ext_lo _ _ _ _ (by decide)).trans <| (ext_all _)

theorem field_6_4_1_9_at_1 (x0 : BitVec 6) (x1 : BitVec 4) (x2 : BitVec 1) (x3 : BitVec 9) :
    (x0 ++ x1 ++ x2 ++ x3 : BitVec 20).extractLsb' 10 4 = x1 :=
  (ext_hi _ _ _ _ (by decide)).trans <| (ext_hi _ _ _ _ (by decide)).trans <| (ext_lo _ _ _ _ (by decide)).trans <| (ext_all _)

theorem field_6_4_1_9_at_3 (x0 : BitVec 6) (x1 : BitVec 4) (x2 : BitVec 1) (x3 : BitVec 9) :
    (x0 ++ x1 ++ x2 ++ x3 : BitVec 20).extractLsb' 0 9 = x3 :=
  (ext_lo _ _ _ _ (by decide)).trans <| (ext_all _)

theorem field_6_4_1_9_at_2 (x0 : BitVec 6) (x1 : BitVec 4) (x2 : BitVec 1) (x3 : BitVec 9) :
    (x0 ++ x1 ++ x2 ++ x3 : BitVec 20).extractLsb' 9 1 = x2 :=
  (ext_hi _ _ _ _ (by decide)).trans <| (ext_lo _ _ _ _ (by decide)).trans <| (ext_all _)

theorem field_6_4_8_2_at_1 (x0 : BitVec 6) (x1 : BitVec 4) (x2 : BitVec 8) (x3 : BitVec 2) :
    (x0 ++ x1 ++ x2 ++ x3 : BitVec 20).extractLsb' 10 4 = x1 :=
  (ext_hi _ _ _ _ (by decide)).trans <| (ext_hi _ _ _ _ (by decide)).trans <| (ext_lo _ _ _ _ (by decide)).trans <| (ext_all _)

theorem field_6_4_8_2_at_3 (x0 : BitVec 6) (x1 : BitVec 4) (x2 : BitVec 8) (x3 : BitVec 2) :
    (x0 ++ x1 ++ x2 ++ x3 : BitVec 20).extractLsb' 0 2 = x3 :=
  (ext_lo _ _ _ _ (by decide)).trans <| (ext_all _)

theorem field_6_4_1_7_2_at_0 (x0 : BitVec 6) (x1 : BitVec 4) (x2 : BitVec 1) (x3 : BitVec 7) (x4 : BitVec 2) :
    (x0 ++ x1 ++ x2 ++ x3 ++ x4 : BitVec 20).extractLsb' 14 6 = x0 :=
  (ext_hi _ _ _ _ (by decide)).trans <| (ext_hi _ _ _ _ (by decide)).trans <| (ext_hi _ _ _ _ (by decide)).trans <| (ext_hi _ _ _ _ (by decide)).trans <| (ext_all _)

theorem field_6_4_1_7_2_at_1 (x0 : BitVec 6) (x1 : BitVec 4) (x2 : BitVec 1) (x3 : BitVec 7) (x4 : BitVec 2) :
    (x0 ++ x1 ++ x2 ++ x3 ++ x4 : BitVec 20).extractLsb' 10 4 = x1 :=
  (ext_hi _ _ _ _ (by decide)).trans <| (ext_hi _ _ _ _ (by decide)).trans <| (ext_hi _ _ _ _ (by decide)).trans <| (ext_lo _ _ _ _ (by decide)).trans <| (ext_all _)

theorem field_6_4_1_7_2_at_2 (x0 : BitVec 6) (x1 : BitVec 4) (x2 : BitVec 1) (x3 : BitVec 7) (x4 : BitVec 2) :
    (x0 ++ x1 ++ x2 ++ x3 ++ x4 : BitVec 20).extractLsb' 9 1 = x2 :=
  (ext_hi _ _ _ _ (by decide)).trans <| (ext_hi _ _ _ _ (by decide)).trans <| (ext_lo _ _ _ _ (by decide)).trans <| (ext_all _)

theorem field_6_4_1_7_2_at_4 (x0 : BitVec 6) (x1 : BitVec 4) (x2 : BitVec 1) (x3 : BitVec 7) (x4 : BitVec 2) :
    (x0 ++ x1 ++ x2 ++ x3 ++ x4 : BitVec 20).extractLsb' 0 2 = x4 :=
  (ext_lo _ _ _ _ (by decide)).trans <| (ext_all _)

theorem field_6_4_7_3_at_1 (x0 : BitVec 6) (x1 : BitVec 4) (x2 : BitVec 7) (x3 : BitVec 3) :
    (x0 ++ x1 ++ x2 ++ x3 : BitVec 20).extractLsb' 10 4 = x1 :=
  (ext_hi _ _ _ _ (by decide)).trans <| (ext_hi _ _ _ _ (by decide)).trans <| (ext_lo _ _ _ _ (by decide)).trans <| (ext_all _)

theorem field_6_4_7_3_at_3 (x0 : BitVec 6) (x1 : BitVec 4) (x2 : BitVec 7) (x3 : BitVec 3) :
    (x0 ++ x1 ++ x2 ++ x3 : BitVec 20).extractLsb' 0 3 = x3 :=
  (ext_lo _ _ _ _ (by decide)).trans <| (ext_all _)

theorem field_6_4_10_at_0 (x0 : BitVec 6) (x1 : BitVec 4) (x2 : BitVec 10) :
    (x0 ++ x1 ++ x2 : BitVec 20).extractLsb' 14 6 = x0 :=
  (ext_hi _ _ _ _ (by decide)).trans <| (ext_hi _ _ _ _ (by decide)).trans <| (ext_all _)

theorem field_6_4_1_6_1_2_at_4 (x0 : BitVec 6) (x1 : BitVec 4) (x2 : BitVec 1) (x3 : BitVec 6) (x4 : BitVec 1) (x5 : BitVec 2) :
    (x0 ++ x1 ++ x2 ++ x3 ++ x4 ++ x5 : BitVec 20).extractLsb' 2 1 = x4 :=
  (ext_hi _ _ _ _ (by decide)).trans <| (ext_lo _ _ _ _ (by decide)).trans <| (ext_all _)

theorem field_6_4_1_6_1_2_at_1 (x0 : BitVec 6) (x1 : BitVec 4) (x2 : BitVec 1) (x3 : BitVec 6) (x4 : BitVec 1) (x5 : BitVec 2) :
    (x0 ++ x1 ++ x2 ++ x3 ++ x4 ++ x5 : BitVec 20).extractLsb' 10 4 = x1 :=
  (ext_hi _ _ _ _ (by decide)).trans <| (ext_hi _ _ _ _ (by decide)).trans <| (ext_hi _ _ _ _ (by decide)).trans <| (ext_hi _ _ _ _ (by decide)).trans <| (ext_lo _ _ _ _ (by decide)).trans <| (ext_all _)

theorem field_6_4_1_6_1_2_at_2 (x0 : BitVec 6) (x1 : BitVec 4) (x2 : BitVec 1) (x3 : BitVec 6) (x4 : BitVec 1) (x5 : BitVec 2) :
    (x0 ++ x1 ++ x2 ++ x3 ++ x4 ++ x5 : BitVec 20).extractLsb' 9 1 = x2 :=
  (ext_hi _ _ _ _ (by decide)).trans <| (ext_hi _ _ _ _ (by decide)).trans <| (ext_hi _ _ _ _ (by decide)).trans <| (ext_lo _ _ _ _ (by decide)).trans <| (ext_all _)

theorem field_6_4_1_6_1_2_at_3 (x0 : BitVec 6) (x1 : BitVec 4) (x2 : BitVec 1) (x3 : BitVec 6) (x4 : BitVec 1) (x5 : BitVec 2) :
    (x0 ++ x1 ++ x2 ++ x3 ++ x4 ++ x5 : BitVec 20).extractLsb' 3 6 = x3 :=
  (ext_hi _ _ _ _ (by decide)).trans <| (ext_hi _ _ _ _ (by decide)).trans <| (ext_lo _ _ _ _ (by decide)).trans <| (ext_all _)

theorem field_6_4_1_6_3_at_1 (x0 : BitVec 6) (x1 : BitVec 4) (x2 : BitVec 1) (x3 : BitVec 6) (x4 : BitVec 3) :
    (x0 ++ x1 ++ x2 ++ x3 ++ x4 : BitVec 20).extractLsb' 10 4 = x1 :=
  (ext_hi _ _ _ _ (by decide)).trans <| (ext_hi _ _ _ _ (by decide)).trans <| (ext_hi _ _ _ _ (by decide)).trans <| (ext_lo _ _ _ _ (by decide)).trans <| (ext_all _)

theorem field_6_4_1_6_3_at_3 (x0 : BitVec 6) (x1 : BitVec 4) (x2 : BitVec 1) (x3 : BitVec 6) (x4 : BitVec 3) :
    (x0 ++ x1 ++ x2 ++ x3 ++ x4 : BitVec 20).extractLsb' 3 6 = x3 :=
  (ext_hi _ _ _ _ (by decide)).trans <| (ext_lo _ _ _ _ (by decide)).trans <| (ext_all _)

theorem field_6_4_1_6_3_at_2 (x0 : BitVec 6) (x1 : BitVec 4) (x2 : BitVec 1) (x3 : BitVec 6) (x4 : BitVec 3) :
    (x0 ++ x1 ++ x2 ++ x3 ++ x4 : BitVec 20).extractLsb' 9 1 = x2 :=
  (ext_hi _ _ _ _ (by decide)).trans <| (ext_hi _ _ _ _ (by decide)).trans <| (ext_lo _ _ _ _ (by decide)).trans <| (ext_all _)

theorem field_6_4_6_1_3_at_3 (x0 : BitVec 6) (x1 : BitVec 4) (x2 : BitVec 6) (x3 : BitVec 1) (x4 : BitVec 3) :
    (x0 ++ x1 ++ x2 ++ x3 ++ x4 : BitVec 20).extractLsb' 3 1 = x3 :=
  (ext_hi _ _ _ _ (by decide)).trans <| (ext_lo _ _ _ _ (by decide)).trans <| (ext_all _)

theorem field_6_4_6_1_3_at_0 (x0 : BitVec 6) (x1 : BitVec 4) (x2 : BitVec 6) (x3 : BitVec 1) (x4 : BitVec 3) :
    (x0 ++ x1 ++ x2 ++ x3 ++ x4 : BitVec 20).extractLsb' 14 6 = x0 :=
  (ext_hi _ _ _ _ (by decide)).trans <| (ext_hi _ _ _ _ (by decide)).trans <| (ext_hi _ _ _ _ (by decide)).trans <| (ext_hi _ _ _ _ (by decide)).trans <| (ext_all _)

theorem field_6_4_6_1_3_at_4 (x0 : BitVec 6) (x1 : BitVec 4) (x2 : BitVec 6) (x3 : BitVec 1) (x4 : BitVec 3) :
    (x0 ++ x1 ++ x2 ++ x3 ++ x4 : BitVec 20).extractLsb' 0 3 = x4 :=
  (ext_lo _ _ _ _ (by decide)).trans <| (ext_all _)

theorem field_18_1_1_at_1 (x0 : BitVec 18) (x1 : BitVec 1) (x2 : BitVec 1) :
    (x0 ++ x1 ++ x2 : BitVec 20).extractLsb' 1 1 = x1 :=
  (ext_hi _ _ _ _ (by decide)).trans <| (ext_lo _ _ _ _ (by decide)).trans <| (ext_all _)

theorem field_18_1_1_at_2 (x0 : BitVec 18) (x1 : BitVec 1) (x2 : BitVec 1) :
    (x0 ++ x1 ++ x2 : BitVec 20).extractLsb' 0 1 = x2 :=
  (ext_lo _ _ _ _ (by decide)).trans <| (ext_all _)

theorem field_6_4_1_1_8_at_1 (x0 : BitVec 6) (x1 : BitVec 4) (x2 : BitVec 1) (x3 : BitVec 1) (x4 : BitVec 8) :
    (x0 ++ x1 ++ x2 ++ x3 ++ x4 : BitVec 20).extractLsb' 10 4 = x1 :=
  (ext_hi _ _ _ _ (by decide)).trans <| (ext_hi _ _ _ _ (by decide)).trans <| (ext_hi _ _ _ _ (by decide)).trans <| (ext_lo _ _ _ _ (by decide)).trans <| (ext_all _)

theorem field_6_4_1_1_8_at_2 (x0 : BitVec 6) (x1 : BitVec 4) (x2 : BitVec 1) (x3 : BitVec 1) (x4 : BitVec 8) :
    (x0 ++ x1 ++ x2 ++ x3 ++ x4 : BitVec 20).extractLsb' 9 1 = x2 :=
  (ext_hi _ _ _ _ (by decide)).trans <| (ext_hi _ _ _ _ (by decide)).trans <| (ext_lo _ _ _ _ (by decide)).trans <| (ext_all _)

theorem field_6_4_1_1_8_at_3 (x0 : BitVec 6) (x1 : BitVec 4) (x2 : BitVec 1) (x3 : BitVec 1) (x4 : BitVec 8) :
    (x0 ++ x1 ++ x2 ++ x3 ++ x4 : BitVec 20).extractLsb' 8 1 = x3 :=
  (ext_hi _ _ _ _ (by decide)).trans <| (ext_lo _ _ _ _ (by decide)).trans <| (ext_all _)

theorem field_6_4_1_1_8_at_4 (x0 : BitVec 6) (x1 : BitVec 4) (x2 : BitVec 1) (x3 : BitVec 1) (x4 : BitVec 8) :
    (x0 ++ x1 ++ x2 ++ x3 ++ x4 : BitVec 20).extractLsb' 0 8 = x4 :=
  (ext_lo _ _ _ _ (by decide)).trans <| (ext_all _)

theorem field_6_4_1_1_8_at_0 (x0 : BitVec 6) (x1 : BitVec 4) (x2 : BitVec 1) (x3 : BitVec 1) (x4 : BitVec 8) :
    (x0 ++ x1 ++ x2 ++ x3 ++ x4 : BitVec 20).extractLsb' 14 6 = x0 :=
  (ext_hi _ _ _ _ (by decide)).trans <| (ext_hi _ _ _ _ (by decide)).trans <| (ext_hi _ _ _ _ (by decide)).trans <| (ext_hi _ _ _ _ (by decide)).trans <| (ext_all _)

theorem field_6_4_2_8_at_1 (x0 : BitVec 6) (x1 : BitVec 4) (x2 : BitVec 2) (x3 : BitVec 8) :
    (x0 ++ x1 ++ x2 ++ x3 : BitVec 20).extractLsb' 10 4 = x1 :=
  (ext_hi _ _ _ _ (by decide)).trans <| (ext_hi _ _ _ _ (by decide)).trans <| (ext_lo _ _ _ _ (by decide)).trans <| (ext_all _)

theorem field_6_4_2_8_at_3 (x0 : BitVec 6) (x1 : BitVec 4) (x2 : BitVec 2) (x3 : BitVec 8) :
    (x0 ++ x1 ++ x2 ++ x3 : BitVec 20).extractLsb' 0 8 = x3 :=
  (ext_lo _ _ _ _ (by decide)).trans <| (ext_all _)

theorem field_6_4_2_8_at_0 (x0 : BitVec 6) (x1 : BitVec 4) (x2 : BitVec 2) (x3 : BitVec 8) :
    (x0 ++ x1 ++ x2 ++ x3 : BitVec 20).extractLsb' 14 6 = x0 :=
  (ext_hi _ _ _ _ (by decide)).trans <| (ext_hi _ _ _ _ (by decide)).trans <| (ext_hi _ _ _ _ (by decide)).trans <| (ext_all _)

theorem field_6_4_1_2_5_2_at_1 (x0 : BitVec 6) (x1 : BitVec 4) (x2 : BitVec 1) (x3 : BitVec 2) (x4 : BitVec 5) (x5 : BitVec 2) :
    (x0 ++ x1 ++ x2 ++ x3 ++ x4 ++ x5 : BitVec 20).extractLsb' 10 4 = x1 :=
  (ext_hi _ _ _ _ (by decide)).trans <| (ext_hi _ _ _ _ (by decide)).trans <| (ext_hi _ _ _ _ (by decide)).trans <| (ext_hi _ _ _ _ (by decide)).trans <| (ext_lo _ _ _ _ (by decide)).trans <| (ext_all _)

theorem field_6_4_1_2_5_2_at_2 (x0 : BitVec 6) (x1 : BitVec 4) (x2 : BitVec 1) (x3 : BitVec 2) (x4 : BitVec 5) (x5 : BitVec 2) :
    (x0 ++ x1 ++ x2 ++ x3 ++ x4 ++ x5 : BitVec 20).extractLsb' 9 1 = x2 :=
  (ext_hi _ _ _ _ (by decide)).trans <| (ext_hi _ _ _ _ (by decide)).trans <| (ext_hi _ _ _ _ (by decide)).trans <| (ext_lo _ _ _ _ (by decide)).trans <| (ext_all _)

theorem field_6_4_1_2_5_2_at_3 (x0 : BitVec 6) (x1 : BitVec 4) (x2 : BitVec 1) (x3 : BitVec 2) (x4 : BitVec 5) (x5 : BitVec 2) :
    (x0 ++ x1 ++ x2 ++ x3 ++ x4 ++ x5 : BitVec 20).extractLsb' 7 2 = x3 :=
  (ext_hi _ _ _ _ (by decide)).trans <| (ext_hi _ _ _ _ (by decide)).trans <| (ext_lo _ _ _ _ (by decide)).trans <| (ext_all _)

theorem field_6_4_1_2_5_2_at_5 (x0 : BitVec 6) (x1 : BitVec 4) (x2 : BitVec 1) (x3 : BitVec 2) (x4 : BitVec 5) (x5 : BitVec 2) :
    (x0 ++ x1 ++ x2 ++ x3 ++ x4 ++ x5 : BitVec 20).extractLsb' 0 2 = x5 :=
  (ext_lo _ _ _ _ (by decide)).trans <| (ext_all _)

theorem field_6_4_1_2_5_2_at_0 (x0 : BitVec 6) (x1 : BitVec 4) (x2 : BitVec 1) (x3 : BitVec 2) (x4 : BitVec 5) (x5 : BitVec 2) :
    (x0 ++ x1 ++ x2 ++ x3 ++ x4 ++ x5 : BitVec 20).extractLsb' 14 6 = x0 :=
  (ext_hi _ _ _ _ (by decide)).trans <| (ext_hi _ _ _ _ (by decide)).trans <| (ext_hi _ _ _ _ (by decide)).trans <| (ext_hi _ _ _ _ (by decide)).trans <| (ext_hi _ _ _ _ (by decide)).trans <| (ext_all _)

theorem field_6_12_2_at_2 (x0 : BitVec 6) (x1 : BitVec 12) (x2 : BitVec 2) :
    (x0 ++ x1 ++ x2 : BitVec 20).extractLsb' 0 2 = x2 :=
  (ext_lo _ _ _ _ (by decide)).trans <| (ext_all _)

theorem field_6_12_2_at_0 (x0 : BitVec 6) (x1 : BitVec 12) (x2 : BitVec 2) :
    (x0 ++ x1 ++ x2 : BitVec 20).extractLsb' 14 6 = x0 :=
  (ext_hi _ _ _ _ (by decide)).trans <| (ext_hi _ _ _ _ (by decide)).trans <| (ext_all _)

theorem field_6_4_8_2_at_0 (x0 : BitVec 6) (x1 : BitVec 4) (x2 : BitVec 8) (x3 : BitVec 2) :
    (x0 ++ x1 ++ x2 ++ x3 : BitVec 20).extractLsb' 14 6 = x0 :=
  (ext_hi _ _ _ _ (by decide)).trans <| (ext_hi _ _ _ _ (by decide)).trans <| (ext_hi _ _ _ _ (by decide)).trans <| (ext_all _)

theorem field_6_4_1_2_1_2_2_2_at_0 (x0 : BitVec 6) (x1 : BitVec 4) (x2 : BitVec 1) (x3 : BitVec 2) (x4 : BitVec 1) (x5 : BitVec 2) (x6 : BitVec 2) (x7 : BitVec 2) :
    (x0 ++ x1 ++ x2 ++ x3 ++ x4 ++ x5 ++ x6 ++ x7 : BitVec 20).extractLsb' 14 6 = x0 :=
  (ext_hi _ _ _ _ (by decide)).trans <| (ext_hi _ _ _ _ (by decide)).trans <| (ext_hi _ _ _ _ (by decide)).trans <| (ext_hi _ _ _ _ (by decide)).trans <| (ext_hi _ _ _ _ (by decide)).trans <| (ext_hi _ _ _ _ (by decide)).trans <| (ext_hi _ _ _ _ (by decide)).trans <| (ext_all _)

theorem field_6_4_1_2_1_2_2_2_at_1 (x0 : BitVec 6) (x1 : BitVec 4) (x2 : BitVec 1) (x3 : BitVec 2) (x4 : BitVec 1) (x5 : BitVec 2) (x6 : BitVec 2) (x7 : BitVec 2) :
    (x0 ++ x1 ++ x2 ++ x3 ++ x4 ++ x5 ++ x6 ++ x7 : BitVec 20).extractLsb' 10 4 = x1 :=
  (ext_hi _ _ _ _ (by decide)).trans <| (ext_hi _ _ _ _ (by decide)).trans <| (ext_hi _ _ _ _ (by decide)).trans <| (ext_hi _ _ _ _ (by decide)).trans <| (ext_hi _ _ _ _ (by decide)).trans <| (ext_hi _ _ _ _ (by decide)).trans <| (ext_lo _ _ _ _ (by decide)).trans <| (ext_all _)

theorem field_6_4_1_2_1_2_2_2_at_3 (x0 : BitVec 6) (x1 : BitVec 4) (x2 : BitVec 1) (x3 : BitVec 2) (x4 : BitVec 1) (x5 : BitVec 2) (x6 : BitVec 2) (x7 : BitVec 2) :
    (x0 ++ x1 ++ x2 ++ x3 ++ x4 ++ x5 ++ x6 ++ x7 : BitVec 20).extractLsb' 7 2 = x3 :=
  (ext_hi _ _ _ _ (by decide)).trans <| (ext_hi _ _ _ _ (by decide)).trans <| (ext_hi _ _ _ _ (by decide)).trans <| (ext_hi _ _ _ _ (by decide)).trans <| (ext_lo _ _ _ _ (by decide)).trans <| (ext_all _)

theorem field_6_4_1_2_1_2_2_2_at_4 (x0 : BitVec 6) (x1 : BitVec 4) (x2 : BitVec 1) (x3 : BitVec 2) (x4 : BitVec 1) (x5 : BitVec 2) (x6 : BitVec 2) (x7 : BitVec 2) :
    (x0 ++ x1 ++ x2 ++ x3 ++ x4 ++ x5 ++ x6 ++ x7 : BitVec 20).extractLsb' 6 1 = x4 :=
  (ext_hi _ _ _ _ (by decide)).trans <| (ext_hi _ _ _ _ (by decide)).trans <| (ext_hi _ _ _ _ (by decide)).trans <| (ext_lo _ _ _ _ (by decide)).trans <| (ext_all _)

theorem field_6_4_1_2_1_2_2_2_at_5 (x0 : BitVec 6) (x1 : BitVec 4) (x2 : BitVec 1) (x3 : BitVec 2) (x4 : BitVec 1) (x5 : BitVec 2) (x6 : BitVec 2) (x7 : BitVec 2) :
    (x0 ++ x1 ++ x2 ++ x3 ++ x4 ++ x5 ++ x6 ++ x7 : BitVec 20).extractLsb' 4 2 = x5 :=
  (ext_hi _ _ _ _ (by decide)).trans <| (ext_hi _ _ _ _ (by decide)).trans <| (ext_lo _ _ _ _ (by decide)).trans <| (ext_all _)

theorem field_6_4_1_2_1_2_2_2_at_7 (x0 : BitVec 6) (x1 : BitVec 4) (x2 : BitVec 1) (x3 : BitVec 2) (x4 : BitVec 1) (x5 : BitVec 2) (x6 : BitVec 2) (x7 : BitVec 2) :
    (x0 ++ x1 ++ x2 ++ x3 ++ x4 ++ x5 ++ x6 ++ x7 : BitVec 20).extractLsb' 0 2 = x7 :=
  (ext_lo _ _ _ _ (by decide)).trans <| (ext_all _)

theorem field_6_4_5_1_4_at_3 (x0 : BitVec 6) (x1 : BitVec 4) (x2 : BitVec 5) (x3 : BitVec 1) (x4 : BitVec 4) :
    (x0 ++ x1 ++ x2 ++ x3 ++ x4 : BitVec 20).extractLsb' 4 1 = x3 :=
  (ext_hi _ _ _ _ (by decide)).trans <| (ext_lo _ _ _ _ (by decide)).trans <| (ext_all _)

theorem field_6_4_5_1_4_at_0 (x0 : BitVec 6) (x1 : BitVec 4) (x2 : BitVec 5) (x3 : BitVec 1) (x4 : BitVec 4) :
    (x0 ++ x1 ++ x2 ++ x3 ++ x4 : BitVec 20).extractLsb' 14 6 = x0 :=
  (ext_hi _ _ _ _ (by decide)).trans <| (ext_hi _ _ _ _ (by decide)).trans <| (ext_hi _ _ _ _ (by decide)).trans <| (ext_hi _ _ _ _ (by decide)).trans <| (ext_all _)

theorem field_6_4_5_1_4_at_1 (x0 : BitVec 6) (x1 : BitVec 4) (x2 : BitVec 5) (x3 : BitVec 1) (x4 : BitVec 4) :
    (x0 ++ x1 ++ x2 ++ x3 ++ x4 : BitVec 20).extractLsb' 10 4 = x1 :=
  (ext_hi _ _ _ _ (by decide)).trans <| (ext_hi _ _ _ _ (by decide)).trans <| (ext_hi _ _ _ _ (by decide)).trans <| (ext_lo _ _ _ _ (by decide)).trans <| (ext_all _)

theorem field_6_4_5_1_4_at_4 (x0 : BitVec 6) (x1 : BitVec 4) (x2 : BitVec 5) (x3 : BitVec 1) (x4 : BitVec 4) :
    (x0 ++ x1 ++ x2 ++ x3 ++ x4 : BitVec 20).extractLsb' 0 4 = x4 :=
  (ext_lo _ _ _ _ (by decide)).trans <| (ext_all _)

theorem field_9_1_1_9_at_1 (x0 : BitVec 9) (x1 : BitVec 1) (x2 : BitVec 1) (x3 : BitVec 9) :
    (x0 ++ x1 ++ x2 ++ x3 : BitVec 20).extractLsb' 10 1 = x1 :=
  (ext_hi _ _ _ _ (by decide)).trans <| (ext_hi _ _ _ _ (by decide)).trans <| (ext_lo _ _ _ _ (by decide)).trans <| (ext_all _)

theorem field_9_1_1_9_at_3 (x0 : BitVec 9) (x1 : BitVec 1) (x2 : BitVec 1) (x3 : BitVec 9) :
    (x0 ++ x1 ++ x2 ++ x3 : BitVec 20).extractLsb' 0 9 = x3 :=
  (ext_lo _ _ _ _ (by decide)).trans <| (ext_all _)

/-! ### The lemmas, one per constructor -/

theorem backingStoreSpill (core : Nat) (slot : Nat) : Statement (.backingStoreSpill core slot) := event rfl rfl

theorem backingStoreRefill (core : Nat) (slot : Nat) : Statement (.backingStoreRefill core slot) := event rfl rfl

theorem laneGrant (core : Nat) : Statement (.laneGrant core) := event rfl rfl

theorem tileFillComplete (core : Nat) (tile : Nat) : Statement (.tileFillComplete core tile) := event rfl rfl

theorem tileDrainComplete (core : Nat) (tile : Nat) : Statement (.tileDrainComplete core tile) := event rfl rfl

theorem latchCopy (core : Nat) : Statement (.latchCopy core) := event rfl rfl

theorem latchCopyComplete (core : Nat) : Statement (.latchCopyComplete core) := event rfl rfl

theorem reelStorageRelease (cluster : Nat) (root : Nat) : Statement (.reelStorageRelease cluster root) := event rfl rfl

theorem hmovDelivery (cluster : Nat) (entry : Nat) : Statement (.hmovDelivery cluster entry) := event rfl rfl

theorem bankModeSwitchComplete (cluster : Nat) (bank : Nat) : Statement (.bankModeSwitchComplete cluster bank) := event rfl rfl

theorem fifoPush (core : Nat) (slot : Nat) : Statement (.fifoPush core slot) := event rfl rfl

theorem fifoPop (core : Nat) (slot : Nat) : Statement (.fifoPop core slot) := event rfl rfl

theorem vmuLineReply (core : Nat) (slot : Nat) : Statement (.vmuLineReply core slot) := event rfl rfl

theorem peerAccessRequest (req : PeerReq) : Statement (.peerAccessRequest req) := event rfl rfl

theorem peerTimeout (core : Nat) (slot : Nat) (device : Nat) : Statement (.peerTimeout core slot device) := event rfl rfl

theorem memoryEventPerform (core : Nat) (slot : Nat) : Statement (.memoryEventPerform core slot) := event rfl rfl

theorem tcopyChunk (cmd : Nat) : Statement (.tcopyChunk cmd) := event rfl rfl

theorem engineFaultQueueWrite (cmd : Nat) : Statement (.engineFaultQueueWrite cmd) := event rfl rfl

theorem migrationLineCopy (cmd : Nat) : Statement (.migrationLineCopy cmd) := event rfl rfl

theorem slabLineCopy (cmd : Nat) : Statement (.slabLineCopy cmd) := event rfl rfl

theorem commandComplete (cmd : Nat) : Statement (.commandComplete cmd) := event rfl rfl

theorem xredContribution (core : Nat) (slot : Nat) (values : List Nat) : Statement (.xredContribution core slot values) := event rfl rfl

theorem walkerService (core : Nat) : Statement (.walkerService core) := event rfl rfl

theorem elementFire (core : Nat) (slot : Nat) : Statement (.elementFire core slot) := event rfl rfl

theorem convoyRetire (core : Nat) (slot : Nat) : Statement (.convoyRetire core slot) := event rfl rfl

theorem trapDelivery (core : Nat) (slot : Nat) : Statement (.trapDelivery core slot) := event rfl rfl

theorem mwaitWake (core : Nat) (slot : Nat) : Statement (.mwaitWake core slot) := event rfl rfl

theorem mwaitTimeout (core : Nat) (slot : Nat) : Statement (.mwaitTimeout core slot) := event rfl rfl

theorem monitorLost (core : Nat) (slot : Nat) : Statement (.monitorLost core slot) := event rfl rfl

theorem tideMarkRise (core : Nat) (slot : Nat) : Statement (.tideMarkRise core slot) := event rfl rfl

theorem barrierRelease (launchId : Nat) (level : Nat) (group : Nat) : Statement (.barrierRelease launchId level group) := event rfl rfl

theorem launchGroupStart : Statement .launchGroupStart := event rfl rfl

theorem ownerScrub (core : Nat) (owner : Nat) : Statement (.ownerScrub core owner) := event rfl rfl

theorem bankOwnerZeroing (cluster : Nat) (bank : Nat) (owner : Nat) : Statement (.bankOwnerZeroing cluster bank owner) := event rfl rfl

theorem lqageExpiry (launchId : Nat) : Statement (.lqageExpiry launchId) := event rfl rfl

theorem haltRetire (core : Nat) (slot : Nat) : Statement (.haltRetire core slot) := event rfl rfl

theorem powerLimitChange (core : Nat) (limit : Nat) : Statement (.powerLimitChange core limit) := event rfl rfl

theorem lanePowerUp (core : Nat) : Statement (.lanePowerUp core) := event rfl rfl

theorem laneRollback (core : Nat) (lane : Nat) (syndrome : Nat) : Statement (.laneRollback core lane syndrome) := event rfl rfl

theorem lmapFailMark (core : Nat) (lane : Nat) : Statement (.lmapFailMark core lane) := event rfl rfl

theorem dailiesRecheck (core : Nat) (slot : Nat) : Statement (.dailiesRecheck core slot) := event rfl rfl

theorem dailiesVote (core : Nat) (slot : Nat) (vote : Vote) : Statement (.dailiesVote core slot vote) := event rfl rfl

theorem eccCorrection (err : Ecc) : Statement (.eccCorrection err) := event rfl rfl

theorem hostWrite (bar : Nat) (offset : Nat) (data : Posted) : Statement (.hostWrite bar offset data) := event rfl rfl

theorem hostRead (bar : Nat) (offset : Nat) (len : Nat) : Statement (.hostRead bar offset len) := event rfl rfl

theorem hmsiStore (value : Nat) : Statement (.hmsiStore value) := event rfl rfl

theorem devregWrite (page : Nat) (offset : Nat) (value : Nat) : Statement (.devregWrite page offset value) := event rfl rfl

theorem japp (addr : Nat) : Statement (.japp addr) := event rfl rfl

theorem jstat (value : Nat) : Statement (.jstat value) := event rfl rfl

theorem fwreqInstallKey (addr : Nat) : Statement (.fwreqInstallKey addr) := event rfl rfl

theorem fwreqRemoveKey (addr : Nat) : Statement (.fwreqRemoveKey addr) := event rfl rfl

theorem fwreqAttestation (addr : Nat) : Statement (.fwreqAttestation addr) := event rfl rfl

theorem pdecEnable (k : Nat) (value : Nat) : Statement (.pdecEnable k value) := event rfl rfl

theorem pdecDisable (k : Nat) (value : Nat) : Statement (.pdecDisable k value) := event rfl rfl

theorem cxlPoisonReport (poolAddr : Nat) (syndrome : Nat) : Statement (.cxlPoisonReport poolAddr syndrome) := event rfl rfl

theorem flitReplay (port : Nat) (lane : Nat) : Statement (.flitReplay port lane) := event rfl rfl

theorem laneRecalibration (port : Nat) : Statement (.laneRecalibration port) := event rfl rfl

theorem portRetrain (port : Nat) : Statement (.portRetrain port) := event rfl rfl

theorem deviceDownReport (device : Nat) : Statement (.deviceDownReport device) := event rfl rfl

theorem gangPrepareAck (gseq : Nat) (member : Nat) (header : Nat) : Statement (.gangPrepareAck gseq member header) := event rfl rfl

theorem gangCommit (gseq : Nat) : Statement (.gangCommit gseq) := event rfl rfl

theorem gangCommitResend (gseq : Nat) : Statement (.gangCommitResend gseq) := event rfl rfl

theorem gangAbort (gseq : Nat) : Statement (.gangAbort gseq) := event rfl rfl

theorem gangPartRetired (gseq : Nat) (member : Nat) : Statement (.gangPartRetired gseq member) := event rfl rfl

theorem deviceReset : Statement .deviceReset := event rfl rfl

theorem powerUpStage : Statement .powerUpStage := event rfl rfl

theorem bootImageVerify (k : Nat) : Statement (.bootImageVerify k) := event rfl rfl

theorem journalRecovery : Statement .journalRecovery := event rfl rfl

theorem supervisorStart : Statement .supervisorStart := event rfl rfl

theorem unitOutOfService (isCore : Bool) (unit : Nat) : Statement (.unitOutOfService isCore unit) := event rfl rfl

theorem instructionFetch (core : Nat) (slot : Nat) : Statement (.instructionFetch core slot) := event rfl rfl

theorem illegalInstruction (core : Nat) (slot : Nat) : Statement (.illegalInstruction core slot) := event rfl rfl

theorem cacheEviction (line : Nat) : Statement (.cacheEviction line) := event rfl rfl

theorem laneRecalibrationEnd (port : Nat) (ok : Bool) : Statement (.laneRecalibrationEnd port ok) := event rfl rfl

theorem portRetrainEnd (port : Nat) : Statement (.portRetrainEnd port) := event rfl rfl

theorem gangAcknowledgement (gseq : Nat) (member : Nat) (commit : Bool) : Statement (.gangAcknowledgement gseq member commit) := event rfl rfl

theorem memberAbort (gseq : Nat) : Statement (.memberAbort gseq) := event rfl rfl

theorem b (off : BitVec 20) : Statement (.b off) := full rfl rfl ⟨_, rfl, rfl⟩

theorem beq (a : BitVec 6) (b : BitVec 6) (off : BitVec 20) : Statement (.beq a b off) := full rfl rfl ⟨_, rfl, rfl⟩

theorem bne (a : BitVec 6) (b : BitVec 6) (off : BitVec 20) : Statement (.bne a b off) := full rfl rfl ⟨_, rfl, rfl⟩

theorem blt (a : BitVec 6) (b : BitVec 6) (off : BitVec 20) : Statement (.blt a b off) := full rfl rfl ⟨_, rfl, rfl⟩

theorem bge (a : BitVec 6) (b : BitVec 6) (off : BitVec 20) : Statement (.bge a b off) := full rfl rfl ⟨_, rfl, rfl⟩

theorem bltn (a : BitVec 6) (b : BitVec 6) (off : BitVec 20) : Statement (.bltn a b off) := full rfl rfl ⟨_, rfl, rfl⟩

theorem bgen (a : BitVec 6) (b : BitVec 6) (off : BitVec 20) : Statement (.bgen a b off) := full rfl rfl ⟨_, rfl, rfl⟩

theorem bz (a : BitVec 6) (off : BitVec 20) : Statement (.bz a off) := full rfl rfl ⟨_, rfl, rfl⟩

theorem bnz (a : BitVec 6) (off : BitVec 20) : Statement (.bnz a off) := full rfl rfl ⟨_, rfl, rfl⟩

theorem jmp (a : BitVec 6) : Statement (.jmp a) := full rfl rfl ⟨_, rfl, rfl⟩

theorem calli (a : BitVec 6) : Statement (.calli a) := full rfl rfl ⟨_, rfl, rfl⟩

theorem ret : Statement .ret := full rfl rfl ⟨_, rfl, rfl⟩

theorem call (off : BitVec 20) : Statement (.call off) := full rfl rfl ⟨_, rfl, rfl⟩

theorem mwait (d : BitVec 6) (a : BitVec 6) (b : BitVec 6) (c : BitVec 6) : Statement (.mwait d a b c) :=
  full rfl rfl ⟨_, rfl, by
    show Except.ok _ = _
    rw [field_6_14_at_0]⟩

theorem halt : Statement .halt := full rfl rfl ⟨_, rfl, rfl⟩

theorem launch (d : BitVec 6) (a : BitVec 6) : Statement (.launch d a) := full rfl rfl ⟨_, rfl, rfl⟩

theorem glaunch (d : BitVec 6) (a : BitVec 6) : Statement (.glaunch d a) := full rfl rfl ⟨_, rfl, rfl⟩

theorem widGet (d : BitVec 6) : Statement (.widGet d) :=
  full rfl rfl ⟨_, rfl, by
    show (if (_ : BitVec 1) == _ then _ else _) = _
    simp⟩

theorem widGetField (d : BitVec 6) (f : BitVec 3) : Statement (.widGetField d f) :=
  full rfl rfl ⟨_, rfl, by
    show (if (_ : BitVec 1) == _ then _ else _) = _
    rw [field_16_1_3_at_1, field_16_1_3_at_2]
    simp⟩

theorem barK (k : BitVec 3) : Statement (.barK k) :=
  full rfl rfl ⟨_, rfl, by
    show Except.ok _ = _
    rw [field_17_3_at_1]⟩

theorem tmBind (a : BitVec 6) (b : BitVec 6) (c : BitVec 6) (n : BitVec 4) : Statement (.tmBind a b c n) :=
  full rfl rfl ⟨_, rfl, by
    show Except.ok _ = _
    rw [field_6_10_4_at_0, field_6_10_4_at_2]⟩

theorem tmAdv (a : BitVec 6) (b : BitVec 6) (n : BitVec 4) : Statement (.tmAdv a b n) :=
  full rfl rfl ⟨_, rfl, by
    show Except.ok _ = _
    rw [field_16_4_at_1]⟩

theorem tmRd (d : BitVec 6) (n : BitVec 4) : Statement (.tmRd d n) :=
  full rfl rfl ⟨_, rfl, by
    show Except.ok _ = _
    rw [field_16_4_at_1]⟩

theorem ldco (d : BitVec 6) (a : BitVec 6) (b : BitVec 6) : Statement (.ldco d a b) := full rfl rfl ⟨_, rfl, rfl⟩

theorem ldcoDrop (d : BitVec 6) (a : BitVec 6) : Statement (.ldcoDrop d a) := full rfl rfl ⟨_, rfl, rfl⟩

theorem trap (imm : BitVec 20) : Statement (.trap imm) := full rfl rfl ⟨_, rfl, rfl⟩

theorem sret : Statement .sret := full rfl rfl ⟨_, rfl, rfl⟩

theorem ctxSave (d : BitVec 6) (a : BitVec 6) (b : BitVec 6) : Statement (.ctxSave d a b) := full rfl rfl ⟨_, rfl, rfl⟩

theorem ctxLoad (d : BitVec 6) (a : BitVec 6) (b : BitVec 6) : Statement (.ctxLoad d a b) := full rfl rfl ⟨_, rfl, rfl⟩

theorem erecRd (d : BitVec 6) (a : BitVec 6) (k : BitVec 3) : Statement (.erecRd d a k) :=
  full rfl rfl ⟨_, rfl, by
    show Except.ok _ = _
    rw [field_17_3_at_1]⟩

theorem add (d : BitVec 6) (a : BitVec 6) (b : BitVec 6) : Statement (.add d a b) := full rfl rfl ⟨_, rfl, rfl⟩

theorem sub (d : BitVec 6) (a : BitVec 6) (b : BitVec 6) : Statement (.sub d a b) := full rfl rfl ⟨_, rfl, rfl⟩

theorem mul (d : BitVec 6) (a : BitVec 6) (b : BitVec 6) : Statement (.mul d a b) := full rfl rfl ⟨_, rfl, rfl⟩

theorem mulh (d : BitVec 6) (a : BitVec 6) (b : BitVec 6) : Statement (.mulh d a b) := full rfl rfl ⟨_, rfl, rfl⟩

theorem mulhn (d : BitVec 6) (a : BitVec 6) (b : BitVec 6) : Statement (.mulhn d a b) := full rfl rfl ⟨_, rfl, rfl⟩

theorem sAnd (d : BitVec 6) (a : BitVec 6) (b : BitVec 6) : Statement (.sAnd d a b) := full rfl rfl ⟨_, rfl, rfl⟩

theorem sOr (d : BitVec 6) (a : BitVec 6) (b : BitVec 6) : Statement (.sOr d a b) := full rfl rfl ⟨_, rfl, rfl⟩

theorem sXor (d : BitVec 6) (a : BitVec 6) (b : BitVec 6) : Statement (.sXor d a b) := full rfl rfl ⟨_, rfl, rfl⟩

theorem andn (d : BitVec 6) (a : BitVec 6) (b : BitVec 6) : Statement (.andn d a b) := full rfl rfl ⟨_, rfl, rfl⟩

theorem shl (d : BitVec 6) (a : BitVec 6) (b : BitVec 6) : Statement (.shl d a b) := full rfl rfl ⟨_, rfl, rfl⟩

theorem shr (d : BitVec 6) (a : BitVec 6) (b : BitVec 6) : Statement (.shr d a b) := full rfl rfl ⟨_, rfl, rfl⟩

theorem sra (d : BitVec 6) (a : BitVec 6) (b : BitVec 6) : Statement (.sra d a b) := full rfl rfl ⟨_, rfl, rfl⟩

theorem rol (d : BitVec 6) (a : BitVec 6) (b : BitVec 6) : Statement (.rol d a b) := full rfl rfl ⟨_, rfl, rfl⟩

theorem sMin (d : BitVec 6) (a : BitVec 6) (b : BitVec 6) : Statement (.sMin d a b) := full rfl rfl ⟨_, rfl, rfl⟩

theorem sMax (d : BitVec 6) (a : BitVec 6) (b : BitVec 6) : Statement (.sMax d a b) := full rfl rfl ⟨_, rfl, rfl⟩

theorem minn (d : BitVec 6) (a : BitVec 6) (b : BitVec 6) : Statement (.minn d a b) := full rfl rfl ⟨_, rfl, rfl⟩

theorem maxn (d : BitVec 6) (a : BitVec 6) (b : BitVec 6) : Statement (.maxn d a b) := full rfl rfl ⟨_, rfl, rfl⟩

theorem slt (d : BitVec 6) (a : BitVec 6) (b : BitVec 6) : Statement (.slt d a b) := full rfl rfl ⟨_, rfl, rfl⟩

theorem sltn (d : BitVec 6) (a : BitVec 6) (b : BitVec 6) : Statement (.sltn d a b) := full rfl rfl ⟨_, rfl, rfl⟩

theorem addi (d : BitVec 6) (a : BitVec 6) (imm : BitVec 20) : Statement (.addi d a imm) := full rfl rfl ⟨_, rfl, rfl⟩

theorem subi (d : BitVec 6) (a : BitVec 6) (imm : BitVec 20) : Statement (.subi d a imm) := full rfl rfl ⟨_, rfl, rfl⟩

theorem muli (d : BitVec 6) (a : BitVec 6) (imm : BitVec 20) : Statement (.muli d a imm) := full rfl rfl ⟨_, rfl, rfl⟩

theorem mulhi (d : BitVec 6) (a : BitVec 6) (imm : BitVec 20) : Statement (.mulhi d a imm) := full rfl rfl ⟨_, rfl, rfl⟩

theorem mulhni (d : BitVec 6) (a : BitVec 6) (imm : BitVec 20) : Statement (.mulhni d a imm) := full rfl rfl ⟨_, rfl, rfl⟩

theorem andi (d : BitVec 6) (a : BitVec 6) (imm : BitVec 20) : Statement (.andi d a imm) := full rfl rfl ⟨_, rfl, rfl⟩

theorem ori (d : BitVec 6) (a : BitVec 6) (imm : BitVec 20) : Statement (.ori d a imm) := full rfl rfl ⟨_, rfl, rfl⟩

theorem xori (d : BitVec 6) (a : BitVec 6) (imm : BitVec 20) : Statement (.xori d a imm) := full rfl rfl ⟨_, rfl, rfl⟩

theorem andni (d : BitVec 6) (a : BitVec 6) (imm : BitVec 20) : Statement (.andni d a imm) := full rfl rfl ⟨_, rfl, rfl⟩

theorem shli (d : BitVec 6) (a : BitVec 6) (imm : BitVec 20) : Statement (.shli d a imm) := full rfl rfl ⟨_, rfl, rfl⟩

theorem shri (d : BitVec 6) (a : BitVec 6) (imm : BitVec 20) : Statement (.shri d a imm) := full rfl rfl ⟨_, rfl, rfl⟩

theorem srai (d : BitVec 6) (a : BitVec 6) (imm : BitVec 20) : Statement (.srai d a imm) := full rfl rfl ⟨_, rfl, rfl⟩

theorem roli (d : BitVec 6) (a : BitVec 6) (imm : BitVec 20) : Statement (.roli d a imm) := full rfl rfl ⟨_, rfl, rfl⟩

theorem mini (d : BitVec 6) (a : BitVec 6) (imm : BitVec 20) : Statement (.mini d a imm) := full rfl rfl ⟨_, rfl, rfl⟩

theorem maxi (d : BitVec 6) (a : BitVec 6) (imm : BitVec 20) : Statement (.maxi d a imm) := full rfl rfl ⟨_, rfl, rfl⟩

theorem minni (d : BitVec 6) (a : BitVec 6) (imm : BitVec 20) : Statement (.minni d a imm) := full rfl rfl ⟨_, rfl, rfl⟩

theorem maxni (d : BitVec 6) (a : BitVec 6) (imm : BitVec 20) : Statement (.maxni d a imm) := full rfl rfl ⟨_, rfl, rfl⟩

theorem slti (d : BitVec 6) (a : BitVec 6) (imm : BitVec 20) : Statement (.slti d a imm) := full rfl rfl ⟨_, rfl, rfl⟩

theorem sltni (d : BitVec 6) (a : BitVec 6) (imm : BitVec 20) : Statement (.sltni d a imm) := full rfl rfl ⟨_, rfl, rfl⟩

theorem div (d : BitVec 6) (a : BitVec 6) (b : BitVec 6) : Statement (.div d a b) := full rfl rfl ⟨_, rfl, rfl⟩

theorem divn (d : BitVec 6) (a : BitVec 6) (b : BitVec 6) : Statement (.divn d a b) := full rfl rfl ⟨_, rfl, rfl⟩

theorem rem (d : BitVec 6) (a : BitVec 6) (b : BitVec 6) : Statement (.rem d a b) := full rfl rfl ⟨_, rfl, rfl⟩

theorem remn (d : BitVec 6) (a : BitVec 6) (b : BitVec 6) : Statement (.remn d a b) := full rfl rfl ⟨_, rfl, rfl⟩

theorem clz (d : BitVec 6) (a : BitVec 6) : Statement (.clz d a) := full rfl rfl ⟨_, rfl, rfl⟩

theorem ctz (d : BitVec 6) (a : BitVec 6) : Statement (.ctz d a) := full rfl rfl ⟨_, rfl, rfl⟩

theorem popc (d : BitVec 6) (a : BitVec 6) : Statement (.popc d a) := full rfl rfl ⟨_, rfl, rfl⟩

theorem sel (d : BitVec 6) (a : BitVec 6) (b : BitVec 6) (c : BitVec 6) : Statement (.sel d a b c) :=
  full rfl rfl ⟨_, rfl, by
    show Except.ok _ = _
    rw [field_6_14_at_0]⟩

theorem li (d : BitVec 6) (imm : BitVec 20) : Statement (.li d imm) := full rfl rfl ⟨_, rfl, rfl⟩

theorem lui (d : BitVec 6) (imm : BitVec 20) : Statement (.lui d imm) := full rfl rfl ⟨_, rfl, rfl⟩

theorem adr (d : BitVec 6) (imm : BitVec 20) : Statement (.adr d imm) := full rfl rfl ⟨_, rfl, rfl⟩

theorem lsa (d : BitVec 6) (a : BitVec 6) (b : BitVec 6) (k : BitVec 2) : Statement (.lsa d a b k) :=
  full rfl rfl ⟨_, rfl, by
    show Except.ok _ = _
    rw [field_18_2_at_1]⟩

theorem ext (d : BitVec 6) (a : BitVec 6) (pos : BitVec 6) (len : BitVec 6) : Statement (.ext d a pos len) :=
  full rfl rfl ⟨_, rfl, by
    show (if (_ : BitVec 1) == _ then _ else _) = _
    rw [field_6_7_1_6_at_2, field_6_7_1_6_at_0, field_6_7_1_6_at_3]
    simp⟩

theorem extS (d : BitVec 6) (a : BitVec 6) (pos : BitVec 6) (len : BitVec 6) : Statement (.extS d a pos len) :=
  full rfl rfl ⟨_, rfl, by
    show (if (_ : BitVec 1) == _ then _ else _) = _
    rw [field_6_7_1_6_at_2, field_6_7_1_6_at_0, field_6_7_1_6_at_3]
    simp⟩

theorem ins (d : BitVec 6) (a : BitVec 6) (pos : BitVec 6) (len : BitVec 6) : Statement (.ins d a pos len) :=
  full rfl rfl ⟨_, rfl, by
    show Except.ok _ = _
    rw [field_6_7_1_6_at_0, field_6_7_1_6_at_3]⟩

theorem frame (n : BitVec 6) : Statement (.frame n) :=
  full rfl rfl ⟨_, rfl, by
    show Except.ok _ = _
    rw [field_14_6_at_1]⟩

theorem faddS (d : BitVec 6) (a : BitVec 6) (b : BitVec 6) (rm : Rm) : Statement (.faddS d a b rm) := full rfl rfl ⟨_, rm_ofCode _, rfl⟩

theorem fsubS (d : BitVec 6) (a : BitVec 6) (b : BitVec 6) (rm : Rm) : Statement (.fsubS d a b rm) := full rfl rfl ⟨_, rm_ofCode _, rfl⟩

theorem fmulS (d : BitVec 6) (a : BitVec 6) (b : BitVec 6) (rm : Rm) : Statement (.fmulS d a b rm) := full rfl rfl ⟨_, rm_ofCode _, rfl⟩

theorem ffmaS (d : BitVec 6) (a : BitVec 6) (b : BitVec 6) (rm : Rm) (c : BitVec 6) : Statement (.ffmaS d a b rm c) :=
  full rfl rfl ⟨_, rm_ofCode _, by
    show Except.ok _ = _
    rw [field_6_14_at_0]⟩

theorem fdivS (d : BitVec 6) (a : BitVec 6) (b : BitVec 6) (rm : Rm) : Statement (.fdivS d a b rm) := full rfl rfl ⟨_, rm_ofCode _, rfl⟩

theorem fsqrtS (d : BitVec 6) (a : BitVec 6) (rm : Rm) : Statement (.fsqrtS d a rm) := full rfl rfl ⟨_, rm_ofCode _, rfl⟩

theorem fcmpSEq (d : BitVec 6) (a : BitVec 6) (b : BitVec 6) : Statement (.fcmpSEq d a b) := full rfl rfl ⟨_, rfl, rfl⟩

theorem fcmpSLt (d : BitVec 6) (a : BitVec 6) (b : BitVec 6) : Statement (.fcmpSLt d a b) := full rfl rfl ⟨_, rfl, rfl⟩

theorem fcmpSLe (d : BitVec 6) (a : BitVec 6) (b : BitVec 6) : Statement (.fcmpSLe d a b) := full rfl rfl ⟨_, rfl, rfl⟩

theorem fcmpSUn (d : BitVec 6) (a : BitVec 6) (b : BitVec 6) : Statement (.fcmpSUn d a b) := full rfl rfl ⟨_, rfl, rfl⟩

theorem fcvtSFi (d : BitVec 6) (a : BitVec 6) (rm : Rm) : Statement (.fcvtSFi d a rm) := full rfl rfl ⟨_, rm_ofCode _, rfl⟩

theorem fcvtSFn (d : BitVec 6) (a : BitVec 6) (rm : Rm) : Statement (.fcvtSFn d a rm) := full rfl rfl ⟨_, rm_ofCode _, rfl⟩

theorem fcvtSIf (d : BitVec 6) (a : BitVec 6) (rm : Rm) : Statement (.fcvtSIf d a rm) := full rfl rfl ⟨_, rm_ofCode _, rfl⟩

theorem fcvtSNf (d : BitVec 6) (a : BitVec 6) (rm : Rm) : Statement (.fcvtSNf d a rm) := full rfl rfl ⟨_, rm_ofCode _, rfl⟩

theorem mfs (d : BitVec 6) (num : BitVec 12) : Statement (.mfs d num) :=
  full rfl rfl ⟨_, rfl, by
    show Except.ok _ = _
    rw [field_8_12_at_1]⟩

theorem mts (a : BitVec 6) (num : BitVec 12) : Statement (.mts a num) := by
  refine fun hw => ⟨fun f hf => ⟨rfl, ?_⟩, fun _ h => nomatch h⟩
  cases hf
  refine ⟨_, rfl, ?_⟩
  have h : Sys2Proof.Wf.mts num = .plain := by simp [wellFormed] at hw; simp [hw]
  show (match Sys2Proof.Wf.mts _ with | .plain => _ | .mvl => _ | .tshape => _ | .dly => _ | .efq => _) = _
  rw [field_8_12_at_1, h]

theorem mvlWrite (a : BitVec 6) (num : BitVec 12) : Statement (.mvlWrite a num) := by
  refine fun hw => ⟨fun f hf => ⟨rfl, ?_⟩, fun _ h => nomatch h⟩
  cases hf
  refine ⟨_, rfl, ?_⟩
  have h : Sys2Proof.Wf.mts num = .mvl := by simp [wellFormed] at hw; simp [hw]
  show (match Sys2Proof.Wf.mts _ with | .plain => _ | .mvl => _ | .tshape => _ | .dly => _ | .efq => _) = _
  rw [field_8_12_at_1, h]

theorem tshapeWrite (a : BitVec 6) (num : BitVec 12) : Statement (.tshapeWrite a num) := by
  refine fun hw => ⟨fun f hf => ⟨rfl, ?_⟩, fun _ h => nomatch h⟩
  cases hf
  refine ⟨_, rfl, ?_⟩
  have h : Sys2Proof.Wf.mts num = .tshape := by simp [wellFormed] at hw; simp [hw]
  show (match Sys2Proof.Wf.mts _ with | .plain => _ | .mvl => _ | .tshape => _ | .dly => _ | .efq => _) = _
  rw [field_8_12_at_1, h]

theorem dlymodeClr (a : BitVec 6) (num : BitVec 12) : Statement (.dlymodeClr a num) := by
  refine fun hw => ⟨fun f hf => ⟨rfl, ?_⟩, fun _ h => nomatch h⟩
  cases hf
  refine ⟨_, rfl, ?_⟩
  have h : Sys2Proof.Wf.mts num = .dly := by simp [wellFormed] at hw; simp [hw]
  show (match Sys2Proof.Wf.mts _ with | .plain => _ | .mvl => _ | .tshape => _ | .dly => _ | .efq => _) = _
  rw [field_8_12_at_1, h]

theorem efqWrite (a : BitVec 6) (num : BitVec 12) : Statement (.efqWrite a num) := by
  refine fun hw => ⟨fun f hf => ⟨rfl, ?_⟩, fun _ h => nomatch h⟩
  cases hf
  refine ⟨_, rfl, ?_⟩
  have h : Sys2Proof.Wf.mts num = .efq := by simp [wellFormed] at hw; simp [hw]
  show (match Sys2Proof.Wf.mts _ with | .plain => _ | .mvl => _ | .tshape => _ | .dly => _ | .efq => _) = _
  rw [field_8_12_at_1, h]

theorem vsetl (d : BitVec 6) (a : BitVec 6) (ty : Ty) : Statement (.vsetl d a ty) :=
  full rfl rfl ⟨_, rfl, by
    show Except.ok _ = _
    rw [field_6_4_10_at_1]
    rw [ofCode_code]⟩

theorem vrel : Statement .vrel := full rfl rfl ⟨_, rfl, rfl⟩

theorem vspill (v : VCtl) (a : BitVec 6) (b : BitVec 6) (ty : Ty) (disp : BitVec 9) : Statement (.vspill v a b ty disp) :=
  full rfl rfl ⟨_, rfl, by
    show Except.ok _ = _
    rw [field_6_4_1_9_at_1, field_6_4_1_9_at_3]
    rw [ofCode_code]⟩

theorem vfill (d : BitVec 6) (a : BitVec 6) (ty : Ty) (disp : BitVec 9) : Statement (.vfill d a ty disp) :=
  full rfl rfl ⟨_, rfl, by
    show Except.ok _ = _
    rw [field_6_4_1_9_at_1, field_6_4_1_9_at_3]
    rw [ofCode_code]⟩

theorem vadd (v : VCtl) (d : BitVec 6) (a : BitVec 6) (b : BitVec 6) (ty : Ty) (sat : BitVec 1) : Statement (.vadd v d a b ty sat) :=
  full rfl rfl ⟨_, rfl, by
    show Except.ok _ = _
    rw [field_6_4_1_9_at_1, field_6_4_1_9_at_2]
    rw [ofCode_code]⟩

theorem vsub (v : VCtl) (d : BitVec 6) (a : BitVec 6) (b : BitVec 6) (ty : Ty) (sat : BitVec 1) : Statement (.vsub v d a b ty sat) :=
  full rfl rfl ⟨_, rfl, by
    show Except.ok _ = _
    rw [field_6_4_1_9_at_1, field_6_4_1_9_at_2]
    rw [ofCode_code]⟩

theorem vmul (v : VCtl) (d : BitVec 6) (a : BitVec 6) (b : BitVec 6) (ty : Ty) (sat : BitVec 1) : Statement (.vmul v d a b ty sat) :=
  full rfl rfl ⟨_, rfl, by
    show Except.ok _ = _
    rw [field_6_4_1_9_at_1, field_6_4_1_9_at_2]
    rw [ofCode_code]⟩

theorem vmulh (v : VCtl) (d : BitVec 6) (a : BitVec 6) (b : BitVec 6) (ty : Ty) : Statement (.vmulh v d a b ty) :=
  full rfl rfl ⟨_, rfl, by
    show Except.ok _ = _
    rw [field_6_4_10_at_1]
    rw [ofCode_code]⟩

theorem vmin (v : VCtl) (d : BitVec 6) (a : BitVec 6) (b : BitVec 6) (ty : Ty) : Statement (.vmin v d a b ty) :=
  full rfl rfl ⟨_, rfl, by
    show Except.ok _ = _
    rw [field_6_4_10_at_1]
    rw [ofCode_code]⟩

theorem vmax (v : VCtl) (d : BitVec 6) (a : BitVec 6) (b : BitVec 6) (ty : Ty) : Statement (.vmax v d a b ty) :=
  full rfl rfl ⟨_, rfl, by
    show Except.ok _ = _
    rw [field_6_4_10_at_1]
    rw [ofCode_code]⟩

theorem vand (v : VCtl) (d : BitVec 6) (a : BitVec 6) (b : BitVec 6) (ty : Ty) : Statement (.vand v d a b ty) :=
  full rfl rfl ⟨_, rfl, by
    show Except.ok _ = _
    rw [field_6_4_10_at_1]
    rw [ofCode_code]⟩

theorem vor (v : VCtl) (d : BitVec 6) (a : BitVec 6) (b : BitVec 6) (ty : Ty) : Statement (.vor v d a b ty) :=
  full rfl rfl ⟨_, rfl, by
    show Except.ok _ = _
    rw [field_6_4_10_at_1]
    rw [ofCode_code]⟩

theorem vxor (v : VCtl) (d : BitVec 6) (a : BitVec 6) (b : BitVec 6) (ty : Ty) : Statement (.vxor v d a b ty) :=
  full rfl rfl ⟨_, rfl, by
    show Except.ok _ = _
    rw [field_6_4_10_at_1]
    rw [ofCode_code]⟩

theorem vshl (v : VCtl) (d : BitVec 6) (a : BitVec 6) (b : BitVec 6) (ty : Ty) : Statement (.vshl v d a b ty) :=
  full rfl rfl ⟨_, rfl, by
    show Except.ok _ = _
    rw [field_6_4_10_at_1]
    rw [ofCode_code]⟩

theorem vshr (v : VCtl) (d : BitVec 6) (a : BitVec 6) (b : BitVec 6) (ty : Ty) : Statement (.vshr v d a b ty) :=
  full rfl rfl ⟨_, rfl, by
    show Except.ok _ = _
    rw [field_6_4_10_at_1]
    rw [ofCode_code]⟩

theorem vsra (v : VCtl) (d : BitVec 6) (a : BitVec 6) (b : BitVec 6) (ty : Ty) : Statement (.vsra v d a b ty) :=
  full rfl rfl ⟨_, rfl, by
    show Except.ok _ = _
    rw [field_6_4_10_at_1]
    rw [ofCode_code]⟩

theorem vcmpEq (v : VCtl) (d : BitVec 6) (a : BitVec 6) (b : BitVec 6) (ty : Ty) : Statement (.vcmpEq v d a b ty) :=
  full rfl rfl ⟨_, rfl, by
    show Except.ok _ = _
    rw [field_6_4_10_at_1]
    rw [ofCode_code]⟩

theorem vcmpNe (v : VCtl) (d : BitVec 6) (a : BitVec 6) (b : BitVec 6) (ty : Ty) : Statement (.vcmpNe v d a b ty) :=
  full rfl rfl ⟨_, rfl, by
    show Except.ok _ = _
    rw [field_6_4_10_at_1]
    rw [ofCode_code]⟩

theorem vcmpLt (v : VCtl) (d : BitVec 6) (a : BitVec 6) (b : BitVec 6) (ty : Ty) : Statement (.vcmpLt v d a b ty) :=
  full rfl rfl ⟨_, rfl, by
    show Except.ok _ = _
    rw [field_6_4_10_at_1]
    rw [ofCode_code]⟩

theorem vcmpLe (v : VCtl) (d : BitVec 6) (a : BitVec 6) (b : BitVec 6) (ty : Ty) : Statement (.vcmpLe v d a b ty) :=
  full rfl rfl ⟨_, rfl, by
    show Except.ok _ = _
    rw [field_6_4_10_at_1]
    rw [ofCode_code]⟩

theorem vwadd (v : VCtl) (d : BitVec 6) (a : BitVec 6) (b : BitVec 6) (rm : Rm) (ty : Ty) (wf : BitVec 2) : Statement (.vwadd v d a b rm ty wf) :=
  full rfl rfl ⟨_, rm_ofCode _, by
    show Except.ok _ = _
    rw [field_6_4_8_2_at_1, field_6_4_8_2_at_3]
    rw [ofCode_code]⟩

theorem vwmul (v : VCtl) (d : BitVec 6) (a : BitVec 6) (b : BitVec 6) (rm : Rm) (ty : Ty) (wf : BitVec 2) : Statement (.vwmul v d a b rm ty wf) :=
  full rfl rfl ⟨_, rm_ofCode _, by
    show Except.ok _ = _
    rw [field_6_4_8_2_at_1, field_6_4_8_2_at_3]
    rw [ofCode_code]⟩

theorem vwmac (v : VCtl) (d : BitVec 6) (a : BitVec 6) (b : BitVec 6) (rm : Rm) (c : BitVec 6) (ty : Ty) (sat : BitVec 1) (wf : BitVec 2) : Statement (.vwmac v d a b rm c ty sat wf) :=
  full rfl rfl ⟨_, rm_ofCode _, by
    show Except.ok _ = _
    rw [field_6_4_1_7_2_at_0, field_6_4_1_7_2_at_1, field_6_4_1_7_2_at_2, field_6_4_1_7_2_at_4]
    rw [ofCode_code]⟩

theorem vmov (v : VCtl) (d : BitVec 6) (a : BitVec 6) (ty : Ty) : Statement (.vmov v d a ty) :=
  full rfl rfl ⟨_, rfl, by
    show Except.ok _ = _
    rw [field_6_4_10_at_1]
    rw [ofCode_code]⟩

theorem vid (v : VCtl) (d : BitVec 6) (ty : Ty) : Statement (.vid v d ty) :=
  full rfl rfl ⟨_, rfl, by
    show Except.ok _ = _
    rw [field_6_4_10_at_1]
    rw [ofCode_code]⟩

theorem vsel (v : VCtl) (d : BitVec 6) (a : BitVec 6) (b : BitVec 6) (ty : Ty) : Statement (.vsel v d a b ty) :=
  full rfl rfl ⟨_, rfl, by
    show Except.ok _ = _
    rw [field_6_4_10_at_1]
    rw [ofCode_code]⟩

theorem vdup (v : VCtl) (d : BitVec 6) (a : BitVec 6) (b : BitVec 6) (ty : Ty) : Statement (.vdup v d a b ty) :=
  full rfl rfl ⟨_, rfl, by
    show Except.ok _ = _
    rw [field_6_4_10_at_1]
    rw [ofCode_code]⟩

theorem vperm (v : VCtl) (d : BitVec 6) (a : BitVec 6) (b : BitVec 6) (ty : Ty) : Statement (.vperm v d a b ty) :=
  full rfl rfl ⟨_, rfl, by
    show Except.ok _ = _
    rw [field_6_4_10_at_1]
    rw [ofCode_code]⟩

theorem vslup (v : VCtl) (d : BitVec 6) (a : BitVec 6) (b : BitVec 6) (ty : Ty) : Statement (.vslup v d a b ty) :=
  full rfl rfl ⟨_, rfl, by
    show Except.ok _ = _
    rw [field_6_4_10_at_1]
    rw [ofCode_code]⟩

theorem vsldn (v : VCtl) (d : BitVec 6) (a : BitVec 6) (b : BitVec 6) (ty : Ty) : Statement (.vsldn v d a b ty) :=
  full rfl rfl ⟨_, rfl, by
    show Except.ok _ = _
    rw [field_6_4_10_at_1]
    rw [ofCode_code]⟩

theorem vcmprs (v : VCtl) (d : BitVec 6) (a : BitVec 6) (ty : Ty) : Statement (.vcmprs v d a ty) :=
  full rfl rfl ⟨_, rfl, by
    show Except.ok _ = _
    rw [field_6_4_10_at_1]
    rw [ofCode_code]⟩

theorem vexpnd (v : VCtl) (d : BitVec 6) (a : BitVec 6) (ty : Ty) : Statement (.vexpnd v d a ty) :=
  full rfl rfl ⟨_, rfl, by
    show Except.ok _ = _
    rw [field_6_4_10_at_1]
    rw [ofCode_code]⟩

theorem qand (v : VCtl) (d : BitVec 6) (a : BitVec 6) (b : BitVec 6) : Statement (.qand v d a b) := full rfl rfl ⟨_, rfl, rfl⟩

theorem qor (v : VCtl) (d : BitVec 6) (a : BitVec 6) (b : BitVec 6) : Statement (.qor v d a b) := full rfl rfl ⟨_, rfl, rfl⟩

theorem qxor (v : VCtl) (d : BitVec 6) (a : BitVec 6) (b : BitVec 6) : Statement (.qxor v d a b) := full rfl rfl ⟨_, rfl, rfl⟩

theorem qnot (v : VCtl) (d : BitVec 6) (a : BitVec 6) : Statement (.qnot v d a) := full rfl rfl ⟨_, rfl, rfl⟩

theorem qpopc (v : VCtl) (d : BitVec 6) (a : BitVec 6) : Statement (.qpopc v d a) := full rfl rfl ⟨_, rfl, rfl⟩

theorem qfirst (v : VCtl) (d : BitVec 6) (a : BitVec 6) : Statement (.qfirst v d a) := full rfl rfl ⟨_, rfl, rfl⟩

theorem vbmand (v : VCtl) (d : BitVec 6) (a : BitVec 6) (b : BitVec 6) (ty : Ty) : Statement (.vbmand v d a b ty) :=
  full rfl rfl ⟨_, rfl, by
    show Except.ok _ = _
    rw [field_6_4_10_at_1]
    rw [ofCode_code]⟩

theorem vbpfx (v : VCtl) (d : BitVec 6) (a : BitVec 6) (ty : Ty) : Statement (.vbpfx v d a ty) :=
  full rfl rfl ⟨_, rfl, by
    show Except.ok _ = _
    rw [field_6_4_10_at_1]
    rw [ofCode_code]⟩

theorem vxsect (v : VCtl) (d : BitVec 6) (a : BitVec 6) (b : BitVec 6) (ty : Ty) : Statement (.vxsect v d a b ty) :=
  full rfl rfl ⟨_, rfl, by
    show Except.ok _ = _
    rw [field_6_4_10_at_1]
    rw [ofCode_code]⟩

theorem vconf (v : VCtl) (d : BitVec 6) (a : BitVec 6) (ty : Ty) (qe : BitVec 3) : Statement (.vconf v d a ty qe) :=
  full rfl rfl ⟨_, rfl, by
    show Except.ok _ = _
    rw [field_6_4_7_3_at_1, field_6_4_7_3_at_3]
    rw [ofCode_code]⟩

theorem vfadd (v : VCtl) (d : BitVec 6) (a : BitVec 6) (b : BitVec 6) (rm : Rm) (ty : Ty) : Statement (.vfadd v d a b rm ty) :=
  full rfl rfl ⟨_, rm_ofCode _, by
    show Except.ok _ = _
    rw [field_6_4_10_at_1]
    rw [ofCode_code]⟩

theorem vfsub (v : VCtl) (d : BitVec 6) (a : BitVec 6) (b : BitVec 6) (rm : Rm) (ty : Ty) : Statement (.vfsub v d a b rm ty) :=
  full rfl rfl ⟨_, rm_ofCode _, by
    show Except.ok _ = _
    rw [field_6_4_10_at_1]
    rw [ofCode_code]⟩

theorem vfmul (v : VCtl) (d : BitVec 6) (a : BitVec 6) (b : BitVec 6) (rm : Rm) (ty : Ty) : Statement (.vfmul v d a b rm ty) :=
  full rfl rfl ⟨_, rm_ofCode _, by
    show Except.ok _ = _
    rw [field_6_4_10_at_1]
    rw [ofCode_code]⟩

theorem vfmin (v : VCtl) (d : BitVec 6) (a : BitVec 6) (b : BitVec 6) (ty : Ty) : Statement (.vfmin v d a b ty) :=
  full rfl rfl ⟨_, rfl, by
    show Except.ok _ = _
    rw [field_6_4_10_at_1]
    rw [ofCode_code]⟩

theorem vfmax (v : VCtl) (d : BitVec 6) (a : BitVec 6) (b : BitVec 6) (ty : Ty) : Statement (.vfmax v d a b ty) :=
  full rfl rfl ⟨_, rfl, by
    show Except.ok _ = _
    rw [field_6_4_10_at_1]
    rw [ofCode_code]⟩

theorem vfma (v : VCtl) (d : BitVec 6) (a : BitVec 6) (b : BitVec 6) (rm : Rm) (c : BitVec 6) (ty : Ty) : Statement (.vfma v d a b rm c ty) :=
  full rfl rfl ⟨_, rm_ofCode _, by
    show Except.ok _ = _
    rw [field_6_4_10_at_0, field_6_4_10_at_1]
    rw [ofCode_code]⟩

theorem vfms (v : VCtl) (d : BitVec 6) (a : BitVec 6) (b : BitVec 6) (rm : Rm) (c : BitVec 6) (ty : Ty) : Statement (.vfms v d a b rm c ty) :=
  full rfl rfl ⟨_, rm_ofCode _, by
    show Except.ok _ = _
    rw [field_6_4_10_at_0, field_6_4_10_at_1]
    rw [ofCode_code]⟩

theorem vfnma (v : VCtl) (d : BitVec 6) (a : BitVec 6) (b : BitVec 6) (rm : Rm) (c : BitVec 6) (ty : Ty) : Statement (.vfnma v d a b rm c ty) :=
  full rfl rfl ⟨_, rm_ofCode _, by
    show Except.ok _ = _
    rw [field_6_4_10_at_0, field_6_4_10_at_1]
    rw [ofCode_code]⟩

theorem vfdiv (v : VCtl) (d : BitVec 6) (a : BitVec 6) (b : BitVec 6) (rm : Rm) (ty : Ty) : Statement (.vfdiv v d a b rm ty) :=
  full rfl rfl ⟨_, rm_ofCode _, by
    show Except.ok _ = _
    rw [field_6_4_10_at_1]
    rw [ofCode_code]⟩

theorem vfsqrt (v : VCtl) (d : BitVec 6) (a : BitVec 6) (rm : Rm) (ty : Ty) : Statement (.vfsqrt v d a rm ty) :=
  full rfl rfl ⟨_, rm_ofCode _, by
    show Except.ok _ = _
    rw [field_6_4_10_at_1]
    rw [ofCode_code]⟩

theorem vrcp (v : VCtl) (d : BitVec 6) (a : BitVec 6) (rm : Rm) (ty : Ty) : Statement (.vrcp v d a rm ty) :=
  full rfl rfl ⟨_, rm_ofCode _, by
    show Except.ok _ = _
    rw [field_6_4_10_at_1]
    rw [ofCode_code]⟩

theorem vrsqrt (v : VCtl) (d : BitVec 6) (a : BitVec 6) (rm : Rm) (ty : Ty) : Statement (.vrsqrt v d a rm ty) :=
  full rfl rfl ⟨_, rm_ofCode _, by
    show Except.ok _ = _
    rw [field_6_4_10_at_1]
    rw [ofCode_code]⟩

theorem vexp2 (v : VCtl) (d : BitVec 6) (a : BitVec 6) (rm : Rm) (ty : Ty) : Statement (.vexp2 v d a rm ty) :=
  full rfl rfl ⟨_, rm_ofCode _, by
    show Except.ok _ = _
    rw [field_6_4_10_at_1]
    rw [ofCode_code]⟩

theorem vfcmpEq (v : VCtl) (d : BitVec 6) (a : BitVec 6) (b : BitVec 6) (ty : Ty) : Statement (.vfcmpEq v d a b ty) :=
  full rfl rfl ⟨_, rfl, by
    show Except.ok _ = _
    rw [field_6_4_10_at_1]
    rw [ofCode_code]⟩

theorem vfcmpLt (v : VCtl) (d : BitVec 6) (a : BitVec 6) (b : BitVec 6) (ty : Ty) : Statement (.vfcmpLt v d a b ty) :=
  full rfl rfl ⟨_, rfl, by
    show Except.ok _ = _
    rw [field_6_4_10_at_1]
    rw [ofCode_code]⟩

theorem vfcmpLe (v : VCtl) (d : BitVec 6) (a : BitVec 6) (b : BitVec 6) (ty : Ty) : Statement (.vfcmpLe v d a b ty) :=
  full rfl rfl ⟨_, rfl, by
    show Except.ok _ = _
    rw [field_6_4_10_at_1]
    rw [ofCode_code]⟩

theorem vfcmpUn (v : VCtl) (d : BitVec 6) (a : BitVec 6) (b : BitVec 6) (ty : Ty) : Statement (.vfcmpUn v d a b ty) :=
  full rfl rfl ⟨_, rfl, by
    show Except.ok _ = _
    rw [field_6_4_10_at_1]
    rw [ofCode_code]⟩

theorem vredoAdd (v : VCtl) (d : BitVec 6) (a : BitVec 6) (b : BitVec 6) (rm : Rm) (ty : Ty) (sat : BitVec 1) : Statement (.vredoAdd v d a b rm ty sat) :=
  full rfl rfl ⟨_, rm_ofCode _, by
    show Except.ok _ = _
    rw [field_6_4_1_9_at_1, field_6_4_1_9_at_2]
    rw [ofCode_code]⟩

theorem vredoMin (v : VCtl) (d : BitVec 6) (a : BitVec 6) (b : BitVec 6) (ty : Ty) : Statement (.vredoMin v d a b ty) :=
  full rfl rfl ⟨_, rfl, by
    show Except.ok _ = _
    rw [field_6_4_10_at_1]
    rw [ofCode_code]⟩

theorem vredoMax (v : VCtl) (d : BitVec 6) (a : BitVec 6) (b : BitVec 6) (ty : Ty) : Statement (.vredoMax v d a b ty) :=
  full rfl rfl ⟨_, rfl, by
    show Except.ok _ = _
    rw [field_6_4_10_at_1]
    rw [ofCode_code]⟩

theorem vredoAnd (v : VCtl) (d : BitVec 6) (a : BitVec 6) (b : BitVec 6) (ty : Ty) : Statement (.vredoAnd v d a b ty) :=
  full rfl rfl ⟨_, rfl, by
    show Except.ok _ = _
    rw [field_6_4_10_at_1]
    rw [ofCode_code]⟩

theorem vredoOr (v : VCtl) (d : BitVec 6) (a : BitVec 6) (b : BitVec 6) (ty : Ty) : Statement (.vredoOr v d a b ty) :=
  full rfl rfl ⟨_, rfl, by
    show Except.ok _ = _
    rw [field_6_4_10_at_1]
    rw [ofCode_code]⟩

theorem vredoXor (v : VCtl) (d : BitVec 6) (a : BitVec 6) (b : BitVec 6) (ty : Ty) : Statement (.vredoXor v d a b ty) :=
  full rfl rfl ⟨_, rfl, by
    show Except.ok _ = _
    rw [field_6_4_10_at_1]
    rw [ofCode_code]⟩

theorem vredtAdd (v : VCtl) (d : BitVec 6) (a : BitVec 6) (b : BitVec 6) (rm : Rm) (ty : Ty) (sat : BitVec 1) : Statement (.vredtAdd v d a b rm ty sat) :=
  full rfl rfl ⟨_, rm_ofCode _, by
    show Except.ok _ = _
    rw [field_6_4_1_9_at_1, field_6_4_1_9_at_2]
    rw [ofCode_code]⟩

theorem vredtMin (v : VCtl) (d : BitVec 6) (a : BitVec 6) (b : BitVec 6) (ty : Ty) : Statement (.vredtMin v d a b ty) :=
  full rfl rfl ⟨_, rfl, by
    show Except.ok _ = _
    rw [field_6_4_10_at_1]
    rw [ofCode_code]⟩

theorem vredtMax (v : VCtl) (d : BitVec 6) (a : BitVec 6) (b : BitVec 6) (ty : Ty) : Statement (.vredtMax v d a b ty) :=
  full rfl rfl ⟨_, rfl, by
    show Except.ok _ = _
    rw [field_6_4_10_at_1]
    rw [ofCode_code]⟩

theorem vredtAnd (v : VCtl) (d : BitVec 6) (a : BitVec 6) (b : BitVec 6) (ty : Ty) : Statement (.vredtAnd v d a b ty) :=
  full rfl rfl ⟨_, rfl, by
    show Except.ok _ = _
    rw [field_6_4_10_at_1]
    rw [ofCode_code]⟩

theorem vredtOr (v : VCtl) (d : BitVec 6) (a : BitVec 6) (b : BitVec 6) (ty : Ty) : Statement (.vredtOr v d a b ty) :=
  full rfl rfl ⟨_, rfl, by
    show Except.ok _ = _
    rw [field_6_4_10_at_1]
    rw [ofCode_code]⟩

theorem vredtXor (v : VCtl) (d : BitVec 6) (a : BitVec 6) (b : BitVec 6) (ty : Ty) : Statement (.vredtXor v d a b ty) :=
  full rfl rfl ⟨_, rfl, by
    show Except.ok _ = _
    rw [field_6_4_10_at_1]
    rw [ofCode_code]⟩

theorem vscanAdd (v : VCtl) (d : BitVec 6) (a : BitVec 6) (b : BitVec 6) (rm : Rm) (ty : Ty) (sat : BitVec 1) : Statement (.vscanAdd v d a b rm ty sat) :=
  full rfl rfl ⟨_, rm_ofCode _, by
    show Except.ok _ = _
    rw [field_6_4_1_9_at_1, field_6_4_1_9_at_2]
    rw [ofCode_code]⟩

theorem vscanMin (v : VCtl) (d : BitVec 6) (a : BitVec 6) (b : BitVec 6) (ty : Ty) : Statement (.vscanMin v d a b ty) :=
  full rfl rfl ⟨_, rfl, by
    show Except.ok _ = _
    rw [field_6_4_10_at_1]
    rw [ofCode_code]⟩

theorem vscanMax (v : VCtl) (d : BitVec 6) (a : BitVec 6) (b : BitVec 6) (ty : Ty) : Statement (.vscanMax v d a b ty) :=
  full rfl rfl ⟨_, rfl, by
    show Except.ok _ = _
    rw [field_6_4_10_at_1]
    rw [ofCode_code]⟩

theorem vscanAnd (v : VCtl) (d : BitVec 6) (a : BitVec 6) (b : BitVec 6) (ty : Ty) : Statement (.vscanAnd v d a b ty) :=
  full rfl rfl ⟨_, rfl, by
    show Except.ok _ = _
    rw [field_6_4_10_at_1]
    rw [ofCode_code]⟩

theorem vscanOr (v : VCtl) (d : BitVec 6) (a : BitVec 6) (b : BitVec 6) (ty : Ty) : Statement (.vscanOr v d a b ty) :=
  full rfl rfl ⟨_, rfl, by
    show Except.ok _ = _
    rw [field_6_4_10_at_1]
    rw [ofCode_code]⟩

theorem vscanXor (v : VCtl) (d : BitVec 6) (a : BitVec 6) (b : BitVec 6) (ty : Ty) : Statement (.vscanXor v d a b ty) :=
  full rfl rfl ⟨_, rfl, by
    show Except.ok _ = _
    rw [field_6_4_10_at_1]
    rw [ofCode_code]⟩

theorem fmtSet (d : BitVec 6) (a : BitVec 6) : Statement (.fmtSet d a) := full rfl rfl ⟨_, rfl, rfl⟩

theorem tidBind (d : BitVec 6) (a : BitVec 6) : Statement (.tidBind d a) := full rfl rfl ⟨_, rfl, rfl⟩

theorem tidRd (d : BitVec 6) (a : BitVec 6) (k : BitVec 3) : Statement (.tidRd d a k) :=
  full rfl rfl ⟨_, rfl, by
    show Except.ok _ = _
    rw [field_17_3_at_1]⟩

theorem vcvtTo (v : VCtl) (d : BitVec 6) (a : BitVec 6) (rm : Rm) (ty : Ty) (sat : BitVec 1) (fc : BitVec 6) : Statement (.vcvtTo v d a rm ty sat fc) :=
  full rfl rfl ⟨_, rm_ofCode _, by
    show (if (_ : BitVec 1) == _ then _ else _) = _
    rw [field_6_4_1_6_1_2_at_4, field_6_4_1_6_1_2_at_1, field_6_4_1_6_1_2_at_2, field_6_4_1_6_1_2_at_3]
    simp [ofCode_code]⟩

theorem vcvtFrom (v : VCtl) (d : BitVec 6) (a : BitVec 6) (rm : Rm) (ty : Ty) (sat : BitVec 1) (fc : BitVec 6) : Statement (.vcvtFrom v d a rm ty sat fc) :=
  full rfl rfl ⟨_, rm_ofCode _, by
    show (if (_ : BitVec 1) == _ then _ else _) = _
    rw [field_6_4_1_6_1_2_at_4, field_6_4_1_6_1_2_at_1, field_6_4_1_6_1_2_at_2, field_6_4_1_6_1_2_at_3]
    simp [ofCode_code]⟩

theorem vpack (v : VCtl) (d : BitVec 6) (a : BitVec 6) (ty : Ty) (fc : BitVec 6) : Statement (.vpack v d a ty fc) :=
  full rfl rfl ⟨_, rfl, by
    show Except.ok _ = _
    rw [field_6_4_1_6_3_at_1, field_6_4_1_6_3_at_3]
    rw [ofCode_code]⟩

theorem vunpk (v : VCtl) (d : BitVec 6) (a : BitVec 6) (ty : Ty) (fc : BitVec 6) : Statement (.vunpk v d a ty fc) :=
  full rfl rfl ⟨_, rfl, by
    show Except.ok _ = _
    rw [field_6_4_1_6_3_at_1, field_6_4_1_6_3_at_3]
    rw [ofCode_code]⟩

theorem vscl (v : VCtl) (d : BitVec 6) (a : BitVec 6) (b : BitVec 6) (rm : Rm) (ty : Ty) (sat : BitVec 1) (fc : BitVec 6) : Statement (.vscl v d a b rm ty sat fc) :=
  full rfl rfl ⟨_, rm_ofCode _, by
    show Except.ok _ = _
    rw [field_6_4_1_6_3_at_1, field_6_4_1_6_3_at_2, field_6_4_1_6_3_at_3]
    rw [ofCode_code]⟩

theorem vquant (v : VCtl) (d : BitVec 6) (a : BitVec 6) (b : BitVec 6) (rm : Rm) (ty : Ty) (fc : BitVec 6) : Statement (.vquant v d a b rm ty fc) :=
  full rfl rfl ⟨_, rm_ofCode _, by
    show Except.ok _ = _
    rw [field_6_4_1_6_3_at_1, field_6_4_1_6_3_at_3]
    rw [ofCode_code]⟩

theorem tld (d : BitVec 6) (a : BitVec 6) (b : BitVec 6) (c : BitVec 6) : Statement (.tld d a b c) :=
  full rfl rfl ⟨_, rfl, by
    show Except.ok _ = _
    rw [field_6_14_at_0]⟩

theorem tldt (d : BitVec 6) (a : BitVec 6) (b : BitVec 6) (c : BitVec 6) : Statement (.tldt d a b c) :=
  full rfl rfl ⟨_, rfl, by
    show Except.ok _ = _
    rw [field_6_14_at_0]⟩

theorem tst (d : BitVec 6) (a : BitVec 6) (b : BitVec 6) (c : BitVec 6) : Statement (.tst d a b c) :=
  full rfl rfl ⟨_, rfl, by
    show Except.ok _ = _
    rw [field_6_14_at_0]⟩

theorem tzero (d : BitVec 6) (a : BitVec 6) : Statement (.tzero d a) := full rfl rfl ⟨_, rfl, rfl⟩

theorem tlatch (a : BitVec 6) (b : BitVec 6) : Statement (.tlatch a b) := full rfl rfl ⟨_, rfl, rfl⟩

theorem mmr (v : VCtl) (d : BitVec 6) (a : BitVec 6) (b : BitVec 6) (acc : BitVec 1) : Statement (.mmr v d a b acc) :=
  full rfl rfl ⟨_, rfl, by
    show Except.ok _ = _
    rw [field_6_4_6_1_3_at_3]⟩

theorem mmrT (v : VCtl) (d : BitVec 6) (a : BitVec 6) (b : BitVec 6) (c : BitVec 6) (acc : BitVec 1) : Statement (.mmrT v d a b c acc) :=
  full rfl rfl ⟨_, rfl, by
    show Except.ok _ = _
    rw [field_6_4_6_1_3_at_0, field_6_4_6_1_3_at_3]⟩

theorem mmrRep (v : VCtl) (d : BitVec 6) (a : BitVec 6) (b : BitVec 6) (acc : BitVec 1) (n : BitVec 3) : Statement (.mmrRep v d a b acc n) :=
  full rfl rfl ⟨_, rfl, by
    show Except.ok _ = _
    rw [field_6_4_6_1_3_at_3, field_6_4_6_1_3_at_4]⟩

theorem mmrSk (v : VCtl) (d : BitVec 6) (a : BitVec 6) (b : BitVec 6) (c : BitVec 6) (acc : BitVec 1) : Statement (.mmrSk v d a b c acc) :=
  full rfl rfl ⟨_, rfl, by
    show Except.ok _ = _
    rw [field_6_4_6_1_3_at_0, field_6_4_6_1_3_at_3]⟩

theorem rnew (d : BitVec 6) (a : BitVec 6) (b : BitVec 6) (nw : BitVec 1) : Statement (.rnew d a b nw) :=
  full rfl rfl ⟨_, rfl, by
    show Except.ok _ = _
    rw [field_18_1_1_at_1]⟩

theorem rcut (d : BitVec 6) (a : BitVec 6) (b : BitVec 6) (nw : BitVec 1) (axis : BitVec 1) : Statement (.rcut d a b nw axis) :=
  full rfl rfl ⟨_, rfl, by
    show Except.ok _ = _
    rw [field_18_1_1_at_1, field_18_1_1_at_2]⟩

theorem rsplc (d : BitVec 6) (a : BitVec 6) (b : BitVec 6) : Statement (.rsplc d a b) := full rfl rfl ⟨_, rfl, rfl⟩

theorem rfree (a : BitVec 6) : Statement (.rfree a) := full rfl rfl ⟨_, rfl, rfl⟩

theorem hmov (d : BitVec 6) (a : BitVec 6) (b : BitVec 6) : Statement (.hmov d a b) := full rfl rfl ⟨_, rfl, rfl⟩

theorem hinfo (d : BitVec 6) (a : BitVec 6) (k : BitVec 2) : Statement (.hinfo d a k) :=
  full rfl rfl ⟨_, rfl, by
    show Except.ok _ = _
    rw [field_18_2_at_1]⟩

theorem rld (v : VCtl) (d : BitVec 6) (a : BitVec 6) (b : BitVec 6) : Statement (.rld v d a b) := full rfl rfl ⟨_, rfl, rfl⟩

theorem rst (v : VCtl) (a : BitVec 6) (b : BitVec 6) (c : BitVec 6) : Statement (.rst v a b c) :=
  full rfl rfl ⟨_, rfl, by
    show Except.ok _ = _
    rw [field_6_14_at_0]⟩

theorem ldI8 (d : BitVec 6) (a : BitVec 6) (imm : BitVec 20) : Statement (.ldI8 d a imm) := full rfl rfl ⟨_, rfl, rfl⟩

theorem ldI16 (d : BitVec 6) (a : BitVec 6) (imm : BitVec 20) : Statement (.ldI16 d a imm) := full rfl rfl ⟨_, rfl, rfl⟩

theorem ldI32 (d : BitVec 6) (a : BitVec 6) (imm : BitVec 20) : Statement (.ldI32 d a imm) := full rfl rfl ⟨_, rfl, rfl⟩

theorem ldI64 (d : BitVec 6) (a : BitVec 6) (imm : BitVec 20) : Statement (.ldI64 d a imm) := full rfl rfl ⟨_, rfl, rfl⟩

theorem ldN8 (d : BitVec 6) (a : BitVec 6) (imm : BitVec 20) : Statement (.ldN8 d a imm) := full rfl rfl ⟨_, rfl, rfl⟩

theorem ldN16 (d : BitVec 6) (a : BitVec 6) (imm : BitVec 20) : Statement (.ldN16 d a imm) := full rfl rfl ⟨_, rfl, rfl⟩

theorem ldN32 (d : BitVec 6) (a : BitVec 6) (imm : BitVec 20) : Statement (.ldN32 d a imm) := full rfl rfl ⟨_, rfl, rfl⟩

theorem st8 (d : BitVec 6) (a : BitVec 6) (imm : BitVec 20) : Statement (.st8 d a imm) := full rfl rfl ⟨_, rfl, rfl⟩

theorem st16 (d : BitVec 6) (a : BitVec 6) (imm : BitVec 20) : Statement (.st16 d a imm) := full rfl rfl ⟨_, rfl, rfl⟩

theorem st32 (d : BitVec 6) (a : BitVec 6) (imm : BitVec 20) : Statement (.st32 d a imm) := full rfl rfl ⟨_, rfl, rfl⟩

theorem st64 (d : BitVec 6) (a : BitVec 6) (imm : BitVec 20) : Statement (.st64 d a imm) := full rfl rfl ⟨_, rfl, rfl⟩

theorem vld (v : VCtl) (d : BitVec 6) (a : BitVec 6) (b : BitVec 6) (rm : Rm) (ty : Ty) (sat : BitVec 1) (t : BitVec 1) (disp : BitVec 8) : Statement (.vld v d a b rm ty sat t disp) :=
  full rfl rfl ⟨_, rm_ofCode _, by
    show Except.ok _ = _
    rw [field_6_4_1_1_8_at_1, field_6_4_1_1_8_at_2, field_6_4_1_1_8_at_3, field_6_4_1_1_8_at_4]
    rw [ofCode_code]⟩

theorem vst (v : VCtl) (a : BitVec 6) (b : BitVec 6) (c : BitVec 6) (ty : Ty) (t : BitVec 1) (disp : BitVec 8) : Statement (.vst v a b c ty t disp) :=
  full rfl rfl ⟨_, rfl, by
    show Except.ok _ = _
    rw [field_6_4_1_1_8_at_0, field_6_4_1_1_8_at_1, field_6_4_1_1_8_at_3, field_6_4_1_1_8_at_4]
    rw [ofCode_code]⟩

theorem vlds (v : VCtl) (d : BitVec 6) (a : BitVec 6) (b : BitVec 6) (ty : Ty) (disp : BitVec 8) : Statement (.vlds v d a b ty disp) :=
  full rfl rfl ⟨_, rfl, by
    show Except.ok _ = _
    rw [field_6_4_2_8_at_1, field_6_4_2_8_at_3]
    rw [ofCode_code]⟩

theorem vsts (v : VCtl) (a : BitVec 6) (b : BitVec 6) (c : BitVec 6) (ty : Ty) (disp : BitVec 8) : Statement (.vsts v a b c ty disp) :=
  full rfl rfl ⟨_, rfl, by
    show Except.ok _ = _
    rw [field_6_4_2_8_at_0, field_6_4_2_8_at_1, field_6_4_2_8_at_3]
    rw [ofCode_code]⟩

theorem vgat (v : VCtl) (d : BitVec 6) (a : BitVec 6) (b : BitVec 6) (rm : Rm) (ty : Ty) (sat : BitVec 1) (mode : BitVec 2) (k : BitVec 2) : Statement (.vgat v d a b rm ty sat mode k) :=
  full rfl rfl ⟨_, rm_ofCode _, by
    show Except.ok _ = _
    rw [field_6_4_1_2_5_2_at_1, field_6_4_1_2_5_2_at_2, field_6_4_1_2_5_2_at_3, field_6_4_1_2_5_2_at_5]
    rw [ofCode_code]⟩

theorem vsca (v : VCtl) (a : BitVec 6) (b : BitVec 6) (c : BitVec 6) (ty : Ty) (mode : BitVec 2) (k : BitVec 2) : Statement (.vsca v a b c ty mode k) :=
  full rfl rfl ⟨_, rfl, by
    show Except.ok _ = _
    rw [field_6_4_1_2_5_2_at_0, field_6_4_1_2_5_2_at_1, field_6_4_1_2_5_2_at_3, field_6_4_1_2_5_2_at_5]
    rw [ofCode_code]⟩

theorem vgpool (v : VCtl) (d : BitVec 6) (a : BitVec 6) (b : BitVec 6) (rm : Rm) (c : BitVec 6) (ty : Ty) (sat : BitVec 1) (mode : BitVec 2) (k : BitVec 2) : Statement (.vgpool v d a b rm c ty sat mode k) :=
  full rfl rfl ⟨_, rm_ofCode _, by
    show Except.ok _ = _
    rw [field_6_4_1_2_5_2_at_0, field_6_4_1_2_5_2_at_1, field_6_4_1_2_5_2_at_2, field_6_4_1_2_5_2_at_3, field_6_4_1_2_5_2_at_5]
    rw [ofCode_code]⟩

theorem vsadd (v : VCtl) (a : BitVec 6) (b : BitVec 6) (c : BitVec 6) (ty : Ty) (sat : BitVec 1) (mode : BitVec 2) (k : BitVec 2) : Statement (.vsadd v a b c ty sat mode k) :=
  full rfl rfl ⟨_, rfl, by
    show Except.ok _ = _
    rw [field_6_4_1_2_5_2_at_0, field_6_4_1_2_5_2_at_1, field_6_4_1_2_5_2_at_2, field_6_4_1_2_5_2_at_3, field_6_4_1_2_5_2_at_5]
    rw [ofCode_code]⟩

theorem tcopy (d : BitVec 6) (a : BitVec 6) (b : BitVec 6) (c : BitVec 6) : Statement (.tcopy d a b c) :=
  full rfl rfl ⟨_, rfl, by
    show (if (_ : BitVec 2) == _ then _ else _) = _
    rw [field_6_12_2_at_2, field_6_12_2_at_0]
    simp⟩

theorem tcopyMig (d : BitVec 6) (a : BitVec 6) (b : BitVec 6) : Statement (.tcopyMig d a b) := full rfl rfl ⟨_, rfl, rfl⟩

theorem tcopyRes (d : BitVec 6) (a : BitVec 6) : Statement (.tcopyRes d a) := full rfl rfl ⟨_, rfl, rfl⟩

theorem slabGrow (d : BitVec 6) (a : BitVec 6) (b : BitVec 6) : Statement (.slabGrow d a b) := full rfl rfl ⟨_, rfl, rfl⟩

theorem smapSet (d : BitVec 6) (a : BitVec 6) (b : BitVec 6) : Statement (.smapSet d a b) := full rfl rfl ⟨_, rfl, rfl⟩

theorem smapInv (d : BitVec 6) (a : BitVec 6) (b : BitVec 6) : Statement (.smapInv d a b) := full rfl rfl ⟨_, rfl, rfl⟩

theorem bankMode (d : BitVec 6) (a : BitVec 6) (b : BitVec 6) : Statement (.bankMode d a b) := full rfl rfl ⟨_, rfl, rfl⟩

theorem tlbinvPg (a : BitVec 6) (b : BitVec 6) : Statement (.tlbinvPg a b) := full rfl rfl ⟨_, rfl, rfl⟩

theorem tlbinvAs (a : BitVec 6) : Statement (.tlbinvAs a) := full rfl rfl ⟨_, rfl, rfl⟩

theorem tlbinvAll : Statement .tlbinvAll := full rfl rfl ⟨_, rfl, rfl⟩

theorem pprobe (d : BitVec 6) (a : BitVec 6) : Statement (.pprobe d a) := full rfl rfl ⟨_, rfl, rfl⟩

theorem asidSwSet (a : BitVec 6) : Statement (.asidSwSet a) := full rfl rfl ⟨_, rfl, rfl⟩

theorem asidSwBind (d : BitVec 6) (a : BitVec 6) (b : BitVec 6) : Statement (.asidSwBind d a b) := full rfl rfl ⟨_, rfl, rfl⟩

theorem asidSwDrop (d : BitVec 6) (a : BitVec 6) : Statement (.asidSwDrop d a) := full rfl rfl ⟨_, rfl, rfl⟩

theorem amoSwap (d : BitVec 6) (a : BitVec 6) (b : BitVec 6) (ty : Ty) (ord : BitVec 2) : Statement (.amoSwap d a b ty ord) :=
  full rfl rfl ⟨_, rfl, by
    show Except.ok _ = _
    rw [field_6_4_8_2_at_1, field_6_4_8_2_at_3]
    rw [ofCode_code]⟩

theorem amoCas (d : BitVec 6) (a : BitVec 6) (b : BitVec 6) (c : BitVec 6) (ty : Ty) (ord : BitVec 2) : Statement (.amoCas d a b c ty ord) :=
  full rfl rfl ⟨_, rfl, by
    show Except.ok _ = _
    rw [field_6_4_8_2_at_0, field_6_4_8_2_at_1, field_6_4_8_2_at_3]
    rw [ofCode_code]⟩

theorem amoAdd (d : BitVec 6) (a : BitVec 6) (b : BitVec 6) (ty : Ty) (ord : BitVec 2) : Statement (.amoAdd d a b ty ord) :=
  full rfl rfl ⟨_, rfl, by
    show Except.ok _ = _
    rw [field_6_4_8_2_at_1, field_6_4_8_2_at_3]
    rw [ofCode_code]⟩

theorem amoFadd (d : BitVec 6) (a : BitVec 6) (b : BitVec 6) (ty : Ty) (ord : BitVec 2) : Statement (.amoFadd d a b ty ord) :=
  full rfl rfl ⟨_, rfl, by
    show Except.ok _ = _
    rw [field_6_4_8_2_at_1, field_6_4_8_2_at_3]
    rw [ofCode_code]⟩

theorem amoAnd (d : BitVec 6) (a : BitVec 6) (b : BitVec 6) (ty : Ty) (ord : BitVec 2) : Statement (.amoAnd d a b ty ord) :=
  full rfl rfl ⟨_, rfl, by
    show Except.ok _ = _
    rw [field_6_4_8_2_at_1, field_6_4_8_2_at_3]
    rw [ofCode_code]⟩

theorem amoOr (d : BitVec 6) (a : BitVec 6) (b : BitVec 6) (ty : Ty) (ord : BitVec 2) : Statement (.amoOr d a b ty ord) :=
  full rfl rfl ⟨_, rfl, by
    show Except.ok _ = _
    rw [field_6_4_8_2_at_1, field_6_4_8_2_at_3]
    rw [ofCode_code]⟩

theorem amoXor (d : BitVec 6) (a : BitVec 6) (b : BitVec 6) (ty : Ty) (ord : BitVec 2) : Statement (.amoXor d a b ty ord) :=
  full rfl rfl ⟨_, rfl, by
    show Except.ok _ = _
    rw [field_6_4_8_2_at_1, field_6_4_8_2_at_3]
    rw [ofCode_code]⟩

theorem amoMin (d : BitVec 6) (a : BitVec 6) (b : BitVec 6) (ty : Ty) (ord : BitVec 2) : Statement (.amoMin d a b ty ord) :=
  full rfl rfl ⟨_, rfl, by
    show Except.ok _ = _
    rw [field_6_4_8_2_at_1, field_6_4_8_2_at_3]
    rw [ofCode_code]⟩

theorem amoMax (d : BitVec 6) (a : BitVec 6) (b : BitVec 6) (ty : Ty) (ord : BitVec 2) : Statement (.amoMax d a b ty ord) :=
  full rfl rfl ⟨_, rfl, by
    show Except.ok _ = _
    rw [field_6_4_8_2_at_1, field_6_4_8_2_at_3]
    rw [ofCode_code]⟩

theorem amoMinn (d : BitVec 6) (a : BitVec 6) (b : BitVec 6) (ty : Ty) (ord : BitVec 2) : Statement (.amoMinn d a b ty ord) :=
  full rfl rfl ⟨_, rfl, by
    show Except.ok _ = _
    rw [field_6_4_8_2_at_1, field_6_4_8_2_at_3]
    rw [ofCode_code]⟩

theorem amoMaxn (d : BitVec 6) (a : BitVec 6) (b : BitVec 6) (ty : Ty) (ord : BitVec 2) : Statement (.amoMaxn d a b ty ord) :=
  full rfl rfl ⟨_, rfl, by
    show Except.ok _ = _
    rw [field_6_4_8_2_at_1, field_6_4_8_2_at_3]
    rw [ofCode_code]⟩

theorem vamoSwap (v : VCtl) (d : BitVec 6) (a : BitVec 6) (b : BitVec 6) (c : BitVec 6) (ty : Ty) (mode : BitVec 2) (ret : BitVec 1) (ord : BitVec 2) (k : BitVec 2) : Statement (.vamoSwap v d a b c ty mode ret ord k) :=
  full rfl rfl ⟨_, rfl, by
    show Except.ok _ = _
    rw [field_6_4_1_2_1_2_2_2_at_0, field_6_4_1_2_1_2_2_2_at_1, field_6_4_1_2_1_2_2_2_at_3, field_6_4_1_2_1_2_2_2_at_4, field_6_4_1_2_1_2_2_2_at_5, field_6_4_1_2_1_2_2_2_at_7]
    rw [ofCode_code]⟩

theorem vamoCas (v : VCtl) (d : BitVec 6) (a : BitVec 6) (b : BitVec 6) (c : BitVec 6) (ty : Ty) (mode : BitVec 2) (ret : BitVec 1) (ord : BitVec 2) (k : BitVec 2) : Statement (.vamoCas v d a b c ty mode ret ord k) :=
  full rfl rfl ⟨_, rfl, by
    show Except.ok _ = _
    rw [field_6_4_1_2_1_2_2_2_at_0, field_6_4_1_2_1_2_2_2_at_1, field_6_4_1_2_1_2_2_2_at_3, field_6_4_1_2_1_2_2_2_at_4, field_6_4_1_2_1_2_2_2_at_5, field_6_4_1_2_1_2_2_2_at_7]
    rw [ofCode_code]⟩

theorem vamoAdd (v : VCtl) (d : BitVec 6) (a : BitVec 6) (b : BitVec 6) (c : BitVec 6) (ty : Ty) (mode : BitVec 2) (ret : BitVec 1) (ord : BitVec 2) (k : BitVec 2) : Statement (.vamoAdd v d a b c ty mode ret ord k) :=
  full rfl rfl ⟨_, rfl, by
    show Except.ok _ = _
    rw [field_6_4_1_2_1_2_2_2_at_0, field_6_4_1_2_1_2_2_2_at_1, field_6_4_1_2_1_2_2_2_at_3, field_6_4_1_2_1_2_2_2_at_4, field_6_4_1_2_1_2_2_2_at_5, field_6_4_1_2_1_2_2_2_at_7]
    rw [ofCode_code]⟩

theorem vamoFadd (v : VCtl) (d : BitVec 6) (a : BitVec 6) (b : BitVec 6) (c : BitVec 6) (ty : Ty) (mode : BitVec 2) (ret : BitVec 1) (ord : BitVec 2) (k : BitVec 2) : Statement (.vamoFadd v d a b c ty mode ret ord k) :=
  full rfl rfl ⟨_, rfl, by
    show Except.ok _ = _
    rw [field_6_4_1_2_1_2_2_2_at_0, field_6_4_1_2_1_2_2_2_at_1, field_6_4_1_2_1_2_2_2_at_3, field_6_4_1_2_1_2_2_2_at_4, field_6_4_1_2_1_2_2_2_at_5, field_6_4_1_2_1_2_2_2_at_7]
    rw [ofCode_code]⟩

theorem vamoAnd (v : VCtl) (d : BitVec 6) (a : BitVec 6) (b : BitVec 6) (c : BitVec 6) (ty : Ty) (mode : BitVec 2) (ret : BitVec 1) (ord : BitVec 2) (k : BitVec 2) : Statement (.vamoAnd v d a b c ty mode ret ord k) :=
  full rfl rfl ⟨_, rfl, by
    show Except.ok _ = _
    rw [field_6_4_1_2_1_2_2_2_at_0, field_6_4_1_2_1_2_2_2_at_1, field_6_4_1_2_1_2_2_2_at_3, field_6_4_1_2_1_2_2_2_at_4, field_6_4_1_2_1_2_2_2_at_5, field_6_4_1_2_1_2_2_2_at_7]
    rw [ofCode_code]⟩

theorem vamoOr (v : VCtl) (d : BitVec 6) (a : BitVec 6) (b : BitVec 6) (c : BitVec 6) (ty : Ty) (mode : BitVec 2) (ret : BitVec 1) (ord : BitVec 2) (k : BitVec 2) : Statement (.vamoOr v d a b c ty mode ret ord k) :=
  full rfl rfl ⟨_, rfl, by
    show Except.ok _ = _
    rw [field_6_4_1_2_1_2_2_2_at_0, field_6_4_1_2_1_2_2_2_at_1, field_6_4_1_2_1_2_2_2_at_3, field_6_4_1_2_1_2_2_2_at_4, field_6_4_1_2_1_2_2_2_at_5, field_6_4_1_2_1_2_2_2_at_7]
    rw [ofCode_code]⟩

theorem vamoXor (v : VCtl) (d : BitVec 6) (a : BitVec 6) (b : BitVec 6) (c : BitVec 6) (ty : Ty) (mode : BitVec 2) (ret : BitVec 1) (ord : BitVec 2) (k : BitVec 2) : Statement (.vamoXor v d a b c ty mode ret ord k) :=
  full rfl rfl ⟨_, rfl, by
    show Except.ok _ = _
    rw [field_6_4_1_2_1_2_2_2_at_0, field_6_4_1_2_1_2_2_2_at_1, field_6_4_1_2_1_2_2_2_at_3, field_6_4_1_2_1_2_2_2_at_4, field_6_4_1_2_1_2_2_2_at_5, field_6_4_1_2_1_2_2_2_at_7]
    rw [ofCode_code]⟩

theorem vamoMin (v : VCtl) (d : BitVec 6) (a : BitVec 6) (b : BitVec 6) (c : BitVec 6) (ty : Ty) (mode : BitVec 2) (ret : BitVec 1) (ord : BitVec 2) (k : BitVec 2) : Statement (.vamoMin v d a b c ty mode ret ord k) :=
  full rfl rfl ⟨_, rfl, by
    show Except.ok _ = _
    rw [field_6_4_1_2_1_2_2_2_at_0, field_6_4_1_2_1_2_2_2_at_1, field_6_4_1_2_1_2_2_2_at_3, field_6_4_1_2_1_2_2_2_at_4, field_6_4_1_2_1_2_2_2_at_5, field_6_4_1_2_1_2_2_2_at_7]
    rw [ofCode_code]⟩

theorem vamoMax (v : VCtl) (d : BitVec 6) (a : BitVec 6) (b : BitVec 6) (c : BitVec 6) (ty : Ty) (mode : BitVec 2) (ret : BitVec 1) (ord : BitVec 2) (k : BitVec 2) : Statement (.vamoMax v d a b c ty mode ret ord k) :=
  full rfl rfl ⟨_, rfl, by
    show Except.ok _ = _
    rw [field_6_4_1_2_1_2_2_2_at_0, field_6_4_1_2_1_2_2_2_at_1, field_6_4_1_2_1_2_2_2_at_3, field_6_4_1_2_1_2_2_2_at_4, field_6_4_1_2_1_2_2_2_at_5, field_6_4_1_2_1_2_2_2_at_7]
    rw [ofCode_code]⟩

theorem vamoMinn (v : VCtl) (d : BitVec 6) (a : BitVec 6) (b : BitVec 6) (c : BitVec 6) (ty : Ty) (mode : BitVec 2) (ret : BitVec 1) (ord : BitVec 2) (k : BitVec 2) : Statement (.vamoMinn v d a b c ty mode ret ord k) :=
  full rfl rfl ⟨_, rfl, by
    show Except.ok _ = _
    rw [field_6_4_1_2_1_2_2_2_at_0, field_6_4_1_2_1_2_2_2_at_1, field_6_4_1_2_1_2_2_2_at_3, field_6_4_1_2_1_2_2_2_at_4, field_6_4_1_2_1_2_2_2_at_5, field_6_4_1_2_1_2_2_2_at_7]
    rw [ofCode_code]⟩

theorem vamoMaxn (v : VCtl) (d : BitVec 6) (a : BitVec 6) (b : BitVec 6) (c : BitVec 6) (ty : Ty) (mode : BitVec 2) (ret : BitVec 1) (ord : BitVec 2) (k : BitVec 2) : Statement (.vamoMaxn v d a b c ty mode ret ord k) :=
  full rfl rfl ⟨_, rfl, by
    show Except.ok _ = _
    rw [field_6_4_1_2_1_2_2_2_at_0, field_6_4_1_2_1_2_2_2_at_1, field_6_4_1_2_1_2_2_2_at_3, field_6_4_1_2_1_2_2_2_at_4, field_6_4_1_2_1_2_2_2_at_5, field_6_4_1_2_1_2_2_2_at_7]
    rw [ofCode_code]⟩

theorem vgl (v : VCtl) (d : BitVec 6) (a : BitVec 6) (b : BitVec 6) (rm : Rm) (ty : Ty) (sat : BitVec 1) (mode : BitVec 2) (k : BitVec 2) : Statement (.vgl v d a b rm ty sat mode k) :=
  full rfl rfl ⟨_, rm_ofCode _, by
    show Except.ok _ = _
    rw [field_6_4_1_2_5_2_at_1, field_6_4_1_2_5_2_at_2, field_6_4_1_2_5_2_at_3, field_6_4_1_2_5_2_at_5]
    rw [ofCode_code]⟩

theorem vscc (v : VCtl) (d : BitVec 6) (a : BitVec 6) (b : BitVec 6) (c : BitVec 6) (ty : Ty) (mode : BitVec 2) (k : BitVec 2) : Statement (.vscc v d a b c ty mode k) :=
  full rfl rfl ⟨_, rfl, by
    show Except.ok _ = _
    rw [field_6_4_1_2_5_2_at_0, field_6_4_1_2_5_2_at_1, field_6_4_1_2_5_2_at_3, field_6_4_1_2_5_2_at_5]
    rw [ofCode_code]⟩

theorem xredAdd (v : VCtl) (d : BitVec 6) (a : BitVec 6) (ty : Ty) (g : BitVec 3) : Statement (.xredAdd v d a ty g) :=
  full rfl rfl ⟨_, rfl, by
    show Except.ok _ = _
    rw [field_6_4_7_3_at_1, field_6_4_7_3_at_3]
    rw [ofCode_code]⟩

theorem xredMin (v : VCtl) (d : BitVec 6) (a : BitVec 6) (ty : Ty) (g : BitVec 3) : Statement (.xredMin v d a ty g) :=
  full rfl rfl ⟨_, rfl, by
    show Except.ok _ = _
    rw [field_6_4_7_3_at_1, field_6_4_7_3_at_3]
    rw [ofCode_code]⟩

theorem xredMax (v : VCtl) (d : BitVec 6) (a : BitVec 6) (ty : Ty) (g : BitVec 3) : Statement (.xredMax v d a ty g) :=
  full rfl rfl ⟨_, rfl, by
    show Except.ok _ = _
    rw [field_6_4_7_3_at_1, field_6_4_7_3_at_3]
    rw [ofCode_code]⟩

theorem fence : Statement .fence := full rfl rfl ⟨_, rfl, rfl⟩

theorem fenceFab : Statement .fenceFab := full rfl rfl ⟨_, rfl, rfl⟩

theorem fenceFabAcq : Statement .fenceFabAcq := full rfl rfl ⟨_, rfl, rfl⟩

theorem fenceFabRel : Statement .fenceFabRel := full rfl rfl ⟨_, rfl, rfl⟩

theorem fenceFabAcqLoad (d : BitVec 6) (a : BitVec 6) : Statement (.fenceFabAcqLoad d a) := full rfl rfl ⟨_, rfl, rfl⟩

theorem fenceFabRelStore (a : BitVec 6) (b : BitVec 6) : Statement (.fenceFabRelStore a b) := full rfl rfl ⟨_, rfl, rfl⟩

theorem fencePool : Statement .fencePool := full rfl rfl ⟨_, rfl, rfl⟩

theorem fencePoolAcq : Statement .fencePoolAcq := full rfl rfl ⟨_, rfl, rfl⟩

theorem fencePoolRel : Statement .fencePoolRel := full rfl rfl ⟨_, rfl, rfl⟩

theorem fencePoolAcqLoad (d : BitVec 6) (a : BitVec 6) : Statement (.fencePoolAcqLoad d a) := full rfl rfl ⟨_, rfl, rfl⟩

theorem fencePoolRelStore (a : BitVec 6) (b : BitVec 6) : Statement (.fencePoolRelStore a b) := full rfl rfl ⟨_, rfl, rfl⟩

theorem waitTl (a : BitVec 6) (b : BitVec 6) : Statement (.waitTl a b) := full rfl rfl ⟨_, rfl, rfl⟩

theorem tlNext (d : BitVec 6) (a : BitVec 6) : Statement (.tlNext d a) := full rfl rfl ⟨_, rfl, rfl⟩

theorem twalk (v : VCtl) (d : BitVec 6) (a : BitVec 6) (b : BitVec 6) (c : BitVec 6) (ty : Ty) (gn : BitVec 4) : Statement (.twalk v d a b c ty gn) :=
  full rfl rfl ⟨_, rfl, by
    show (if (_ : BitVec 1) == _ then _ else _) = _
    rw [field_6_4_5_1_4_at_3, field_6_4_5_1_4_at_0, field_6_4_5_1_4_at_1, field_6_4_5_1_4_at_4]
    simp [ofCode_code]⟩

theorem twalkX (v : VCtl) (d : BitVec 6) (a : BitVec 6) (b : BitVec 6) (c : BitVec 6) (ty : Ty) (gn : BitVec 4) : Statement (.twalkX v d a b c ty gn) :=
  full rfl rfl ⟨_, rfl, by
    show (if (_ : BitVec 1) == _ then _ else _) = _
    rw [field_6_4_5_1_4_at_3, field_6_4_5_1_4_at_0, field_6_4_5_1_4_at_1, field_6_4_5_1_4_at_4]
    simp [ofCode_code]⟩

theorem twupd (d : BitVec 6) (a : BitVec 6) (b : BitVec 6) (c : BitVec 6) (ty : Ty) : Statement (.twupd d a b c ty) :=
  full rfl rfl ⟨_, rfl, by
    show Except.ok _ = _
    rw [field_6_4_10_at_0, field_6_4_10_at_1]
    rw [ofCode_code]⟩

theorem twrd (v : VCtl) (d : BitVec 6) (a : BitVec 6) (p : BitVec 2) : Statement (.twrd v d a p) :=
  full rfl rfl ⟨_, rfl, by
    show Except.ok _ = _
    rw [field_6_4_8_2_at_3]⟩

theorem twbuild (d : BitVec 6) (a : BitVec 6) (b : BitVec 6) (c : BitVec 6) (ty : Ty) : Statement (.twbuild d a b c ty) :=
  full rfl rfl ⟨_, rfl, by
    show Except.ok _ = _
    rw [field_6_4_10_at_0, field_6_4_10_at_1]
    rw [ofCode_code]⟩

theorem nop : Statement .nop := full rfl rfl ⟨_, rfl, rfl⟩

theorem yield_ : Statement .yield_ := full rfl rfl ⟨_, rfl, rfl⟩

theorem pf (a : BitVec 6) (disp : BitVec 9) : Statement (.pf a disp) :=
  full rfl rfl ⟨_, rfl, by
    show (if (_ : BitVec 1) == _ then _ else _) = _
    rw [field_9_1_1_9_at_1, field_9_1_1_9_at_3]
    simp⟩

theorem pfW (a : BitVec 6) (disp : BitVec 9) : Statement (.pfW a disp) :=
  full rfl rfl ⟨_, rfl, by
    show (if (_ : BitVec 1) == _ then _ else _) = _
    rw [field_9_1_1_9_at_1, field_9_1_1_9_at_3]
    simp⟩

theorem hintNop (fn : BitVec 6) (d : BitVec 6) (a : BitVec 6) (b : BitVec 6) (v : VCtl) (rm : Rm) (x : BitVec 20) : Statement (.hintNop fn d a b v rm x) := by
  refine fun hw => ⟨fun f hf => ⟨rfl, ?_⟩, fun _ h => nomatch h⟩
  cases hf
  refine ⟨_, rm_ofCode rm, ?_⟩
  have h : 2 < fn.toNat := by simpa [wellFormed] using hw
  show (match fn.toNat with | 0 => _ | 1 => _ | 2 => _ | _ => _) = _
  split <;> first | omega | rfl

theorem nopC : Statement .nopC := slot rfl rfl rfl

theorem addC (d : BitVec 5) (o : CArg) : Statement (.addC d o) := slot rfl rfl (by rw [rawSlot, slot_op, slot_d, slot_o, carg]; rfl)

theorem subC (d : BitVec 5) (o : CArg) : Statement (.subC d o) := slot rfl rfl (by rw [rawSlot, slot_op, slot_d, slot_o, carg]; rfl)

theorem mulC (d : BitVec 5) (o : CArg) : Statement (.mulC d o) := slot rfl rfl (by rw [rawSlot, slot_op, slot_d, slot_o, carg]; rfl)

theorem andC (d : BitVec 5) (o : CArg) : Statement (.andC d o) := slot rfl rfl (by rw [rawSlot, slot_op, slot_d, slot_o, carg]; rfl)

theorem orC (d : BitVec 5) (o : CArg) : Statement (.orC d o) := slot rfl rfl (by rw [rawSlot, slot_op, slot_d, slot_o, carg]; rfl)

theorem xorC (d : BitVec 5) (o : CArg) : Statement (.xorC d o) := slot rfl rfl (by rw [rawSlot, slot_op, slot_d, slot_o, carg]; rfl)

theorem andnC (d : BitVec 5) (o : CArg) : Statement (.andnC d o) := slot rfl rfl (by rw [rawSlot, slot_op, slot_d, slot_o, carg]; rfl)

theorem shlC (d : BitVec 5) (o : CArg) : Statement (.shlC d o) := slot rfl rfl (by rw [rawSlot, slot_op, slot_d, slot_o, carg]; rfl)

theorem shrC (d : BitVec 5) (o : CArg) : Statement (.shrC d o) := slot rfl rfl (by rw [rawSlot, slot_op, slot_d, slot_o, carg]; rfl)

theorem sraC (d : BitVec 5) (o : CArg) : Statement (.sraC d o) := slot rfl rfl (by rw [rawSlot, slot_op, slot_d, slot_o, carg]; rfl)

theorem minC (d : BitVec 5) (o : CArg) : Statement (.minC d o) := slot rfl rfl (by rw [rawSlot, slot_op, slot_d, slot_o, carg]; rfl)

theorem maxC (d : BitVec 5) (o : CArg) : Statement (.maxC d o) := slot rfl rfl (by rw [rawSlot, slot_op, slot_d, slot_o, carg]; rfl)

theorem minnC (d : BitVec 5) (o : CArg) : Statement (.minnC d o) := slot rfl rfl (by rw [rawSlot, slot_op, slot_d, slot_o, carg]; rfl)

theorem maxnC (d : BitVec 5) (o : CArg) : Statement (.maxnC d o) := slot rfl rfl (by rw [rawSlot, slot_op, slot_d, slot_o, carg]; rfl)

theorem liC (d : BitVec 5) (o : CArg) : Statement (.liC d o) := slot rfl rfl (by rw [rawSlot, slot_op, slot_d, slot_o, carg]; rfl)

theorem vaddC (d : BitVec 5) (o : CArg) : Statement (.vaddC d o) := slot rfl rfl (by rw [rawSlot, slot_op, slot_d, slot_o, carg]; rfl)

theorem vsubC (d : BitVec 5) (o : CArg) : Statement (.vsubC d o) := slot rfl rfl (by rw [rawSlot, slot_op, slot_d, slot_o, carg]; rfl)

theorem vmulC (d : BitVec 5) (o : CArg) : Statement (.vmulC d o) := slot rfl rfl (by rw [rawSlot, slot_op, slot_d, slot_o, carg]; rfl)

theorem vandC (d : BitVec 5) (o : CArg) : Statement (.vandC d o) := slot rfl rfl (by rw [rawSlot, slot_op, slot_d, slot_o, carg]; rfl)

theorem vorC (d : BitVec 5) (o : CArg) : Statement (.vorC d o) := slot rfl rfl (by rw [rawSlot, slot_op, slot_d, slot_o, carg]; rfl)

theorem vxorC (d : BitVec 5) (o : CArg) : Statement (.vxorC d o) := slot rfl rfl (by rw [rawSlot, slot_op, slot_d, slot_o, carg]; rfl)

theorem vshlC (d : BitVec 5) (o : CArg) : Statement (.vshlC d o) := slot rfl rfl (by rw [rawSlot, slot_op, slot_d, slot_o, carg]; rfl)

theorem vshrC (d : BitVec 5) (o : CArg) : Statement (.vshrC d o) := slot rfl rfl (by rw [rawSlot, slot_op, slot_d, slot_o, carg]; rfl)

theorem vsraC (d : BitVec 5) (o : CArg) : Statement (.vsraC d o) := slot rfl rfl (by rw [rawSlot, slot_op, slot_d, slot_o, carg]; rfl)

theorem vminC (d : BitVec 5) (o : CArg) : Statement (.vminC d o) := slot rfl rfl (by rw [rawSlot, slot_op, slot_d, slot_o, carg]; rfl)

theorem vmaxC (d : BitVec 5) (o : CArg) : Statement (.vmaxC d o) := slot rfl rfl (by rw [rawSlot, slot_op, slot_d, slot_o, carg]; rfl)

theorem vfaddC (d : BitVec 5) (o : CArg) : Statement (.vfaddC d o) := slot rfl rfl (by rw [rawSlot, slot_op, slot_d, slot_o, carg]; rfl)

theorem vfsubC (d : BitVec 5) (o : CArg) : Statement (.vfsubC d o) := slot rfl rfl (by rw [rawSlot, slot_op, slot_d, slot_o, carg]; rfl)

theorem vfmulC (d : BitVec 5) (o : CArg) : Statement (.vfmulC d o) := slot rfl rfl (by rw [rawSlot, slot_op, slot_d, slot_o, carg]; rfl)

theorem vfminC (d : BitVec 5) (o : CArg) : Statement (.vfminC d o) := slot rfl rfl (by rw [rawSlot, slot_op, slot_d, slot_o, carg]; rfl)

theorem vfmaxC (d : BitVec 5) (o : CArg) : Statement (.vfmaxC d o) := slot rfl rfl (by rw [rawSlot, slot_op, slot_d, slot_o, carg]; rfl)

end Sys2Proof.Laws.Wf
end

