-- ==== Sys2Proof/Laws/Run.lean ====
section
/-!
SUPPORT. How an instruction that completes as it issues retires: what `run` comes to where the strand has nothing else
in flight.
-/

namespace Sys2Proof.Machine

/-- The state in which the only convoy of the strand is open, and the entry of its instruction before it fires. -/
def State.opened (s : State) (p : Plan) : State × Entry :=
  let s1 := s.openConvoy
  let n := match p.len with
    | none => 0
    | some ls => s1.len ls
  (s1, { Entry.start s.cur.word s.cur.slotB s.cur.pos n p with
    chk := false, stamp := s1.cycle, aux := p.copies s1, args := captureArgs s1.me.r p.reads, flt := none, held := false
    pend := [] })

/-- Where the strand continues after a complete instruction. -/
def Plan.nextPc (p : Plan) (e : Entry) (succ : Word) : Word := if p.cls == .c then e.res else succ

/-- What is left when a convoy of one complete instruction retires. -/
def State.retired (s : State) (p : Plan) (e : Entry) : State :=
  let s1 := s.setMe ((s.me.issuedAt (p.nextPc e s.cur.succ) s.cycle).pass)
  (if s.curCore.holder == some s.cur.slot then s1.setCore s.cur.core (s1.curCore.commit [e]) else s1).setNote .ok

/-! ### Opening a convoy -/

@[simp] theorem State.me_openConvoy (s : State) :
    s.openConvoy.me = s.me.begin ⟨s.cur.base, s.cur.nwords, s.me.r, [], none, false⟩ := by
  simp [State.openConvoy]

@[simp] theorem State.openConvoy_cur (s : State) : s.openConvoy.cur = s.cur := rfl

@[simp] theorem State.curCore_openConvoy (s : State) :
    s.openConvoy.curCore = s.curCore.place s.cur.slot s.openConvoy.me := by
  simp [State.openConvoy]

theorem State.overwrite_of_lost {s : State} (p : Plan) (h : s.me.lost = []) : s.overwrite p = s := by
  simp [State.overwrite, h]

@[simp] theorem Name.writeWaits_nil (n : Name) : n.writeWaits [] = false := by cases n <;> simp [Name.writeWaits]

theorem blockedBy_nil (p : Plan) : blockedBy p [] = false := by simp [blockedBy]

/-- The state after the issue of an instruction that completes at once, its convoy being the only one in flight. -/
theorem Plan.issue_of_idle {p : Plan} {s : State} (h : s.idleStrand) (hk : p.chk = false ∨ s.curCore.dmode = 0) :
    p.issue s =
      let r := p.fire (s.opened p).1 [] (s.opened p).2
      r.1.setMe (r.1.me.mapLast (Convoy.add (r.2.settlePend p))) := by
  obtain ⟨-, hpos, -, hfl, -, -, -, -, hlost⟩ := h
  have e0 : s.openConvoy.overwrite p = s.openConvoy := State.overwrite_of_lost _ (by simp [hlost])
  have e1 : s.openConvoy.me.olderAll = [] := by simp [Strand.olderAll, hfl]
  have e2 : p.enqueue s.openConvoy = (s.openConvoy, false) := by
    rcases hk with hk | hk <;> simp [Plan.enqueue, hk]
  have e3 : s.openConvoy.me.same = [] := by simp [Strand.same]
  simp only [Plan.issue, hpos, e0, if_true, e2, e3, blockedBy_nil, Bool.false_eq_true, if_false, Plan.fireNow, e1]
  simp only [State.opened, State.openConvoy_cur, hpos, Entry.start, List.isEmpty_nil, if_true]
  all_goals rfl

/-! ### Settling -/

/-- A strand with these convoys in flight. -/
def Strand.setFlight (t : Strand) (f : List Convoy) : Strand := { t with flight := f }

theorem Strand.mapLast_one {t : Strand} {c : Convoy} (h : t.flight = [c]) (f : Convoy → Convoy) :
    t.mapLast f = t.setFlight [f c] := by
  simp [Strand.mapLast, h, Strand.setFlight]

/-- Closing a convoy of one complete instruction. -/
theorem Plan.close_one {p : Plan} {s : State} {t : Strand} {c : Convoy} {e : Entry} (ht : t.flight = [c])
    (hc : c.entries = [e]) (hd : e.done = true) :
    p.close (s.setMe t) = s.setMe ((t.setFlight [c.close (some (p.nextPc e s.cur.succ))]).issuedAt
      (p.nextPc e s.cur.succ) s.cycle) := by
  have hn : nextOf p e s.cur.succ = some (p.nextPc e s.cur.succ) := by
    unfold nextOf Plan.nextPc; split <;> simp_all
  simp [Plan.close, ht, hc, hn, Strand.mapLast_one ht]

/-- Nothing is left to fire in a flight of one complete instruction. -/
theorem State.pump_done {s : State} {core slot : Nat} {t : Strand} {c : Convoy} {e : Entry}
    (ht : t.flight = [c]) (hc : c.entries = [e]) (hd : e.done = true) (ha : e.again = false) :
    ∃ cur, (s.setStrand core slot t).pump core slot = (s.setStrand core slot t).setCur cur := by
  refine ⟨((s.setStrand core slot t).aim core slot c e).cur, ?_⟩
  simp [State.pump, ht, hc, State.pumpOne, hd, ha, State.aim]

/-- Committing no vector results changes nothing. -/
theorem Core.commit_none {k : Core} {e : Entry} (hv : e.vd = []) (hq : e.qd = []) : k.commit [e] = k := by
  simp [Core.commit, hv, hq]

theorem Core.commit_slots (k : Core) (es : List Entry) : (k.commit es).slots = k.slots := by
  unfold Core.commit
  induction es generalizing k with
  | nil => rfl
  | cons e es ih => rw [List.foldl_cons, ih]

/-- A strand whose only convoy is one complete instruction settles by retiring it. -/
theorem State.settle_done {s : State} {core slot : Nat} {t : Strand} {c : Convoy} {e : Entry} (n : Nat)
    (ht : t.flight = [c]) (hc : c.entries = [e]) (hcl : c.closed = true) (hd : e.done = true) (ha : e.again = false)
    (hflt : e.flt = none) (hbad : e.bad = none) (hchk : e.chk = false) (hend : e.ending = .none)
    (hs : t.stopped = false) (hp : t.pend = none) (hv : t.vec = none) :
    ∃ cur, (s.setStrand core slot t).settle core slot (n + 2) = .next
      (State.setCur (let s1 := s.setStrand core slot t.pass
         if (s.core core).holder == some slot then s1.setCore core ((s1.core core).commit [e]) else s1) cur) := by
  obtain ⟨cur, hpump⟩ := State.pump_done (s := s) (core := core) (slot := slot) ht hc hd ha
  have hf : c.fault = none := by simp [Convoy.fault, hc, Entry.fault, hflt, hbad]
  have hver : t.verdict = .retire c := by simp [Strand.verdict, ht, hcl, hf, hc, hd, Entry.agreed, hchk]
  have hsettle : (s.setStrand core slot t).settle core slot (n + 2) =
      (State.retireConvoy ((s.setStrand core slot t).setCur cur) core slot c).settle core slot (n + 1) := by
    rw [State.settle]
    simp [hs, hp, State.retakeLanes, hv, ht, hpump, hver]
  have hret : ∃ cur', State.retireConvoy ((s.setStrand core slot t).setCur cur) core slot c =
      State.setCur (let s1 := s.setStrand core slot t.pass
         if (s.core core).holder == some slot then s1.setCore core ((s1.core core).commit [e]) else s1) cur' := by
    simp only [State.retireConvoy, State.setCur_strandAt, State.strandAt_setStrand_self, hc, List.foldl_cons, List.foldl_nil,
      Ending.run, hend, State.aim, State.setCur_setStrand, State.setStrand_setStrand, State.setCur_core,
      State.core_setStrand_self, Core.place_holder]
    split <;> exact ⟨_, rfl⟩
  obtain ⟨cur', hret⟩ := hret
  refine ⟨cur', ?_⟩
  rw [hsettle, hret, State.settle]
  have hat : (State.setCur (let s1 := s.setStrand core slot t.pass
         if (s.core core).holder == some slot then s1.setCore core ((s1.core core).commit [e]) else s1) cur').strandAt core slot
        = some t.pass := by
    simp only [State.setCur_strandAt]
    split
    · have hne : ((s.setStrand core slot t.pass).core core).commit [e] ≠ Core.start := Core.ne_start (by
        rw [Core.commit_slots, State.core_setStrand_self]; exact Tab.put_ne_nil _ _ _)
      rw [State.strandAt, State.core_setCore_self _ _ hne, Core.commit_slots, State.core_setStrand_self]
      simp
    · simp
  generalize State.setCur _ cur' = s2 at hat ⊢
  simp [hat, hs, hp, ht, State.retakeLanes, hv]

/-! ### The meaning of an instruction that completes as it issues -/

/-- An instruction whose convoy is the only one of its strand, that may issue, fires to completion and leaves nothing to
its retirement but the commitment of its results. -/
theorem run_completes {p : Plan} {s s1 : State} {e1 : Entry} (h : s.idleStrand) (hl : p.lvl.num ≤ s.me.lvl.num)
    (hr : p.reasons s = []) (hc : p.checks s = none) (hk : p.chk = false ∨ s.curCore.dmode = 0)
    (hf : p.fire (s.opened p).1 [] (s.opened p).2 = (s1, e1))
    (hd : e1.done = true) (hflt : e1.flt = none) (hbad : e1.bad = none) (hchk : e1.chk = false) (hend : e1.ending = .none)
    (hag : e1.again = false) (hcur : s1.cur = s.cur) (hfl : ∃ c : Convoy, s1.me.flight = [c] ∧ c.entries = [])
    (hst : s1.me.stopped = false) (hp : s1.me.pend = none) (hv : s1.me.vec = none) :
    run p s = .next (s1.retired p e1) := by
  have hsome := State.strandAt_me h.1
  have hlast : s.cur.last = true := h.2.2.1
  obtain ⟨c, hone, hce⟩ := hfl
  have hpriv : p.privileged s = none := by simp [Plan.privileged, require, hl]
  have hiss : p.issue s = s1.setMe (s1.me.mapLast (Convoy.add (e1.settlePend p))) := by
    rw [Plan.issue_of_idle h hk, hf]
  simp only [run, hsome, hpriv, hr, hc]
  rw [show e1.settlePend p = { e1 with pend := [] } by simp [Entry.settlePend, hd]] at hiss
  simp only [hiss, Strand.mapLast_one hone, State.setNote_cur, State.setMe_cur, hcur, hlast, if_true]
  have hadd : (Convoy.add { e1 with pend := [] } c).entries = [{ e1 with pend := [] }] := by simp [Convoy.add, hce]
  rw [← State.setNote_setMe, Plan.close_one (p := p) (c := Convoy.add { e1 with pend := [] } c)
    (e := { e1 with pend := [] }) rfl hadd hd]
  simp only [State.settleAt, State.setMe_cur, State.setNote_cur, hcur]
  obtain ⟨cur, hset⟩ := State.settle_done (s := s1.setNote .ok) (core := s.cur.core) (slot := s.cur.slot)
    (t := (s1.me.setFlight [Convoy.close (some (p.nextPc e1 s.cur.succ))
      (Convoy.add { e1 with pend := [] } c)]).issuedAt
        (p.nextPc e1 s.cur.succ) s1.cycle) 62 rfl hadd rfl hd hag hflt hbad hchk hend hst hp hv
  have hfold : ∀ u : Strand, (s1.setNote .ok).setStrand s.cur.core s.cur.slot u = (s1.setNote .ok).setMe u := by
    intro u; simp only [State.setMe, State.setNote_cur, hcur]
  rw [hfold] at hset
  have h2 : settleFuel = 62 + 2 := rfl
  rw [h2]
  erw [hset]
  have hpass : ∀ c : Convoy, ((s1.me.setFlight [c]).issuedAt (p.nextPc e1 s.cur.succ) s1.cycle).pass =
      (s1.me.issuedAt (p.nextPc e1 s.cur.succ) s1.cycle).pass := by
    intro c; simp [Strand.pass, Strand.setFlight, Strand.issuedAt, hone]
  simp only [State.retired, hcur, hpass, State.setCur_setCur, State.setMe, State.curCore]
  have hid : ∀ x : State, x.cur = s.cur → x.setCur s.cur = x := by
    intro x hx; rw [← hx]; rfl
  simp only [State.setNote_core, State.setNote_setStrand, State.setStrand_cur, hcur]
  by_cases hh : ((s1.core s.cur.core).holder == some s.cur.slot) = true
  · simp only [hh, if_true]
    exact congrArg Host.Outcome.next (hid _ (by exact hcur))
  · simp only [hh]
    exact congrArg Host.Outcome.next (hid _ (by exact hcur))

/-! ### The checks of an instruction whose strand has nothing else in flight -/

/-- R81: such an instruction waits only for what its own entry names. -/
theorem reasons_idle {p : Plan} {s : State} (h : s.idleStrand) (hl : p.lanes = true → s.holdsLanes = true)
    (hn : p.renames s.curCore = true) (hk : p.chk = false ∨ s.curCore.dmode = 0) (hw : p.waits s = []) :
    p.reasons s = [] := by
  obtain ⟨-, hpos, -, hfl, -, -, hmon, hvec, hlost⟩ := h
  have h1 : s.me.monitor = none := by simpa using hmon
  have h2 : s.me.vec = none := by simpa using hvec
  have h3 : p.queueFull s = false := by rcases hk with hk | hk <;> simp [Plan.queueFull, hk]
  have h4 : (p.lanes && !s.holdsLanes) = false := by
    cases hp : p.lanes
    · rfl
    · simp [hl hp]
  simp [Plan.reasons, Plan.boarded, Strand.pending, hfl, hn, h3, h4, hw, h1, h2, Strand.atBarrier, Strand.same, blockedBy]

/-- R49: such an instruction is stopped only by what its own entry names. -/
theorem checks_idle {p : Plan} {s : State} (h : s.idleStrand) (hp : p.frame = true ∨ s.me.r.plink.isNone = true)
    (hl : p.lanes = true → s.holdsLanes = true) (hw : p.check s = none) : p.checks s = none := by
  have hlost : s.me.lost = [] := h.2.2.2.2.2.2.2.2
  have h1 : p.frameCheck s = none := by rcases hp with hp | hp <;> simp [Plan.frameCheck, hp, require]
  have h2 : (!p.lanes || s.holdsLanes) = true := by
    cases hp : p.lanes
    · rfl
    · simp [hl hp]
  simp [Plan.checks, Plan.checksWith, h1, h2, hw, require, firstTrap, Plan.lostCheck, hlost, List.find?_eq_none.2]

/-- A name that is no vector or mask register. -/
def Name.plain (n : Name) : Bool := n.vreg.isNone && n.qreg.isNone

/-- A plan that writes no vector or mask register needs no physical register (R138). -/
theorem renames_of_plain {p : Plan} {k : Core} (h : p.writes.all Name.plain = true) :
    p.renames k = true ∧ p.freshVs = [] ∧ p.freshQs = [] := by
  have h1 : p.writes.filterMap Name.vreg = [] := by
    rw [List.filterMap_eq_nil_iff]; intro n hn; have := List.all_eq_true.1 h n hn; simp [Name.plain] at this; exact this.1
  have h2 : p.writes.filterMap Name.qreg = [] := by
    rw [List.filterMap_eq_nil_iff]; intro n hn; have := List.all_eq_true.1 h n hn; simp [Name.plain] at this; exact this.2
  exact ⟨by simp [Plan.renames, h1, h2], by simp [Plan.freshVs, h1], by simp [Plan.freshQs, h2]⟩

theorem sname_plain (d : BitVec 6) : (sname d).all Name.plain = true := by
  unfold sname; split <;> rfl

/-! ### Instructions without vector results -/

/-- Retirement commits nothing where there is no vector or mask result. -/
theorem State.retired_plain {s : State} {p : Plan} {e : Entry} (hv : e.vd = []) (hq : e.qd = []) :
    s.retired p e = (s.setMe ((s.me.issuedAt (p.nextPc e s.cur.succ) s.cycle).pass)).setNote .ok := by
  simp only [State.retired, Core.commit_none hv hq]
  split
  · rw [State.curCore_setMe, State.setMe, State.setStrand_setCore _ _ _ _ (Core.place_ne _ _ _)]
    rfl
  · rfl

/-- Passing a strand that opened a convoy and has done nothing with it. -/
theorem Strand.begin_pass {t : Strand} (h : t.flight = []) (c : Convoy) (r : Scalars) (pc : Word) (n : Nat) :
    (((t.begin c).setR r).issuedAt pc n).pass = (t.setR r).passed pc n := by
  simp [Strand.pass, Strand.issuedAt, Strand.setR, Strand.begin, Strand.passed, h]

theorem State.openConvoy_setMe (s : State) (t : Strand) : s.openConvoy.setMe t = s.setMe t := by
  simp [State.openConvoy]

@[simp] theorem State.openConvoy_val (s : State) (a : BitVec 6) : s.openConvoy.val a = s.val a := by
  simp [State.val]

@[simp] theorem State.openConvoy_cycle (s : State) : s.openConvoy.cycle = s.cycle := rfl

/-- An instruction that only writes scalar state `r`, worked out from the state at issue, completes so. -/
theorem run_setR {p : Plan} {s : State} {r : Scalars} {e : Entry} (h : s.idleStrand)
    (hp : p.frame = true ∨ s.me.r.plink.isNone = true) (hlvl : p.lvl.num ≤ s.me.lvl.num)
    (hl : p.lanes = true → s.holdsLanes = true) (hk : p.chk = false ∨ s.curCore.dmode = 0) (hw : p.waits s = [])
    (hc : p.check s = none) (hwr : p.writes.all Name.plain = true) (he : p.ending = .none)
    (hf : p.fire s.openConvoy [] (s.opened p).2 = (s.openConvoy.setR r, e))
    (hee : ∃ v a, e = { (s.opened p).2 with done := true, pend := [], res := v, aux := a }) :
    run p s = .next ((s.setR r).passTo (p.nextPc e s.cur.succ)) := by
  obtain ⟨hn, hv, hq⟩ := renames_of_plain (k := s.curCore) hwr
  have hfl : s.me.flight = [] := h.2.2.2.1
  have hst : s.me.stopped = false := h.2.2.2.2.1
  have hpe : s.me.pend.isNone = true := h.2.2.2.2.2.1
  have hve : s.me.vec.isNone = true := h.2.2.2.2.2.2.2.1
  obtain ⟨v, a, rfl⟩ := hee
  rw [run_completes h hlvl (reasons_idle h hl hn hk hw) (checks_idle h hp hl hc) hk hf rfl rfl rfl rfl he rfl rfl
    (by simp [hfl]) (by simpa using hst) (by simpa using hpe) (by simpa using hve)]
  rw [State.retired_plain hv hq]
  simp only [State.me_setR, State.me_openConvoy, State.setR_cur, State.openConvoy_cur, State.setR_cycle,
    State.openConvoy_cycle, Strand.begin_pass hfl, State.passTo]
  simp only [State.setR, State.setMe_setMe, State.openConvoy_setMe]

/-- An instruction with a scalar result completes by giving it (R100). -/
theorem run_scalar {p : Plan} {s : State} {d : BitVec 6} {f : State → Word} (h : s.alone)
    (hlvl : p.lvl.num ≤ s.me.lvl.num) (hl : p.lanes = false) (hk : p.chk = false) (hw : p.waits s = [])
    (hc : p.check s = none) (hcls : (p.cls == .c) = false) (hwr : p.writes = sname d) (he : p.ending = .none)
    (hf : p.fire = Plan.scalar d f) (hff : f s.openConvoy = f s) : run p s = .next (s.gave d (f s)) := by
  have := run_setR (p := p) (s := s) (r := s.me.r.put d.toNat (f s))
    (e := { (s.opened p).2 with done := true, pend := [], res := f s }) h.1 (.inr h.2) hlvl (by simp [hl]) (.inl hk) hw hc
    (by rw [hwr]; exact sname_plain d) he (by rw [hf]; simp [Plan.scalar, hff, State.setVal]) ⟨_, _, rfl⟩
  rw [this]
  simp [State.gave, State.passOn, Plan.nextPc, hcls, State.setVal]

end Sys2Proof.Machine
end

