-- ==== Sys2Proof/Laws/Scalar.lean ====
section
/-!
SUPPORT. What the plans of the common scalar shapes come to when they run alone: one lemma per shape.
-/

namespace Sys2Proof.Machine

theorem Plan.lvl_le_of_u {p : Plan} {s : State} (h : p.lvl = .u) : p.lvl.num ≤ s.me.lvl.num := by simp [h, Level.num]

variable {s : State} {d a b : BitVec 6}

theorem run_binary (h : s.alone) (f : Word → Word → Word) :
    run (binary d a b f) s = .next (s.gave d (f (s.val a) (s.val b))) :=
  run_scalar (f := fun s => f (s.val a) (s.val b)) h (Plan.lvl_le_of_u rfl) rfl rfl rfl rfl rfl rfl rfl rfl (by simp)

theorem run_withImm (h : s.alone) (x : BitVec 20) (f : Word → Word → Word) :
    run (withImm d a x f) s = .next (s.gave d (f (s.val a) (imm20 x))) :=
  run_scalar (f := fun s => f (s.val a) (imm20 x)) h (Plan.lvl_le_of_u rfl) rfl rfl rfl rfl rfl rfl rfl rfl (by simp)

theorem run_unary (h : s.alone) (f : Word → Word) : run (unary d a f) s = .next (s.gave d (f (s.val a))) :=
  run_scalar (f := fun s => f (s.val a)) h (Plan.lvl_le_of_u rfl) rfl rfl rfl rfl rfl rfl rfl rfl (by simp)

@[simp] theorem State.openConvoy_argVal (s : State) (o : CArg) : argVal o s.openConvoy = argVal o s := by
  cases o <;> simp [argVal]

theorem run_compact (h : s.alone) (d : BitVec 5) (o : CArg) (f : Word → Word → Word) :
    run (compact d o f) s = .next (s.gave (slotReg d) (f (s.val (slotReg d)) (argVal o s))) :=
  run_scalar (f := fun s => f (s.val (slotReg d)) (argVal o s)) h (Plan.lvl_le_of_u rfl) rfl rfl rfl rfl rfl rfl rfl rfl
    (by simp)

/-- A scalar floating-point instruction gives its result and adds its flags to FCTL (R111, R121). -/
theorem run_floating (h : s.alone) (reads : List Name) (f : State → Word × Word) (hf : f s.openConvoy = f s) :
    run (floating d reads f) s = .next (s.wrote
      { s.me.r.put d.toNat (f s).1 with fctl := (s.me.r.put d.toNat (f s).1).fctl ||| (f s).2 }) := by
  rw [run_setR (p := floating d reads f) (r := { s.me.r.put d.toNat (f s).1 with
      fctl := (s.me.r.put d.toNat (f s).1).fctl ||| (f s).2 })
    (e := { (s.opened (floating d reads f)).2 with done := true, pend := [], res := (f s).1 }) h.1 (.inr h.2)
    (Plan.lvl_le_of_u rfl) (by simp [floating]) (.inl rfl) rfl rfl (by simp [floating, sname_plain, Name.plain, Name.vreg, Name.qreg]) rfl
    (by simp [floating, hf, State.setVal]) ⟨_, _, rfl⟩]
  rfl

theorem State.openConvoy_setR_self (s : State) : s.openConvoy.setR s.me.r = s.openConvoy := by
  simp only [State.setR, State.me_openConvoy]
  simp only [State.openConvoy, State.setMe_setMe]
  rfl

theorem State.setR_self_passTo (s : State) (pc : Word) : (s.setR s.me.r).passTo pc = s.passTo pc := by
  simp only [State.passTo, State.setR, State.me_setMe, State.setMe_cycle, State.setMe_setMe]
  rfl

/-- A branch changes nothing but PC (R92, R95). -/
theorem run_branch (h : s.alone) (reads : List Name) (off : BitVec 20) (taken : State → Bool)
    (ht : taken s.openConvoy = taken s) :
    run (branch reads off taken) s =
      .next (s.passTo (if taken s then s.cur.base + (imm20 off <<< 3) else s.cur.succ)) := by
  have hme := State.openConvoy_setR_self s
  rw [run_setR (p := branch reads off taken) (r := s.me.r)
    (e := { (s.opened (branch reads off taken)).2 with
      done := true, pend := [], res := if taken s then s.cur.base + (imm20 off <<< 3) else s.cur.succ }) h.1 (.inr h.2)
    (Plan.lvl_le_of_u rfl) (by simp [branch]) (.inl rfl) rfl rfl rfl rfl
    (by simp [branch, ht, hme]) ⟨_, _, rfl⟩]
  rw [State.setR_self_passTo]
  rfl

/-- An instruction that completes as it issues and changes nothing. -/
theorem run_nothing {p : Plan} (h : s.alone) (hlvl : p.lvl = .u) (hl : p.lanes = false) (hk : p.chk = false)
    (hw : p.waits s = []) (hc : p.check s = none) (hcls : (p.cls == .c) = false) (hwr : p.writes = []) (he : p.ending = .none)
    (hf : p.fire = Plan.now id) : run p s = .next s.passOn := by
  have hme := State.openConvoy_setR_self s
  rw [run_setR (p := p) (r := s.me.r) (e := { (s.opened p).2 with done := true, pend := [] }) h.1 (.inr h.2)
    (Plan.lvl_le_of_u hlvl) (by simp [hl]) (.inl hk) hw hc (by simp [hwr]) he
    (by simp [hf, Plan.now, hme]) ⟨_, _, rfl⟩]
  rw [State.setR_self_passTo]
  simp [Plan.nextPc, hcls, State.passOn]

end Sys2Proof.Machine
end

