-- ==== Sys2Proof/Laws/VReg.lean ====
section
/-!
SUPPORT. Laws of vector and mask registers: an element reads as what was put, and a put leaves the other elements alone.
-/

namespace Sys2Proof.Machine

/-- An element group's lane and row tell which it is (R12, R127). -/
theorem groupRow_groupLane (w k : Nat) : w * groupRow w k + groupLane w k = k := Nat.div_add_mod k w
theorem groupLane_lt {w : Nat} (k : Nat) (h : 0 < w) : groupLane w k < w := Nat.mod_lt k h

theorem getLsbD_putBits {m : Nat} (x : BitVec m) (lo w v i : Nat) :
    (putBits x lo w v).getLsbD i =
      if lo ≤ i ∧ i < lo + w then decide (i < m) && v.testBit (i - lo) else x.getLsbD i := by
  simp only [putBits, BitVec.getLsbD_or, BitVec.getLsbD_and, BitVec.getLsbD_not, BitVec.getLsbD_shiftLeft,
    BitVec.getLsbD_ofNat, Nat.testBit_two_pow_sub_one, Nat.testBit_mod_two_pow]
  by_cases hm : i < m
  · by_cases h1 : i < lo
    · have : ¬ (lo ≤ i ∧ i < lo + w) := by omega
      simp [hm, h1, this]
    · by_cases h2 : i < lo + w
      · have h3 : i - lo < w := by omega
        have h4 : i - lo < m := by omega
        have h5 : lo ≤ i := by omega
        simp [hm, h1, h2, h3, h4, h5]
      · have h3 : ¬ i - lo < w := by omega
        have h5 : ¬ (lo ≤ i ∧ i < lo + w) := by omega
        simp [hm, h1, h3, h5]
  · have : x.getLsbD i = false := BitVec.getLsbD_of_ge x i (by omega)
    simp [hm, this]

theorem testBit_getBits {m : Nat} (x : BitVec m) (lo w i : Nat) :
    (getBits x lo w).testBit i = (decide (i < w) && x.getLsbD (lo + i)) := by
  rw [getBits, Nat.testBit_mod_two_pow, ← Nat.shiftRight_eq_div_pow, Nat.testBit_shiftRight]
  rfl

/-- A field reads as what was put. -/
theorem getBits_putBits_self {m : Nat} (x : BitVec m) (lo w v : Nat) (h : lo + w ≤ m) :
    getBits (putBits x lo w v) lo w = v % 2 ^ w := by
  apply Nat.eq_of_testBit_eq
  intro i
  rw [testBit_getBits, getLsbD_putBits, Nat.testBit_mod_two_pow]
  by_cases hi : i < w
  · rw [if_pos (by omega)]
    have : lo + i < m := by omega
    simp [hi, this]
  · simp [hi]

/-- A put leaves a field beside it alone. -/
theorem getBits_putBits_ne {m : Nat} (x : BitVec m) (lo w v lo' w' : Nat) (h : lo' + w' ≤ lo ∨ lo + w ≤ lo') :
    getBits (putBits x lo w v) lo' w' = getBits x lo' w' := by
  apply Nat.eq_of_testBit_eq
  intro i
  rw [testBit_getBits, testBit_getBits, getLsbD_putBits]
  by_cases hi : i < w'
  · rw [if_neg (by omega)]
  · simp [hi]

/-- What an element reads as after it is put: a value keeps `w` bits. -/
def Elt.cut (w : Nat) : Elt → Elt
  | .full v => .full (v % 2 ^ w)
  | .empty => .empty
  | .poison => .poison

/-- An element reads as what was put. -/
theorem VReg.get_put_self (r : VReg) {w i : Nat} (e : Elt) (hw : w ∈ [8, 16, 32, 64, 128]) (hi : w * i + w ≤ 16384) :
    (r.put w i e).get w i = e.cut w := by
  have h8 : 8 * (w / 8) = w := by simp only [List.mem_cons, List.not_mem_nil, or_false] at hw; omega
  have hb : ¬ 8 * (w / 8) * i + w > 16384 := by rw [h8]; omega
  have ht : 2 * (w / 8) * i + 2 * (w / 8) ≤ 4096 := by
    have : 8 * (w / 8) * i = 4 * (2 * (w / 8) * i) := by ring
    rw [h8] at this
    omega
  cases e with
  | empty =>
    simp only [VReg.put, VReg.get, if_neg hb, getBits_putBits_self _ _ _ _ ht]
    simp only [List.mem_cons, List.not_mem_nil, or_false] at hw
    rcases hw with rfl | rfl | rfl | rfl | rfl <;> rfl
  | full v =>
    simp only [VReg.put, VReg.get, if_neg hb, getBits_putBits_self _ _ _ _ ht, getBits_putBits_self _ _ _ _ hi]
    simp only [List.mem_cons, List.not_mem_nil, or_false] at hw
    rcases hw with rfl | rfl | rfl | rfl | rfl <;> rfl
  | poison =>
    simp only [VReg.put, VReg.get, if_neg hb, getBits_putBits_self _ _ _ _ ht]
    simp only [List.mem_cons, List.not_mem_nil, or_false] at hw
    rcases hw with rfl | rfl | rfl | rfl | rfl <;> rfl

/-- A put leaves the other elements of its width alone. -/
theorem VReg.get_put_ne (r : VReg) {w i j : Nat} (e : Elt) (h : i ≠ j) : (r.put w i e).get w j = r.get w j := by
  have sep : ∀ n : Nat, n * j + n ≤ n * i ∨ n * i + n ≤ n * j := by
    intro n
    rcases Nat.lt_or_gt_of_ne h with h | h
    · exact .inr (by have := Nat.mul_le_mul_left n (Nat.succ_le_of_lt h); rw [Nat.mul_succ] at this; exact this)
    · exact .inl (by have := Nat.mul_le_mul_left n (Nat.succ_le_of_lt h); rw [Nat.mul_succ] at this; exact this)
  have hd := sep w
  have ht := sep (2 * (w / 8))
  cases e <;> simp only [VReg.put, VReg.get, getBits_putBits_ne _ _ _ _ _ _ ht, getBits_putBits_ne _ _ _ _ _ _ hd]

/-- A mask bit reads as what was put. -/
theorem QReg.get_put_self (r : QReg) {i : Nat} (e : Elt) (hi : i < 2048) : (r.put i e).get i = e.cut 1 := by
  have h1 : ¬ 2048 ≤ i := by omega
  have h2 : 2 * i + 2 ≤ 4096 := by omega
  have h3 : i + 1 ≤ 2048 := by omega
  cases e <;> simp only [QReg.put, QReg.get, if_neg h1, getBits_putBits_self _ _ _ _ h2, getBits_putBits_self _ _ _ _ h3] <;> rfl

/-- A put leaves the other bits alone. -/
theorem QReg.get_put_ne (r : QReg) {i j : Nat} (e : Elt) (h : i ≠ j) : (r.put i e).get j = r.get j := by
  have ht : 2 * j + 2 ≤ 2 * i ∨ 2 * i + 2 ≤ 2 * j := by omega
  have hd : j + 1 ≤ i ∨ i + 1 ≤ j := by omega
  cases e <;> simp only [QReg.put, QReg.get, getBits_putBits_ne _ _ _ _ _ _ ht, getBits_putBits_ne _ _ _ _ _ _ hd]

end Sys2Proof.Machine
end

