-- ==== Sys2Proof/Safety.lean ====
section
/-!
DEFINITION. What counts as a safe run of the machine.
-/

namespace Sys2Proof.Safety

/-- `k` steps from a state, ending at the first fault. -/
noncomputable def after (k : Nat) (s : Machine.State) : Machine.Out := Host.Core.run core k s

/-- No strand of the device is stopped by a double fault (16, R308). -/
def noneStopped (s : Machine.State) : Bool := s.cores.all fun c => c.2.slots.all fun t => !t.2.stopped

/-- A safe run: none of its first `k` steps ends in a fault, and after each of them no strand is stopped. -/
def Safe (s : Machine.State) (k : Nat) : Prop := ∀ j ≤ k, ∃ t, after j s = .next t ∧ noneStopped t = true

end Sys2Proof.Safety
end

