-- ==== Sys2Proof/Tests/Slice0.lean ====
section
/-!
SUPPORT. Tests. Words written out from the spec's encodings, with what they decode to; ill-formed instructions and refused words;
one step each of some instructions, with results worked out by hand from the rules; and, for every statement that has
hypotheses, states and operands that meet them.
-/

namespace Sys2Proof.Machine
noncomputable section
set_option Elab.async false

/-! ### Words of the opcode table's rows, each with its instruction -/

def reads (l : List (Nat × Instr)) : Bool := l.all fun p => decide (decodeTableWord 64 p.1 = some p.2)

theorem test_decode_op01 : reads
    [(0x8040_0000_000F_FFFB, .b 0xFFFFB#20)] = true := by decide +kernel

theorem test_decode_op02 : reads
    [(0x8080_0058_800F_FFEB, .beq 5#6 34#6 0xFFFEB#20),
     (0x8081_0058_800F_FFDB, .bne 5#6 34#6 0xFFFDB#20),
     (0x8082_0058_800F_FFCB, .blt 5#6 34#6 0xFFFCB#20),
     (0x8083_0058_800F_FFBB, .bge 5#6 34#6 0xFFFBB#20),
     (0x8084_0058_800F_FFAB, .bltn 5#6 34#6 0xFFFAB#20),
     (0x8085_0058_800F_FF9B, .bgen 5#6 34#6 0xFFF9B#20)] = true := by decide +kernel

theorem test_decode_op03 : reads
    [(0x80C0_0050_000F_FF8B, .bz 5#6 0xFFF8B#20),
     (0x80C1_0050_000F_FF7B, .bnz 5#6 0xFFF7B#20)] = true := by decide +kernel

theorem test_decode_op04 : reads
    [(0x8100_0050_0000_0000, .jmp 5#6),
     (0x8101_0050_0000_0000, .calli 5#6),
     (0x8102_0000_0000_0000, .ret)] = true := by decide +kernel

theorem test_decode_op05 : reads
    [(0x8140_0000_000F_FF3B, .call 0xFFF3B#20)] = true := by decide +kernel

theorem test_decode_op06 : reads
    [(0x8180_1058_800A_4000, .mwait 4#6 5#6 34#6 41#6),
     (0x8181_0000_0000_0000, .halt)] = true := by decide +kernel

theorem test_decode_op07 : reads
    [(0x81C0_1050_0000_0000, .launch 4#6 5#6),
     (0x81C1_1050_0000_0000, .glaunch 4#6 5#6)] = true := by decide +kernel

theorem test_decode_op08 : reads
    [(0x8200_1000_0000_0000, .widGet 4#6),
     (0x8200_1000_0000_000D, .widGetField 4#6 0x5#3),
     (0x8201_0000_0000_0005, .barK 0x5#3)] = true := by decide +kernel

theorem test_decode_op09 : reads
    [(0x8240_0058_800A_400B, .tmBind 5#6 34#6 41#6 0xB#4),
     (0x8241_0058_8000_000B, .tmAdv 5#6 34#6 0xB#4),
     (0x8242_1000_0000_000B, .tmRd 4#6 0xB#4)] = true := by decide +kernel

theorem test_decode_op0A : reads
    [(0x8280_1058_8000_0000, .ldco 4#6 5#6 34#6),
     (0x8280_1050_0000_0001, .ldcoDrop 4#6 5#6)] = true := by decide +kernel

theorem test_decode_op0B : reads
    [(0x82C0_0000_000A_A3C5, .trap 0xAA3C5#20),
     (0x82C1_0000_0000_0000, .sret)] = true := by decide +kernel

theorem test_decode_op0C : reads
    [(0x8300_1058_8000_0000, .ctxSave 4#6 5#6 34#6),
     (0x8301_1058_8000_0000, .ctxLoad 4#6 5#6 34#6)] = true := by decide +kernel

theorem test_decode_op0D : reads
    [(0x8340_1050_0000_0005, .erecRd 4#6 5#6 0x5#3)] = true := by decide +kernel

theorem test_decode_op10_1 : reads
    [(0x8400_1058_8000_0000, .add 4#6 5#6 34#6),
     (0x8401_1058_8000_0000, .sub 4#6 5#6 34#6),
     (0x8402_1058_8000_0000, .mul 4#6 5#6 34#6),
     (0x8403_1058_8000_0000, .mulh 4#6 5#6 34#6),
     (0x8404_1058_8000_0000, .mulhn 4#6 5#6 34#6),
     (0x8405_1058_8000_0000, .sAnd 4#6 5#6 34#6),
     (0x8406_1058_8000_0000, .sOr 4#6 5#6 34#6),
     (0x8407_1058_8000_0000, .sXor 4#6 5#6 34#6),
     (0x8408_1058_8000_0000, .andn 4#6 5#6 34#6),
     (0x8409_1058_8000_0000, .shl 4#6 5#6 34#6),
     (0x840A_1058_8000_0000, .shr 4#6 5#6 34#6),
     (0x840B_1058_8000_0000, .sra 4#6 5#6 34#6)] = true := by decide +kernel

theorem test_decode_op10_2 : reads
    [(0x840C_1058_8000_0000, .rol 4#6 5#6 34#6),
     (0x840D_1058_8000_0000, .sMin 4#6 5#6 34#6),
     (0x840E_1058_8000_0000, .sMax 4#6 5#6 34#6),
     (0x840F_1058_8000_0000, .minn 4#6 5#6 34#6),
     (0x8410_1058_8000_0000, .maxn 4#6 5#6 34#6),
     (0x8411_1058_8000_0000, .slt 4#6 5#6 34#6),
     (0x8412_1058_8000_0000, .sltn 4#6 5#6 34#6),
     (0x8420_1050_000A_8BAD, .addi 4#6 5#6 0xA8BAD#20),
     (0x8421_1050_000A_8AAC, .subi 4#6 5#6 0xA8AAC#20),
     (0x8422_1050_000A_89AB, .muli 4#6 5#6 0xA89AB#20),
     (0x8423_1050_000A_88AA, .mulhi 4#6 5#6 0xA88AA#20),
     (0x8424_1050_000A_87A9, .mulhni 4#6 5#6 0xA87A9#20)] = true := by decide +kernel

theorem test_decode_op10_3 : reads
    [(0x8425_1050_000A_86A8, .andi 4#6 5#6 0xA86A8#20),
     (0x8426_1050_000A_85A7, .ori 4#6 5#6 0xA85A7#20),
     (0x8427_1050_000A_84A6, .xori 4#6 5#6 0xA84A6#20),
     (0x8428_1050_000A_83A5, .andni 4#6 5#6 0xA83A5#20),
     (0x8429_1050_0000_002D, .shli 4#6 5#6 0x2D#20),
     (0x842A_1050_0000_002E, .shri 4#6 5#6 0x2E#20),
     (0x842B_1050_0000_002F, .srai 4#6 5#6 0x2F#20),
     (0x842C_1050_0000_0030, .roli 4#6 5#6 0x30#20),
     (0x842D_1050_000A_7EA0, .mini 4#6 5#6 0xA7EA0#20),
     (0x842E_1050_000A_7D9F, .maxi 4#6 5#6 0xA7D9F#20),
     (0x842F_1050_000A_7C9E, .minni 4#6 5#6 0xA7C9E#20),
     (0x8430_1050_000A_7B9D, .maxni 4#6 5#6 0xA7B9D#20)] = true := by decide +kernel

theorem test_decode_op10_4 : reads
    [(0x8431_1050_000A_7A9C, .slti 4#6 5#6 0xA7A9C#20),
     (0x8432_1050_000A_799B, .sltni 4#6 5#6 0xA799B#20)] = true := by decide +kernel

theorem test_decode_op11 : reads
    [(0x8440_1058_8000_0000, .div 4#6 5#6 34#6),
     (0x8441_1058_8000_0000, .divn 4#6 5#6 34#6),
     (0x8442_1058_8000_0000, .rem 4#6 5#6 34#6),
     (0x8443_1058_8000_0000, .remn 4#6 5#6 34#6)] = true := by decide +kernel

theorem test_decode_op12 : reads
    [(0x8480_1050_0000_0000, .clz 4#6 5#6),
     (0x8481_1050_0000_0000, .ctz 4#6 5#6),
     (0x8482_1050_0000_0000, .popc 4#6 5#6)] = true := by decide +kernel

theorem test_decode_op13 : reads
    [(0x84C0_1058_800A_4000, .sel 4#6 5#6 34#6 41#6)] = true := by decide +kernel

theorem test_decode_op14 : reads
    [(0x8500_1000_000A_7092, .li 4#6 0xA7092#20),
     (0x8501_1000_000A_6F91, .lui 4#6 0xA6F91#20)] = true := by decide +kernel

theorem test_decode_op15 : reads
    [(0x8540_1000_000A_6E90, .adr 4#6 0xA6E90#20),
     (0x8541_1058_8000_0000, .lsa 4#6 5#6 34#6 0x0#2)] = true := by decide +kernel

theorem test_decode_op16 : reads
    [(0x8580_1050_0009_4013, .ext 4#6 5#6 0x25#6 0x13#6),
     (0x8580_1050_0009_4053, .extS 4#6 5#6 0x25#6 0x13#6),
     (0x8581_1050_0009_4013, .ins 4#6 5#6 0x25#6 0x13#6)] = true := by decide +kernel

theorem test_decode_op17 : reads
    [(0x85C0_0000_0000_001D, .frame 0x1D#6)] = true := by decide +kernel

theorem test_decode_op20 : reads
    [(0x8800_1058_8010_0000, .faddS 4#6 5#6 34#6 .rtz),
     (0x8801_1058_8020_0000, .fsubS 4#6 5#6 34#6 .rdn),
     (0x8802_1058_8030_0000, .fmulS 4#6 5#6 34#6 .rup),
     (0x8803_1058_804A_4000, .ffmaS 4#6 5#6 34#6 .rna 41#6),
     (0x8804_1058_8050_0000, .fdivS 4#6 5#6 34#6 .rto),
     (0x8805_1050_0060_0000, .fsqrtS 4#6 5#6 .dyn)] = true := by decide +kernel

theorem test_decode_op21 : reads
    [(0x8840_1058_8000_0000, .fcmpSEq 4#6 5#6 34#6),
     (0x8841_1058_8000_0000, .fcmpSLt 4#6 5#6 34#6),
     (0x8842_1058_8000_0000, .fcmpSLe 4#6 5#6 34#6),
     (0x8843_1058_8000_0000, .fcmpSUn 4#6 5#6 34#6)] = true := by decide +kernel

theorem test_decode_op22 : reads
    [(0x8880_1050_0050_0000, .fcvtSFi 4#6 5#6 .rto),
     (0x8881_1050_0060_0000, .fcvtSFn 4#6 5#6 .dyn),
     (0x8882_1050_0010_0000, .fcvtSIf 4#6 5#6 .rtz),
     (0x8883_1050_0020_0000, .fcvtSNf 4#6 5#6 .rdn)] = true := by decide +kernel

theorem test_decode_op23 : reads
    [(0x88C0_1000_0000_006A, .mfs 4#6 0x6A#12),
     (0x88C1_0050_0000_0053, .mts 5#6 0x53#12),
     (0x88C1_0050_0000_0031, .mvlWrite 5#6 0x31#12),
     (0x88C1_0050_0000_0046, .tshapeWrite 5#6 0x46#12),
     (0x88C1_0050_0000_0038, .dlymodeClr 5#6 0x38#12),
     (0x88C1_0050_0000_006A, .efqWrite 5#6 0x6A#12)] = true := by decide +kernel

theorem test_decode_op28 : reads
    [(0x8A00_AC50_0000_3000, .vsetl 43#6 5#6 .e5m2),
     (0x8A01_0000_0000_0000, .vrel)] = true := by decide +kernel

theorem test_decode_op29 : reads
    [(0x8A40_0052_6800_3155, .vspill ⟨5#3, 0#3, 0#1⟩ 5#6 9#6 .e5m2 0x155#9),
     (0x8A41_7850_0000_3155, .vfill 30#6 5#6 .e5m2 0x155#9)] = true := by decide +kernel

theorem test_decode_op2A : reads
    [(0x8A80_7B59_EB80_0A00, .vadd ⟨5#3, 3#3, 1#1⟩ 30#6 53#6 39#6 .i32 1#1),
     (0x8A81_7B59_EB80_0A00, .vsub ⟨5#3, 3#3, 1#1⟩ 30#6 53#6 39#6 .i32 1#1),
     (0x8A82_7B59_EB80_0A00, .vmul ⟨5#3, 3#3, 1#1⟩ 30#6 53#6 39#6 .i32 1#1),
     (0x8A83_7B59_EB80_0800, .vmulh ⟨5#3, 3#3, 1#1⟩ 30#6 53#6 39#6 .i32),
     (0x8A84_7B59_EB80_0800, .vmin ⟨5#3, 3#3, 1#1⟩ 30#6 53#6 39#6 .i32),
     (0x8A85_7B59_EB80_0800, .vmax ⟨5#3, 3#3, 1#1⟩ 30#6 53#6 39#6 .i32)] = true := by decide +kernel

theorem test_decode_op2B : reads
    [(0x8AC0_7B59_EB80_0800, .vand ⟨5#3, 3#3, 1#1⟩ 30#6 53#6 39#6 .i32),
     (0x8AC1_7B59_EB80_0800, .vor ⟨5#3, 3#3, 1#1⟩ 30#6 53#6 39#6 .i32),
     (0x8AC2_7B59_EB80_0800, .vxor ⟨5#3, 3#3, 1#1⟩ 30#6 53#6 39#6 .i32),
     (0x8AC3_7B59_EB80_0800, .vshl ⟨5#3, 3#3, 1#1⟩ 30#6 53#6 39#6 .i32),
     (0x8AC4_7B59_EB80_0800, .vshr ⟨5#3, 3#3, 1#1⟩ 30#6 53#6 39#6 .i32),
     (0x8AC5_7B59_EB80_0800, .vsra ⟨5#3, 3#3, 1#1⟩ 30#6 53#6 39#6 .i32)] = true := by decide +kernel

theorem test_decode_op2C : reads
    [(0x8B00_1F59_EB80_0800, .vcmpEq ⟨5#3, 3#3, 1#1⟩ 7#6 53#6 39#6 .i32),
     (0x8B01_1F59_EB80_0800, .vcmpNe ⟨5#3, 3#3, 1#1⟩ 7#6 53#6 39#6 .i32),
     (0x8B02_1F59_EB80_0800, .vcmpLt ⟨5#3, 3#3, 1#1⟩ 7#6 53#6 39#6 .i32),
     (0x8B03_1F59_EB80_0800, .vcmpLe ⟨5#3, 3#3, 1#1⟩ 7#6 53#6 39#6 .i32)] = true := by decide +kernel

theorem test_decode_op2D : reads
    [(0x8B40_7B59_EB80_0401, .vwadd ⟨5#3, 3#3, 1#1⟩ 30#6 53#6 39#6 .rne .i16 0x1#2),
     (0x8B41_7B59_EB80_0401, .vwmul ⟨5#3, 3#3, 1#1⟩ 30#6 53#6 39#6 .rne .i16 0x1#2),
     (0x8B42_7B59_EB8C_8601, .vwmac ⟨5#3, 3#3, 1#1⟩ 30#6 53#6 39#6 .rne 50#6 .i16 1#1 0x1#2)] = true := by decide +kernel

theorem test_decode_op2E : reads
    [(0x8B80_7B50_2B80_3000, .vmov ⟨5#3, 3#3, 1#1⟩ 30#6 53#6 .e5m2),
     (0x8B81_7800_2B80_0800, .vid ⟨5#3, 3#3, 1#1⟩ 30#6 .i32),
     (0x8B82_7B59_EB00_3000, .vsel ⟨5#3, 3#3, 0#1⟩ 30#6 53#6 39#6 .e5m2)] = true := by decide +kernel

theorem test_decode_op2F : reads
    [(0x8BC0_7B58_AB80_3000, .vdup ⟨5#3, 3#3, 1#1⟩ 30#6 53#6 34#6 .e5m2)] = true := by decide +kernel

theorem test_decode_op30 : reads
    [(0x8C00_7B59_EB80_3000, .vperm ⟨5#3, 3#3, 1#1⟩ 30#6 53#6 39#6 .e5m2),
     (0x8C01_7B58_AB80_3000, .vslup ⟨5#3, 3#3, 1#1⟩ 30#6 53#6 34#6 .e5m2),
     (0x8C02_7B58_AB80_3000, .vsldn ⟨5#3, 3#3, 1#1⟩ 30#6 53#6 34#6 .e5m2),
     (0x8C03_7B50_2B00_3000, .vcmprs ⟨5#3, 3#3, 0#1⟩ 30#6 53#6 .e5m2),
     (0x8C04_7B50_2B80_3000, .vexpnd ⟨5#3, 3#3, 1#1⟩ 30#6 53#6 .e5m2)] = true := by decide +kernel

theorem test_decode_op31 : reads
    [(0x8C40_1C61_6800_0000, .qand ⟨5#3, 0#3, 0#1⟩ 7#6 6#6 5#6),
     (0x8C41_1C61_6800_0000, .qor ⟨5#3, 0#3, 0#1⟩ 7#6 6#6 5#6),
     (0x8C42_1C61_6800_0000, .qxor ⟨5#3, 0#3, 0#1⟩ 7#6 6#6 5#6),
     (0x8C43_1C60_2800_0000, .qnot ⟨5#3, 0#3, 0#1⟩ 7#6 6#6),
     (0x8C44_1060_2800_0000, .qpopc ⟨5#3, 0#3, 0#1⟩ 4#6 6#6),
     (0x8C45_1060_2800_0000, .qfirst ⟨5#3, 0#3, 0#1⟩ 4#6 6#6)] = true := by decide +kernel

theorem test_decode_op32 : reads
    [(0x8C80_7B59_EB80_1800, .vbmand ⟨5#3, 3#3, 1#1⟩ 30#6 53#6 39#6 .n32),
     (0x8C81_7B50_2B80_1800, .vbpfx ⟨5#3, 3#3, 1#1⟩ 30#6 53#6 .n32),
     (0x8C82_7B59_EB80_1800, .vxsect ⟨5#3, 3#3, 1#1⟩ 30#6 53#6 39#6 .n32)] = true := by decide +kernel

theorem test_decode_op33 : reads
    [(0x8CC0_7B50_2B80_0805, .vconf ⟨5#3, 3#3, 1#1⟩ 30#6 53#6 .i32 0x5#3)] = true := by decide +kernel

theorem test_decode_op40 : reads
    [(0x9000_7B59_EBB0_2800, .vfadd ⟨5#3, 3#3, 1#1⟩ 30#6 53#6 39#6 .rup .bf16),
     (0x9001_7B59_EBC0_2800, .vfsub ⟨5#3, 3#3, 1#1⟩ 30#6 53#6 39#6 .rna .bf16),
     (0x9002_7B59_EBD0_2800, .vfmul ⟨5#3, 3#3, 1#1⟩ 30#6 53#6 39#6 .rto .bf16),
     (0x9003_7B59_EB80_2800, .vfmin ⟨5#3, 3#3, 1#1⟩ 30#6 53#6 39#6 .bf16),
     (0x9004_7B59_EB80_2800, .vfmax ⟨5#3, 3#3, 1#1⟩ 30#6 53#6 39#6 .bf16)] = true := by decide +kernel

theorem test_decode_op41 : reads
    [(0x9040_7B59_EBAC_A800, .vfma ⟨5#3, 3#3, 1#1⟩ 30#6 53#6 39#6 .rdn 50#6 .bf16),
     (0x9041_7B59_EBBC_A800, .vfms ⟨5#3, 3#3, 1#1⟩ 30#6 53#6 39#6 .rup 50#6 .bf16),
     (0x9042_7B59_EBCC_A800, .vfnma ⟨5#3, 3#3, 1#1⟩ 30#6 53#6 39#6 .rna 50#6 .bf16)] = true := by decide +kernel

theorem test_decode_op42 : reads
    [(0x9080_7B59_EBD0_2800, .vfdiv ⟨5#3, 3#3, 1#1⟩ 30#6 53#6 39#6 .rto .bf16),
     (0x9081_7B50_2BE0_2800, .vfsqrt ⟨5#3, 3#3, 1#1⟩ 30#6 53#6 .dyn .bf16),
     (0x9082_7B50_2B90_2800, .vrcp ⟨5#3, 3#3, 1#1⟩ 30#6 53#6 .rtz .bf16),
     (0x9083_7B50_2BA0_2800, .vrsqrt ⟨5#3, 3#3, 1#1⟩ 30#6 53#6 .rdn .bf16),
     (0x9084_7B50_2BB0_2800, .vexp2 ⟨5#3, 3#3, 1#1⟩ 30#6 53#6 .rup .bf16)] = true := by decide +kernel

theorem test_decode_op43 : reads
    [(0x90C0_1F59_EB80_2800, .vfcmpEq ⟨5#3, 3#3, 1#1⟩ 7#6 53#6 39#6 .bf16),
     (0x90C1_1F59_EB80_2800, .vfcmpLt ⟨5#3, 3#3, 1#1⟩ 7#6 53#6 39#6 .bf16),
     (0x90C2_1F59_EB80_2800, .vfcmpLe ⟨5#3, 3#3, 1#1⟩ 7#6 53#6 39#6 .bf16),
     (0x90C3_1F59_EB80_2800, .vfcmpUn ⟨5#3, 3#3, 1#1⟩ 7#6 53#6 39#6 .bf16)] = true := by decide +kernel

theorem test_decode_op44 : reads
    [(0x9100_7B59_EB00_0A00, .vredoAdd ⟨5#3, 3#3, 0#1⟩ 30#6 53#6 39#6 .rne .i32 1#1),
     (0x9101_7B59_EB00_0800, .vredoMin ⟨5#3, 3#3, 0#1⟩ 30#6 53#6 39#6 .i32),
     (0x9102_7B59_EB00_0800, .vredoMax ⟨5#3, 3#3, 0#1⟩ 30#6 53#6 39#6 .i32),
     (0x9103_7B59_EB00_0800, .vredoAnd ⟨5#3, 3#3, 0#1⟩ 30#6 53#6 39#6 .i32),
     (0x9104_7B59_EB00_0800, .vredoOr ⟨5#3, 3#3, 0#1⟩ 30#6 53#6 39#6 .i32),
     (0x9105_7B59_EB00_0800, .vredoXor ⟨5#3, 3#3, 0#1⟩ 30#6 53#6 39#6 .i32)] = true := by decide +kernel

theorem test_decode_op45 : reads
    [(0x9140_7B59_EB00_0A00, .vredtAdd ⟨5#3, 3#3, 0#1⟩ 30#6 53#6 39#6 .rne .i32 1#1),
     (0x9141_7B59_EB00_0800, .vredtMin ⟨5#3, 3#3, 0#1⟩ 30#6 53#6 39#6 .i32),
     (0x9142_7B59_EB00_0800, .vredtMax ⟨5#3, 3#3, 0#1⟩ 30#6 53#6 39#6 .i32),
     (0x9143_7B59_EB00_0800, .vredtAnd ⟨5#3, 3#3, 0#1⟩ 30#6 53#6 39#6 .i32),
     (0x9144_7B59_EB00_0800, .vredtOr ⟨5#3, 3#3, 0#1⟩ 30#6 53#6 39#6 .i32),
     (0x9145_7B59_EB00_0800, .vredtXor ⟨5#3, 3#3, 0#1⟩ 30#6 53#6 39#6 .i32)] = true := by decide +kernel

theorem test_decode_op46 : reads
    [(0x9180_7B59_EB80_0A00, .vscanAdd ⟨5#3, 3#3, 1#1⟩ 30#6 53#6 39#6 .rne .i32 1#1),
     (0x9181_7B59_EB80_0800, .vscanMin ⟨5#3, 3#3, 1#1⟩ 30#6 53#6 39#6 .i32),
     (0x9182_7B59_EB80_0800, .vscanMax ⟨5#3, 3#3, 1#1⟩ 30#6 53#6 39#6 .i32),
     (0x9183_7B59_EB80_0800, .vscanAnd ⟨5#3, 3#3, 1#1⟩ 30#6 53#6 39#6 .i32),
     (0x9184_7B59_EB80_0800, .vscanOr ⟨5#3, 3#3, 1#1⟩ 30#6 53#6 39#6 .i32),
     (0x9185_7B59_EB80_0800, .vscanXor ⟨5#3, 3#3, 1#1⟩ 30#6 53#6 39#6 .i32)] = true := by decide +kernel

theorem test_decode_op50 : reads
    [(0x9400_2450_0000_0000, .fmtSet 9#6 5#6),
     (0x9401_7850_0000_0000, .tidBind 30#6 5#6),
     (0x9402_1350_0000_0005, .tidRd 4#6 53#6 0x5#3)] = true := by decide +kernel

theorem test_decode_op51 : reads
    [(0x9440_7B50_2BD0_3270, .vcvtTo ⟨5#3, 3#3, 1#1⟩ 30#6 53#6 .rto .e5m2 1#1 0xE#6),
     (0x9440_7B50_2BE0_3274, .vcvtFrom ⟨5#3, 3#3, 1#1⟩ 30#6 53#6 .dyn .e5m2 1#1 0xE#6),
     (0x9441_7B50_2800_1070, .vpack ⟨5#3, 0#3, 0#1⟩ 30#6 53#6 .n8 0xE#6),
     (0x9442_7B50_2800_1070, .vunpk ⟨5#3, 0#3, 0#1⟩ 30#6 53#6 .n8 0xE#6),
     (0x9443_7B59_EBB0_2A70, .vscl ⟨5#3, 3#3, 1#1⟩ 30#6 53#6 39#6 .rup .bf16 1#1 0xE#6),
     (0x9444_7B52_6BC0_2870, .vquant ⟨5#3, 3#3, 1#1⟩ 30#6 53#6 9#6 .rna .bf16 0xE#6)] = true := by decide +kernel

theorem test_decode_op58 : reads
    [(0x9600_1F58_800A_4000, .tld 7#6 53#6 34#6 41#6),
     (0x9601_1F58_800A_4000, .tldt 7#6 53#6 34#6 41#6),
     (0x9602_7868_800A_4000, .tst 30#6 6#6 34#6 41#6),
     (0x9603_1F50_0000_0000, .tzero 7#6 53#6)] = true := by decide +kernel

theorem test_decode_op59 : reads
    [(0x9640_0069_C000_0000, .tlatch 6#6 39#6)] = true := by decide +kernel

theorem test_decode_op5A : reads
    [(0x9680_7959_EB80_2008, .mmr ⟨5#3, 3#3, 1#1⟩ 30#6 21#6 39#6 0x1#1),
     (0x9681_7865_2B8A_6008, .mmrT ⟨5#3, 3#3, 1#1⟩ 30#6 6#6 20#6 41#6 0x1#1),
     (0x9682_5183_6B80_200B, .mmrRep ⟨5#3, 3#3, 1#1⟩ 20#6 24#6 13#6 0x1#1 0x3#3),
     (0x9683_7959_EB80_A008, .mmrSk ⟨5#3, 3#3, 1#1⟩ 30#6 21#6 39#6 2#6 0x1#1)] = true := by decide +kernel

theorem test_decode_op60 : reads
    [(0x9800_0C58_8000_0002, .rnew 3#6 5#6 34#6 0x1#1),
     (0x9801_38C8_8000_0003, .rcut 14#6 12#6 34#6 0x1#1 0x1#1),
     (0x9802_0CC2_8000_0000, .rsplc 3#6 12#6 10#6),
     (0x9803_00C0_0000_0000, .rfree 12#6)] = true := by decide +kernel

theorem test_decode_op61 : reads
    [(0x9840_0CC8_8000_0000, .hmov 3#6 12#6 34#6),
     (0x9841_10C0_0000_0000, .hinfo 4#6 12#6 0x0#2)] = true := by decide +kernel

theorem test_decode_op62 : reads
    [(0x9880_78C8_AB80_0000, .rld ⟨5#3, 3#3, 1#1⟩ 30#6 12#6 34#6),
     (0x9881_00C8_AB0C_8000, .rst ⟨5#3, 3#3, 0#1⟩ 12#6 34#6 50#6)] = true := by decide +kernel

theorem test_decode_op64 : reads
    [(0x9900_1050_0009_ED0F, .ldI8 4#6 5#6 0x9ED0F#20),
     (0x9901_1050_0009_EC0E, .ldI16 4#6 5#6 0x9EC0E#20),
     (0x9902_1050_0009_EB0D, .ldI32 4#6 5#6 0x9EB0D#20),
     (0x9903_1050_0009_EA0C, .ldI64 4#6 5#6 0x9EA0C#20),
     (0x9904_1050_0009_E90B, .ldN8 4#6 5#6 0x9E90B#20),
     (0x9905_1050_0009_E80A, .ldN16 4#6 5#6 0x9E80A#20),
     (0x9906_1050_0009_E709, .ldN32 4#6 5#6 0x9E709#20)] = true := by decide +kernel

theorem test_decode_op65 : reads
    [(0x9940_1050_0009_E608, .st8 4#6 5#6 0x9E608#20),
     (0x9941_1050_0009_E507, .st16 4#6 5#6 0x9E507#20),
     (0x9942_1050_0009_E406, .st32 4#6 5#6 0x9E406#20),
     (0x9943_1050_0009_E305, .st64 4#6 5#6 0x9E305#20)] = true := by decide +kernel

theorem test_decode_op66 : reads
    [(0x9980_7B58_ABB0_3300, .vld ⟨5#3, 3#3, 1#1⟩ 30#6 53#6 34#6 .rup .e5m2 1#1 0x1#1 0x0#8),
     (0x9981_0358_AB0C_B100, .vst ⟨5#3, 3#3, 0#1⟩ 53#6 34#6 50#6 .e5m2 0x1#1 0x0#8),
     (0x9982_7858_AB80_30A5, .vlds ⟨5#3, 3#3, 1#1⟩ 30#6 5#6 34#6 .e5m2 0xA5#8),
     (0x9983_0058_AB0C_B0A5, .vsts ⟨5#3, 3#3, 0#1⟩ 5#6 34#6 50#6 .e5m2 0xA5#8)] = true := by decide +kernel

theorem test_decode_op67 : reads
    [(0x99C0_7B59_EB90_3280, .vgat ⟨5#3, 3#3, 1#1⟩ 30#6 53#6 39#6 .rtz .e5m2 1#1 0x1#2 0x0#2),
     (0x99C1_0059_EB0C_B003, .vsca ⟨5#3, 3#3, 0#1⟩ 5#6 39#6 50#6 .e5m2 0x0#2 0x3#2)] = true := by decide +kernel

theorem test_decode_op68 : reads
    [(0x9A00_7859_EB3C_B203, .vgpool ⟨5#3, 3#3, 0#1⟩ 30#6 5#6 39#6 .rup 50#6 .e5m2 1#1 0x0#2 0x3#2),
     (0x9A01_0059_EB0C_8A03, .vsadd ⟨5#3, 3#3, 0#1⟩ 5#6 39#6 50#6 .i32 1#1 0x0#2 0x3#2)] = true := by decide +kernel

theorem test_decode_op69 : reads
    [(0x9A40_2C58_800A_4000, .tcopy 11#6 5#6 34#6 41#6),
     (0x9A40_2C58_8000_0001, .tcopyMig 11#6 5#6 34#6),
     (0x9A40_2C50_0000_0002, .tcopyRes 11#6 5#6)] = true := by decide +kernel

theorem test_decode_op6A : reads
    [(0x9A80_2C58_8000_0000, .slabGrow 11#6 5#6 34#6),
     (0x9A81_1058_8000_0000, .smapSet 4#6 5#6 34#6),
     (0x9A82_2C58_8000_0000, .smapInv 11#6 5#6 34#6)] = true := by decide +kernel

theorem test_decode_op6B : reads
    [(0x9AC0_1058_8000_0000, .bankMode 4#6 5#6 34#6)] = true := by decide +kernel

theorem test_decode_op6C : reads
    [(0x9B00_0058_8000_0000, .tlbinvPg 5#6 34#6),
     (0x9B00_0050_0000_0001, .tlbinvAs 5#6),
     (0x9B00_0000_0000_0002, .tlbinvAll),
     (0x9B01_1050_0000_0000, .pprobe 4#6 5#6)] = true := by decide +kernel

theorem test_decode_op6D : reads
    [(0x9B40_0050_0000_0000, .asidSwSet 5#6),
     (0x9B40_1058_8000_0001, .asidSwBind 4#6 5#6 34#6),
     (0x9B40_1050_0000_0002, .asidSwDrop 4#6 5#6)] = true := by decide +kernel

theorem test_decode_op70 : reads
    [(0x9C00_1058_8000_1C02, .amoSwap 4#6 5#6 34#6 .n64 0x2#2),
     (0x9C01_1058_800A_5C02, .amoCas 4#6 5#6 34#6 41#6 .n64 0x2#2),
     (0x9C02_1058_8000_1C02, .amoAdd 4#6 5#6 34#6 .n64 0x2#2),
     (0x9C03_1058_8000_2002, .amoFadd 4#6 5#6 34#6 .f32 0x2#2),
     (0x9C04_1058_8000_1C02, .amoAnd 4#6 5#6 34#6 .n64 0x2#2),
     (0x9C05_1058_8000_1C02, .amoOr 4#6 5#6 34#6 .n64 0x2#2),
     (0x9C06_1058_8000_1C02, .amoXor 4#6 5#6 34#6 .n64 0x2#2),
     (0x9C07_1058_8000_0C02, .amoMin 4#6 5#6 34#6 .i64 0x2#2),
     (0x9C08_1058_8000_0C02, .amoMax 4#6 5#6 34#6 .i64 0x2#2),
     (0x9C09_1058_8000_1C02, .amoMinn 4#6 5#6 34#6 .n64 0x2#2),
     (0x9C0A_1058_8000_1802, .amoMaxn 4#6 5#6 34#6 .n32 0x2#2)] = true := by decide +kernel

theorem test_decode_op71 : reads
    [(0x9C40_7859_EB8C_9C63, .vamoSwap ⟨5#3, 3#3, 1#1⟩ 30#6 5#6 39#6 50#6 .n64 0x0#2 0x1#1 0x2#2 0x3#2),
     (0x9C41_7859_EB8C_9C63, .vamoCas ⟨5#3, 3#3, 1#1⟩ 30#6 5#6 39#6 50#6 .n64 0x0#2 0x1#1 0x2#2 0x3#2),
     (0x9C42_7859_EB8C_9C63, .vamoAdd ⟨5#3, 3#3, 1#1⟩ 30#6 5#6 39#6 50#6 .n64 0x0#2 0x1#1 0x2#2 0x3#2),
     (0x9C43_7859_EB8C_A463, .vamoFadd ⟨5#3, 3#3, 1#1⟩ 30#6 5#6 39#6 50#6 .f16 0x0#2 0x1#1 0x2#2 0x3#2),
     (0x9C44_7859_EB8C_9C63, .vamoAnd ⟨5#3, 3#3, 1#1⟩ 30#6 5#6 39#6 50#6 .n64 0x0#2 0x1#1 0x2#2 0x3#2),
     (0x9C45_7859_EB8C_9C63, .vamoOr ⟨5#3, 3#3, 1#1⟩ 30#6 5#6 39#6 50#6 .n64 0x0#2 0x1#1 0x2#2 0x3#2),
     (0x9C46_7859_EB8C_9C63, .vamoXor ⟨5#3, 3#3, 1#1⟩ 30#6 5#6 39#6 50#6 .n64 0x0#2 0x1#1 0x2#2 0x3#2),
     (0x9C47_7859_EB8C_8C63, .vamoMin ⟨5#3, 3#3, 1#1⟩ 30#6 5#6 39#6 50#6 .i64 0x0#2 0x1#1 0x2#2 0x3#2),
     (0x9C48_7859_EB8C_8C63, .vamoMax ⟨5#3, 3#3, 1#1⟩ 30#6 5#6 39#6 50#6 .i64 0x0#2 0x1#1 0x2#2 0x3#2),
     (0x9C49_7859_EB8C_9C63, .vamoMinn ⟨5#3, 3#3, 1#1⟩ 30#6 5#6 39#6 50#6 .n64 0x0#2 0x1#1 0x2#2 0x3#2),
     (0x9C4A_7859_EB8C_9863, .vamoMaxn ⟨5#3, 3#3, 1#1⟩ 30#6 5#6 39#6 50#6 .n32 0x0#2 0x1#1 0x2#2 0x3#2)] = true := by decide +kernel

theorem test_decode_op72 : reads
    [(0x9C80_7859_EB80_3003, .vgl ⟨5#3, 3#3, 1#1⟩ 30#6 5#6 39#6 .rne .e5m2 0#1 0x0#2 0x3#2),
     (0x9C81_1C59_EB0C_B003, .vscc ⟨5#3, 3#3, 0#1⟩ 7#6 5#6 39#6 50#6 .e5m2 0x0#2 0x3#2)] = true := by decide +kernel

theorem test_decode_op73 : reads
    [(0x9CC0_7850_2800_1C01, .xredAdd ⟨5#3, 0#3, 0#1⟩ 30#6 5#6 .n64 0x1#3),
     (0x9CC1_7850_2800_1C01, .xredMin ⟨5#3, 0#3, 0#1⟩ 30#6 5#6 .n64 0x1#3),
     (0x9CC2_7850_2800_1C01, .xredMax ⟨5#3, 0#3, 0#1⟩ 30#6 5#6 .n64 0x1#3)] = true := by decide +kernel

theorem test_decode_op74 : reads
    [(0x9D00_0000_0000_0000, .fence),
     (0x9D01_0000_0000_0000, .fenceFab),
     (0x9D01_0000_0000_0001, .fenceFabAcq),
     (0x9D01_0000_0000_0002, .fenceFabRel),
     (0x9D01_1050_0000_0005, .fenceFabAcqLoad 4#6 5#6),
     (0x9D01_0058_8000_0006, .fenceFabRelStore 5#6 34#6),
     (0x9D02_0000_0000_0000, .fencePool),
     (0x9D02_0000_0000_0001, .fencePoolAcq),
     (0x9D02_0000_0000_0002, .fencePoolRel),
     (0x9D02_1050_0000_0005, .fencePoolAcqLoad 4#6 5#6),
     (0x9D02_0058_8000_0006, .fencePoolRelStore 5#6 34#6)] = true := by decide +kernel

theorem test_decode_op75 : reads
    [(0x9D40_00D8_8000_0000, .waitTl 13#6 34#6),
     (0x9D41_10D0_0000_0000, .tlNext 4#6 13#6)] = true := by decide +kernel

theorem test_decode_op78 : reads
    [(0x9E00_7958_A803_6809, .twalk ⟨5#3, 0#3, 0#1⟩ 30#6 21#6 34#6 13#6 .bf16 0x9#4),
     (0x9E00_7958_A803_6819, .twalkX ⟨5#3, 0#3, 0#1⟩ 30#6 21#6 34#6 13#6 .bf16 0x9#4),
     (0x9E01_1158_8003_6800, .twupd 4#6 21#6 34#6 13#6 .bf16),
     (0x9E02_7850_2B80_2002, .twrd ⟨5#3, 3#3, 1#1⟩ 30#6 5#6 0x2#2)] = true := by decide +kernel

theorem test_decode_op79 : reads
    [(0x9E40_1058_800A_6800, .twbuild 4#6 5#6 34#6 41#6 .bf16)] = true := by decide +kernel

theorem test_decode_op7F : reads
    [(0x9FC0_0000_0000_0000, .nop),
     (0x9FC1_0000_0000_0000, .yield_),
     (0x9FC2_0050_0000_0155, .pf 5#6 0x155#9),
     (0x9FC2_0050_0000_0555, .pfW 5#6 0x155#9),
     (0x9FEA_1051_BDBA_BCDE, .hintNop 42#6 4#6 5#6 6#6 ⟨7#3, 5#3, 1#1⟩ .rup 0xABCDE#20)] = true := by decide +kernel

theorem test_decode_slots_1 : reads
    [(0xC000_0000_0000_0000, .nopC),
     (0xC146_CAD2_0000_0000, .addC 8#5 (.imm 0x595A4#19)),
     (0xC25A_0000_0000_0000, .subC 11#5 (.reg 16#5)),
     (0xC376_BAD1_0000_0000, .mulC 14#5 (.imm 0x575A2#19)),
     (0xC48B_C000_0000_0000, .andC 17#5 (.reg 30#5)),
     (0xC5A6_AAD0_0000_0000, .orC 20#5 (.imm 0x555A0#19)),
     (0xC6B9_8000_0000_0000, .xorC 23#5 (.reg 12#5)),
     (0xC7D6_9ACF_0000_0000, .andnC 26#5 (.imm 0x5359E#19)),
     (0xC8EB_4000_0000_0000, .shlC 29#5 (.reg 26#5)),
     (0xC904_0016_8000_0000, .shrC 0#5 (.imm 45#19)),
     (0xCA19_0000_0000_0000, .sraC 3#5 (.reg 8#5)),
     (0xCB36_7ACD_0000_0000, .minC 6#5 (.imm 0x4F59A#19)),
     (0xCC4A_C000_0000_0000, .maxC 9#5 (.reg 22#5)),
     (0xCD66_6ACC_0000_0000, .minnC 12#5 (.imm 0x4D598#19)),
     (0xCE78_8000_0000_0000, .maxnC 15#5 (.reg 4#5)),
     (0xCF96_5ACB_0000_0000, .liC 18#5 (.imm 0x4B596#19))] = true := by decide +kernel

theorem test_decode_slots_2 : reads
    [(0xD0AA_4000_0000_0000, .vaddC 21#5 (.reg 18#5)),
     (0xD1C3_2000_0000_0000, .vsubC 24#5 (.reg 25#5)),
     (0xD2D8_0000_0000_0000, .vmulC 27#5 (.reg 0#5)),
     (0xD3F0_E000_0000_0000, .vandC 30#5 (.reg 7#5)),
     (0xD409_C000_0000_0000, .vorC 1#5 (.reg 14#5)),
     (0xD522_A000_0000_0000, .vxorC 4#5 (.reg 21#5)),
     (0xD63B_8000_0000_0000, .vshlC 7#5 (.reg 28#5)),
     (0xD750_6000_0000_0000, .vshrC 10#5 (.reg 3#5)),
     (0xD869_4000_0000_0000, .vsraC 13#5 (.reg 10#5)),
     (0xD982_2000_0000_0000, .vminC 16#5 (.reg 17#5)),
     (0xDA9B_0000_0000_0000, .vmaxC 19#5 (.reg 24#5)),
     (0xDBB3_E000_0000_0000, .vfaddC 22#5 (.reg 31#5)),
     (0xDCC8_C000_0000_0000, .vfsubC 25#5 (.reg 6#5)),
     (0xDDE1_A000_0000_0000, .vfmulC 28#5 (.reg 13#5)),
     (0xDEFA_8000_0000_0000, .vfminC 31#5 (.reg 20#5)),
     (0xDF13_6000_0000_0000, .vfmaxC 2#5 (.reg 27#5))] = true := by decide +kernel

/-! ### An ill-formed term for each check of `wellFormed`, which it refuses -/

def ill (l : List Instr) : Bool := l.all fun i => !wellFormed i
def c0 : VCtl := ⟨0, 0, 0⟩
def cQ : VCtl := ⟨0, 1, 0⟩
def cK : VCtl := ⟨0, 0, 1⟩

theorem test_wf_operand_numbers : ill [.add 48#6 0#6 0#6, .vmov c0 32#6 0#6 .i8, .qand c0 1#6 8#6 0#6, .qnot c0 0#6 1#6, .vcmpEq c0 8#6 0#6 0#6 .i8,
    .tzero 8#6 0#6, .rfree 16#6, .rcut 15#6 0#6 0#6 0#1 0#1, .waitTl 16#6 0#6, .fmtSet 16#6 0#6, .vsetl 39#6 0#6 .i8] = true := by decide +kernel
theorem test_wf_vector_fields : ill [.qand cQ 1#6 1#6 1#6, .vspill cK 0#6 0#6 .i8 0#9, .vsel cK 1#6 1#6 1#6 .i8, .vredoMin cK 1#6 1#6 1#6 .i8] = true := by
  decide +kernel
theorem test_wf_types : ill [.vadd c0 1#6 1#6 1#6 .f32 0#1, .vbmand c0 1#6 1#6 1#6 .i8, .vfadd c0 1#6 1#6 1#6 .rne .e4m3, .vredoMin c0 1#6 1#6 1#6 .e4m3,
    .xredMin c0 1#6 1#6 .i16 0#3, .twupd 1#6 1#6 1#6 1#6 .f16, .amoAdd 1#6 1#6 1#6 .f32 0#2, .amoMin 1#6 1#6 1#6 .n32 0#2,
    .vamoSwap c0 1#6 1#6 1#6 1#6 .f16 0#2 1#1 0#2 0#2, .vpack c0 1#6 1#6 .i8 0#6] = true := by decide +kernel
theorem test_wf_rounding_and_saturation : ill [.vredoAdd c0 1#6 1#6 1#6 .rtz .i32 0#1, .vredoAdd c0 1#6 1#6 1#6 .rne .f32 1#1,
    .vwadd c0 1#6 1#6 1#6 .rne .i32 2#2, .vwadd c0 1#6 1#6 1#6 .rne .f32 1#2, .vld c0 1#6 1#6 0#6 .rtz .i32 0#1 0#1 0#8] = true := by decide +kernel
theorem test_wf_format_codes : ill [.vcvtTo c0 1#6 1#6 .rne .i8 0#1 17#6, .vpack c0 1#6 1#6 .n8 1#6, .vscl c0 1#6 1#6 1#6 .rne .f32 0#1 16#6,
    .vquant c0 1#6 1#6 1#6 .rne .f32 11#6] = true := by decide +kernel
theorem test_wf_fields_and_limits : ill [.barK 6#3, .shli 1#6 1#6 64#20, .ext 1#6 1#6 32#6 32#6, .frame 33#6, .mfs 1#6 3#12, .mts 1#6 0x31#12, .mvlWrite 1#6 0x32#12,
    .tshapeWrite 1#6 0x48#12, .dlymodeClr 1#6 0x39#12, .efqWrite 1#6 0x68#12, .mmrRep c0 30#6 1#6 1#6 0#1 2#3, .xredAdd c0 30#6 1#6 .i32 2#3,
    .hintNop 2#6 0#6 0#6 0#6 c0 .rne 0#20] = true := by decide +kernel
theorem test_wf_address_forms : ill [.vld c0 1#6 1#6 1#6 .rne .i32 0#1 0#1 0#8, .vst c0 1#6 1#6 1#6 .i32 1#1 1#8, .vgat c0 1#6 1#6 1#6 .rne .i32 0#1 3#2 0#2,
    .vgat c0 1#6 1#6 1#6 .rne .i32 0#1 2#2 1#2, .vsca c0 1#6 1#6 1#6 .i32 2#2 0#2, .vamoAdd c0 1#6 1#6 1#6 1#6 .i32 0#2 0#1 0#2 0#2,
    .vamoCas c0 0#6 1#6 1#6 1#6 .i32 0#2 0#1 0#2 0#2, .twalk c0 1#6 1#6 1#6 1#6 .f32 0#4] = true := by decide +kernel
theorem test_wf_slots : ill [.shlC 1#5 (.imm 64#19), .liC 1#5 (.reg 1#5), .vfaddC 1#5 (.imm 1#19)] = true := by decide +kernel
theorem test_wf_accepts : ([.add 47#6 0#6 0#6, .vmov c0 31#6 63#6 .i8, .barK 5#3, .shli 1#6 1#6 63#20, .ext 1#6 1#6 32#6 31#6, .frame 32#6, .mmrRep c0 30#6 1#6 1#6 0#1 1#3,
    .tshapeWrite 1#6 0x47#12, .vamoAdd c0 0#6 1#6 1#6 1#6 .i32 0#2 0#1 0#2 0#2] : List Instr).all wellFormed = true := by decide +kernel

/-! ### Words that are refused, one for each name of a refusal -/

theorem test_refused_words : decodeWord 0x8380_0000_0000_0000#64 = .error .reservedOp ∧ decodeWord 0x8110_0000_0000_0000#64 = .error .reservedFn ∧
    decodeWord 0x8400_1058_8070_0000#64 = .error .roundingMode ∧ decodeWord 0x8400_C058_8000_0000#64 = .error .illegalOperand ∧
    decodeWord 0x8400_1058_8000_0001#64 = .error .unusedField ∧ decodeWord 0xC150_4000_0420_8001#64 = .error .pairBit0 := by
  exact ⟨rfl, rfl, rfl, rfl, rfl, rfl⟩

/-- A register form with a bit below it, a shift by 64, and two vector slots with the odd destination first; a word cut short. -/
theorem test_refused_slots : decodeWord 0xC150_4000_0420_8002#64 = .error .slotField ∧ decodeWord 0xC000_0000_2030_0080#64 = .error .slotImmediate ∧
    decodeWord 0xD008_2000_4040_8000#64 = .error .bankRule ∧ decodeBytes [0, 0, 0, 0, 0, 0, 0x9F] = .error .shortBytes := by
  exact ⟨rfl, rfl, rfl, rfl⟩

/-! ### States for the tests -/

/-- A strand at level S with a few registers set, in the base frame. -/
def tStrand0 : Strand :=
  { Strand.start 0x1000#64 with
    r := { Scalars.start with
      phys := [(0, 3), (1, 0x108#64), (2, 0xFFFFFFFFFFFFFFFE#64), (3, 2), (4, 1), (5, 0x8000000000000000#64), (6, -1), (7, 8), (31, 0x2001#64)]
      g := [(1, 0x12345678#64), (8, 3)] } }

/-- One strand in slot 0 of core 0, without the lanes, that issues a one-word convoy at 0x1000. -/
def tBare : State :=
  { State.reset with cores := [(0, { Core.start with slots := [(0, tStrand0)] })], agenda := [], cur := ⟨0, 0, 0x1000#64, 1, 0, 0, 0, false, true⟩ }

def State.strandWith (s : State) (f : Strand → Strand) : State := s.setMe (f s.me)
def State.regsWith (s : State) (f : Scalars → Scalars) : State := s.strandWith fun t => { t with r := f t.r }
def State.sreg (s : State) (i : Nat) (v : Word) : State := s.regsWith fun r => r.put i v
def State.issuing (s : State) (w : Word) : State := { s with cur := { s.cur with word := w } }
def State.atU (s : State) : State := s.strandWith fun t => { t with lvl := .u }
def State.linked (s : State) : State := s.regsWith fun r => { r with plink := some 0x3001#64 }

/-- The same strand holding eight lanes, with three elements of length. -/
def tLaned : State := tBare.withCore fun k => { k with holder := some 0, width := 8 }

/-- A vector register whose first elements are given, 0 above them. -/
def tVreg (w : Nat) (xs : List Nat) : VReg := (xs.zipIdx).foldl (fun r p => r.put w p.2 (.full p.1)) VReg.zero

/-- A mask register whose first bits are given, 0 above them. -/
def tQreg (xs : List Nat) : QReg := (xs.zipIdx).foldl (fun r p => r.put p.2 (.full p.1)) QReg.zero

/-- Lanes and contents: v1, v2, v3 at 32 bits, v4 at 8 bits, q1 with bits 0 and 2. -/
def tVect : State := tLaned.withCore fun k => { k with
  v := [(1, tVreg 32 [7, 0xFFFFFFFF, 3]), (2, tVreg 32 [2, 1, 0]), (3, tVreg 32 [1, 1, 1]), (4, tVreg 8 [1, 2, 3, 4]), (6, tVreg 32 [16, 24, 8])]
  q := [(1, tQreg [1, 0, 1])] }

/-- Memory: ASID 0 maps page 0 to near frame 16, page 1 to bank 0, page 2 to near frame 17, page 3 to the HWIN register page,
page 4 to device 5, page 5 to bank 1 and page 6 to the pool; page 7 is not present. -/
def State.paged (s : State) : State :=
  { s with
    asids := [(0, ⟨1, 1⟩)], keys := [(0, ⟨1, 0, none⟩)], stale := []
    pdec := [(0, 0), (1, 0x40000000#64), (2, 0x111#64)].filter fun p => p.2 ≠ 0
    banks := [(0, { Bank.start with mode := 1, data := [(0x108, 5#8), (0x109, 6#8)] }), (1, { Bank.start with mode := 2, fifo := [42#64] })]
    hbm := placeDwords [] [(0x1000, 0x2001), (0x2000, 0x3001), (0x3000, 0x4001), (0x4000, 0x5001),
      (0x5000, 0x3F + 16 * 65536), (0x5008, 0x37 + 3 * 2 ^ 59), (0x5010, 0x3F + 17 * 65536), (0x5018, 0x37 + 4 * 2 ^ 59 + 2 * 65536),
      (0x5020, 0x37 + 2 * 2 ^ 59 + 5 * 65536), (0x5028, 0x37 + 3 * 2 ^ 59 + 8 * 65536), (0x5030, 0x37 + 2 ^ 59),
      (0x100108, 0x0123456789ABCDEF)] }

def tMem : State := tVect.paged

/-- A place that stands for no access. -/
def tNoPlace : Place := .devreg 99 99
/-- The place of a checked access. -/
def State.at_ (s : State) (acc : Acc) (f : Form) (va : Word) (n : Nat) : Place :=
  match s.checkElt s.me s.cur.core acc f va n with
  | .ok p => p
  | .error _ => tNoPlace

/-! ### Witnesses: the hypotheses of every statement are met -/

theorem witness_WordsRoundTrip :
    (wellFormed (.shli 4#6 5#6 63#20) = true ∧ (encode true false (.shli 4#6 5#6 63#20)).isSome = true) ∧
    wellFormed (.vaddC 30#5 (.reg 1#5)) = true ∧ wellFormed (.vaddC 31#5 (.imm 1#19)) = true ∧
      (match slotOf (.vaddC 30#5 (.reg 1#5)), slotOf (.vaddC 31#5 (.imm 1#19)) with
        | some a, some b => bankOk a b
        | _, _ => false) = true ∧ (encodePair true false (.vaddC 30#5 (.reg 1#5)) (.vaddC 31#5 (.imm 1#19))).isSome = true := by
  decide +kernel

/-- A full-form word and a pair word that decode. -/
theorem witness_LegalWordsAreCanonical_and_WordsFireAsDecoded :
    decodeWord 0x8400_1058_8000_0000#64 = .ok ⟨true, false, .one (.add 4#6 5#6 34#6)⟩ ∧
    decodeWord 0xC150_4000_0420_8000#64 = .ok ⟨true, false, .pair (.addC 10#5 (.reg 2#5)) (.addC 1#5 (.reg 1#5))⟩ := by
  exact ⟨rfl, rfl⟩

/-- Opcodes off the map, the reserved rounding mode and bit 0 of a pair are refused. -/
theorem witness_LegalWordsAreCanonical_refused :
    decodeWord 0x8000_0000_0000_0000#64 = .error .reservedOp ∧ decodeWord 0x8400_1058_8070_0000#64 = .error .roundingMode ∧
    decodeWord 0xC150_4000_0420_8001#64 = .error .pairBit0 := by
  exact ⟨rfl, rfl, rfl⟩

/-- Also for CompactScalarSlots and ScalarFloatingPoint, whose one hypothesis this is. -/
theorem witness_ArithmeticAndLogic_and_its_kin : tBare.alone := by decide +kernel

/-- The quotient that overflows, and a field that ends at bit 63. -/
theorem witness_DivisionBitsAddresses : tBare.alone ∧ tBare.val 5#6 = BitVec.ofInt 64 (-2 ^ 63) ∧
    tBare.val 6#6 = BitVec.ofInt 64 (-1) ∧ (60#6).toNat + (3#6).toNat < 64 := by
  decide +kernel

theorem witness_GlobalZeroDiscards : tBare.alone ∧ (47#6) ≠ 32#6 ∧ (47#6).toNat < 48 ∧ (0#6).toNat < 48 ∧
    Tab.wf 0 tBare.me.r.phys = true ∧ Tab.wf 0 tBare.me.r.g = true := by decide +kernel

theorem witness_FloatResults :
    val32 0x7FC00000#64 = .nan ∧ val32 0x3F800000#64 = .num false (2 ^ 23) (-23) ∧ val32 0x80000000#64 = .num true 0 (-149) ∧
    val32 0xBF800000#64 = .num true (2 ^ 23) (-23) ∧ (f32.round .rne false (.num false 1 0)).overflow = false ∧
    f32.value ((f32.round .rne false (.num false 1 0)).code % 2 ^ 31) = .num false (2 ^ 23) (-23) ∧ 0x7F7FFFFF % 2 ^ 31 < 0x7F800000 ∧
    (f32.round .rdn false (.num true 1 (-150))).overflow = false := by
  decide +kernel

/-- A named format, and the record of R162's example. -/
theorem witness_FloatResults_formats : fmtOfTy .e4m3 = .flt ⟨1, 4, 3, 7, 2, []⟩ ∧ recordOk 0x00000001002001A7#64 = true := by decide +kernel

/-- R165's table: f32 values into e4m3. -/
theorem test_rounding : let f : FFmt := ⟨1, 4, 3, 7, 2, []⟩
    (f.round .rne false (.num false 300 0)).code = 0x79 ∧ (f.round .rup false (.num false 300 0)).code = 0x7A ∧
    (f.round .rto false (.num false 300 0)).code = 0x79 ∧ (f.round .rne false (.num false 460 0)).code = 0x7E ∧
    (f.round .rne false (.num false 470 0)).code = 0x7F ∧ (f.round .rne true (.num false 470 0)).code = 0x7E ∧
    (f.round .rne false (.num false 1 (-10))).code = 0 ∧ (f.round .rna false (.num true 1 (-10))).code = 0x81 ∧
    (f.round .rtz false (.inf false)).code = 0x7F := by decide +kernel

/-- `jmp` and `calli` with an aligned target, and with one that is not. -/
theorem witness_BranchesAndTransfers : tBare.alone ∧ (tBare.val 1#6).toNat % 8 = 0 ∧ (tBare.val 0#6).toNat % 8 ≠ 0 ∧ tBare.calm ∧
    (tBare.issuing 0x8100_0000_0000_0000#64).cur.slotB = false ∧
    decodeWord (tBare.issuing 0x8100_0000_0000_0000#64).cur.word = .ok ⟨true, false, .one (.jmp 0#6)⟩ ∧
    decodeWord (tBare.issuing 0x8101_0000_0000_0000#64).cur.word = .ok ⟨true, false, .one (.calli 0#6)⟩ := by
  exact ⟨by decide +kernel, by decide +kernel, by decide +kernel, by decide +kernel, rfl, rfl, rfl⟩

/-- `frame` with its link and room, with the most that fits, without a link, and with n = 0. -/
theorem witness_FrameOpensWindow : tBare.linked.idleStrand ∧ tBare.linked.me.r.plink = some 0x3001#64 ∧
    tBare.linked.me.r.nres + (32#6).toNat ≤ 256 ∧ tBare.linked.calm ∧ tBare.linked.me.kept.headD false = false ∧ tBare.idleStrand ∧ tBare.me.r.plink = none ∧ tBare.calm := by
  decide +kernel

def tFullFile : Scalars := { Scalars.start with nres := 230, fb := 198, sizes := [(0, 32), (32, 198)], bslim := 0x1000#64, bsp := 0x800#64 }

/-- A frame to spill, with room in the backing store and without; here the spill succeeds. -/
theorem witness_FrameOpensWindow_spills : Tab.get 0 tFullFile.sizes tFullFile.lowest = 32 ∧ 256 < tFullFile.nres + 32 ∧
    tFullFile.bsp.toNat + 8 * (32 + 1) ≤ tFullFile.bslim.toNat ∧ (match Scalars.spill 32 8 tFullFile with
      | .ok _ => true
      | .error _ => false) = true ∧
    ({ tFullFile with bslim := 0x800#64 } : Scalars).bslim.toNat < tFullFile.bsp.toNat + 8 * (32 + 1) := by
  decide +kernel

def tCalled : State := tBare.regsWith fun r => { r with fsz := 4, nres := 36, fb := 4, sizes := [(0, 32), (32, 4)], phys := Tab.put r.phys 35 0x2001#64 }

theorem witness_RetUndoesFrame_resident : tCalled.alone ∧ tCalled.val 31#6 = 0x2001#64 ∧ (0x2001#64).getLsbD 1 = false ∧
    (0x2001#64).getLsbD 2 = false ∧ (0x2001#64).toNat / 8 ≠ 0 ∧ tCalled.me.r.fsz ≤ 32 ∧ 32 + tCalled.me.r.fsz ≤ tCalled.me.r.nres := by
  decide +kernel

theorem witness_RetUndoesFrame_frame : tBare.linked.idleStrand ∧ tBare.linked.me.r.plink = some 0x3001#64 ∧ 0 < (32#6).toNat ∧ (32#6).toNat ≤ 32 ∧
    tBare.linked.me.r.fb < 256 ∧ tBare.linked.me.r.currentSize = tBare.linked.me.r.fsz ∧ 32 ≤ tBare.linked.me.r.nres ∧
    tBare.linked.me.r.nres + (32#6).toNat ≤ 256 ∧ Tab.wf 0 tBare.linked.me.r.phys = true ∧
    Tab.rising tBare.linked.me.r.sizes none = true ∧ Tab.find tBare.linked.me.r.sizes ((tBare.linked.me.r.fb + 32) % 256) = none ∧
    (0x3001#64).getLsbD 1 = false ∧ (0x3001#64).getLsbD 2 = false ∧ (0x3001#64).toNat / 8 ≠ 0 := by
  decide +kernel

def tNx (o : Out) : State :=
  match o with
  | .next u => u
  | .fault _ => State.reset
  | .refused _ => State.reset

/-- After `frame`, the same registers stand in a strand that may `ret`. -/
theorem witness_RetUndoesFrame_ret : (tNx (exec (.frame 32#6) tBare.linked)).me.r.plink = none ∧
    (tBare.regsWith fun _ => (tNx (exec (.frame 32#6) tBare.linked)).me.r).alone := by
  decide +kernel

def tWait : State := tMem.sreg 4 0x108#64
def tWaitPlace : Place := tWait.at_ .read .mwait (tWait.val 4#6) 8

/-- A dword of near memory that differs from the expected value, and one that equals it. -/
theorem witness_WaitsAndHints : tWait.alone ∧ tWait.checkElt tWait.me tWait.cur.core .read .mwait (tWait.val 4#6) 8 = .ok tWaitPlace ∧
    tWait.tideHeld tWait.me (tWait.val 4#6) 8 = false ∧ tWait.stalled tWaitPlace = false ∧ tWait.poisoned tWaitPlace = false ∧
    tWaitPlace.block.isSome = true ∧ tWait.readNat tWaitPlace 8 ≠ (tWait.val 2#6).toNat ∧
    tWait.readNat tWaitPlace 8 = ((tWait.sreg 2 0x0123456789ABCDEF#64).val 2#6).toNat := by
  exact ⟨by decide +kernel, rfl, by decide +kernel⟩

theorem witness_WaitsAndHints_word : decodeWord 0x8180_0C40_8000_0000#64 = .ok ⟨true, false, .one (.mwait 3#6 4#6 2#6 0#6)⟩ := rfl

/-- A level that may read and write every special register, one that may not, and the lanes for the tile shapes. -/
theorem witness_MfsReads_and_MtsWrites : tLaned.alone ∧ tLaned.me.lvl ≠ .u ∧ tLaned.holdsLanes = true ∧ tBare.atU.alone ∧ tBare.atU.me.lvl = .u ∧
    tBare.atU.calm ∧ (Tab.get Tile.start tLaned.curCore.tiles 7).st = .empty ∧
    ((tLaned.val 0#6).toNat % 256 + 1) * ((tLaned.val 0#6).toNat / 256 % 512 + 1) * (4 * 2 ^ ((tLaned.val 0#6).toNat / 2 ^ 18 % 4)) ≤ 131072 ∧
    (tBare.val 7#6).toNat % 64 = 8 ∧ (tBare.val 0#6).toNat % 64 ≠ 8 ∧ (tBare.val 0#6).toNat % 64 ≠ 16 ∧ (tBare.val 0#6).toNat % 64 ≠ 32 := by
  decide +kernel

/-- Length 3 (g8) under q0, and under q1; d = v3. -/
def tAll : VCtl := ⟨0, 0, 0⟩
def tSome : VCtl := ⟨0, 1, 1⟩

theorem witness_VectorIntegers : tVect.vready tSome 32 [(1#6, 32), (2#6, 32)] ∧ tVect.settledV 3#6 32 = true ∧ (3#6).toNat < 32 := by
  decide +kernel

theorem witness_VectorIntegers_compact : (tVect.vready ⟨0, 0, 0⟩ 32 [(3#6, 32)]) ∧ tVect.settledV 3#6 32 = true ∧
    tVect.fullTo ((1#5).setWidth 6) 32 (tVect.len 0) = true := by decide +kernel

theorem witness_ComparisonsAndMasks : tVect.settledQ 2#6 = true ∧ tVect.vready tAll 8 [] ∧ tVect.maskTo 1 (tVect.len 0) = true ∧
    tVect.maskTo 0 (tVect.len 0) = true := by decide +kernel

theorem witness_VectorMoves : tVect.vready tSome 32 [(1#6, 32), (2#6, 32), (3#6, 32)] ∧ tVect.settledV 3#6 32 = true := by decide +kernel

/-- An integer and a floating type, at both widening factors. -/
theorem witness_WideningBitmapsConflicts : 16 = Ty.width .i8 * 2 ^ (1#2).toNat ∧ 32 = Ty.width .i8 * 2 ^ (2#2).toNat ∧ Ty.isInt .f16 = false ∧
    tVect.vready tSome 32 [(4#6, 8), (4#6, 8), (3#6, 32)] ∧ tVect.vready tSome 16 [(4#6, 8), (4#6, 8), (3#6, 16)] ∧ tVect.settledV 3#6 32 = true ∧
    tVect.vready tSome 32 [(1#6, 16), (2#6, 16), (3#6, 32)] ∧ tVect.settledV 3#6 16 = true := by decide +kernel

theorem witness_WideningBitmapsConflicts_mask : tVect.vready tSome 32 [(1#6, 32), (2#6, 32)] ∧ tVect.settledQ ((2#3).setWidth 6) = true ∧
    (2#3) ≠ 0#3 := by decide +kernel

theorem witness_VectorFloats : Ty.isF3 .f32 = true ∧ tVect.vready tSome 32 [(1#6, 32), (2#6, 32), (3#6, 32)] ∧
    tVect.settledV 3#6 32 = true := by decide +kernel

theorem witness_ReductionsAndScans : tVect.vready tSome 32 [(1#6, 32)] ∧ tVect.settledV 3#6 32 = true ∧ tVect.lane 2#6 32 0 = .full 2 := by
  decide +kernel

/-- Format records, the codes they are used under, and elements that convert. -/
theorem witness_Conversions : recordOk 0x43B9#64 = true ∧ fcWidth 10#6 = 16 ∧ (9#6).toNat < 32 ∧
    tVect.vready tSome (max 32 16) [(1#6, 32)] ∧ tVect.settledV 3#6 16 = true ∧
    (∃ n, convert (fmtOfTy .f32) (fmtOfCode 10 0) (modeOf .rne 0#64) false (tVect.lane 3#6 32 0).num = .val n) ∧
    (∃ n, convert (fmtOfCode 10 0) (fmtOfTy .f32) (modeOf .rne 0#64) false (tVect.lane 3#6 16 0).num = .val n) ∧
    tVect.vready tSome (max 32 16) [(1#6, 16)] ∧ tVect.settledV 3#6 32 = true := by
  exact ⟨by decide +kernel, by decide +kernel, by decide +kernel, by decide +kernel, by decide +kernel, ⟨_, rfl⟩, ⟨_, rfl⟩, by decide +kernel,
    by decide +kernel⟩

/-- A code of e4m3, one of a record, a value between 2^3 and 2^4 for e8m0, and formats that are not both integers. -/
theorem witness_Conversions_formats : fmtOfTy .e4m3 = .flt ⟨1, 4, 3, 7, 2, []⟩ ∧ (1 ≤ 1 ∧ 15 < 2 ^ 4 ∧ 7 < 2 ^ 3 ∧ 255 = 1 * 2 ^ 7 + 15 * 2 ^ 3 + 7) ∧
    recordOk 0x00000001002001A7#64 = true ∧ fmtOfRecord 0x00000001002001A7#64 = ⟨1, 3, 2, 3, 0, [0x20]⟩ ∧
    ((2 : Rat) ^ ((130 : Int) - 127) ≤ 9 * (2 : Rat) ^ (0 : Int) ∧ 9 * (2 : Rat) ^ (0 : Int) < (2 : Rat) ^ ((130 : Int) - 126)) ∧
    (0 < 1 ∧ 1 * (2 : Rat) ^ (-128 : Int) < (2 : Rat) ^ (-127 : Int)) ∧
    (∀ (k : Nat) (sg : Bool), Fmt.e8m0 = .int k sg → ∀ k2 sg2, Fmt.int 8 true ≠ .int k2 sg2) := by
  refine ⟨rfl, by decide, by decide +kernel, by decide +kernel, by norm_num, by norm_num, fun _ _ h => nomatch h⟩

/-- A scale of 2^-127 and one that is NaN; the widths of packed formats; distinct destinations for `vquant`. -/
theorem witness_Conversions_blocks : tVect.vready tAll 32 [(1#6, 8)] ∧ tVect.vready tAll 32 [(4#6, 8)] ∧
    tVect.fullTo 4#6 8 ((tVect.len 0 + 31) / 32) = true ∧ ((fmtOfCode 11 0).decode (tVect.lane 4#6 8 0).num).isSome = true ∧
    (tVect.withCore fun k => { k with v := Tab.put k.v 4 (tVreg 8 [255]) }).lane 4#6 8 0 = .full 255 := by decide +kernel

/-- The widths that are packed, and two destinations for `vquant`. -/
theorem witness_Conversions_packs : 0 < (fmtOfCode 15 0).width ∧ (fmtOfCode 11 0).width ≤ 8 ∧ tVect.vready tAll 8 [(1#6, 8)] ∧ tVect.settledV 3#6 8 = true ∧
    tVect.vready tAll 32 [(1#6, 32)] ∧ tVect.settledV 5#6 8 = true ∧ (3#6) ≠ 5#6 ∧
    ((fmtOfCode 11 0).encode .rne true ((tyVal .f32 (tVect.lane 3#6 32 1).num).scale 127)).isSome = true := by
  decide +kernel

/-- No lanes; a length too great; a POISON element; a POISON mask bit. -/
theorem witness_VectorTraps : tBare.alone ∧ tBare.calm ∧ tBare.holdsLanes = false ∧ (tBare.curCore.slots.all fun t => t.2.flight.isEmpty) = true ∧
    (tVect.sreg 40 5000#64).laned ∧ (tVect.sreg 40 5000#64).calm ∧ vlmax 64 (tVect.sreg 40 5000#64).width < (tVect.sreg 40 5000#64).len 0 ∧
    vlmax 8 (tVect.sreg 40 5000#64).width < (tVect.sreg 40 5000#64).len 0 := by decide +kernel

def tPois : State := tVect.withCore fun k => { k with
  v := Tab.put k.v 1 ((tVreg 32 [7, 8, 3]).put 32 2 .poison), q := Tab.put k.q 2 ((tQreg [1, 0, 1]).put 1 .poison) }

theorem witness_VectorTraps_poison : tPois.calm ∧ tPois.vready tAll 32 [(2#6, 32)] ∧ tPois.settledV 3#6 32 = true ∧ 2 < tPois.len 0 ∧
    tPois.lane 1#6 32 2 = .poison ∧ (tPois.maskAt 0 2).num ≠ 0 ∧
    (∀ i < tPois.len 0, i ≠ 2 → (tPois.lane 1#6 32 i).isFull = true ∧ tPois.lane 3#6 32 i ≠ .poison) ∧ tPois.lane 3#6 32 2 ≠ .poison ∧
    tPois.vready tAll 8 [] ∧ tPois.maskAt 2 1 = .poison ∧ tPois.maskTo 2 1 = true ∧ 1 < tPois.len 0 ∧ tPois.cur.slotB = false := by decide +kernel

/-- Words of the first and the last opcode that name vector state. -/
theorem witness_VectorTraps_opcodes : decodeWord 0x8A41_7850_0000_3155#64 = .ok ⟨true, false, .one (.vfill 30#6 5#6 .e5m2 0x155#9)⟩ ∧
    field 0x8A41_7850_0000_3155#64 54 7 = 0x29 ∧ decodeWord 0x9E40_1400_4000_E000#64 = .ok ⟨true, false, .one (.twbuild 5#6 0#6 1#6 3#6 .f32)⟩ ∧
    field 0x9E00_0000_0000_0000#64 54 7 = 0x78 := ⟨rfl, rfl, rfl, rfl⟩

theorem witness_VectorTraps_word : decodeWord 0x8C44_1020_0000_0000#64 = .ok ⟨true, false, .one (.qpopc ⟨0, 0, 0⟩ 4#6 2#6)⟩ := rfl

def tVa : Word := 0x108#64

/-- Each width of a load and of a store in near memory. -/
theorem witness_ScalarLoadsAndStores : tMem.alone ∧ tMem.val 1#6 + (0#20).signExtend 64 = tVa ∧
    tMem.reads .data tVa 1 (tMem.at_ .read .data tVa 1) ∧ tMem.reads .data tVa 2 (tMem.at_ .read .data tVa 2) ∧
    tMem.reads .data tVa 4 (tMem.at_ .read .data tVa 4) ∧ tMem.reads (.scalar64 false) tVa 8 (tMem.at_ .read (.scalar64 false) tVa 8) ∧
    tMem.puts .write .data tVa 1 (tMem.at_ .write .data tVa 1) ∧ tMem.puts .write .data tVa 2 (tMem.at_ .write .data tVa 2) ∧
    tMem.puts .write .data tVa 4 (tMem.at_ .write .data tVa 4) ∧
    tMem.puts .write (.scalar64 true) tVa 8 (tMem.at_ .write (.scalar64 true) tVa 8) := by
  decide +kernel

/-- An unaligned load, load and store, each with its word. -/
theorem witness_ScalarLoadsAndStores_faults : tMem.calm ∧ tMem.cur.slotB = false ∧
    (∃ t, tMem.checkElt tMem.me 0 .read .data (tMem.val 1#6 + (1#20).signExtend 64) 4 = .error t) ∧
    (∃ t, tMem.checkElt tMem.me 0 .read (.scalar64 false) (tMem.val 1#6 + (1#20).signExtend 64) 8 = .error t) ∧
    (∃ t, tMem.checkElt tMem.me 0 .write (.scalar64 true) (tMem.val 1#6 + (1#20).signExtend 64) 8 = .error t) ∧
    decodeWord 0x9902_1010_0000_0001#64 = .ok ⟨true, false, .one (.ldI32 4#6 1#6 1#20)⟩ ∧
    decodeWord 0x9903_1010_0000_0001#64 = .ok ⟨true, false, .one (.ldI64 4#6 1#6 1#20)⟩ ∧
    decodeWord 0x9943_1010_0000_0001#64 = .ok ⟨true, false, .one (.st64 4#6 1#6 1#20)⟩ ∧
    (∃ t, tMem.checkElt tMem.me 0 .read .data (tMem.val 1#6 + (1#20).signExtend 64) 2 = .error t) ∧
    (∃ t, tMem.checkElt tMem.me 0 .write .data (tMem.val 1#6 + (0x70000#20).signExtend 64) 1 = .error t) := by
  exact ⟨by decide +kernel, rfl, ⟨_, rfl⟩, ⟨_, rfl⟩, ⟨_, rfl⟩, rfl, rfl, rfl, ⟨_, rfl⟩, ⟨_, rfl⟩⟩

/-- The last bytes of a near line, of a far line, and of a bank. -/
theorem witness_StoreWritesItsBytes : 8 ∈ [1, 2, 4, 8] ∧ (Place.near 0xFFFFFFFFB8 0 0x38).mem = true ∧ 0xFFFFFFFFB8 < 2 ^ 40 ∧
    0xFFFFFFFFB8 % 64 + 8 ≤ 64 ∧ 0x38 % 64 + 8 ≤ 64 ∧ tMem.keyFits (0xFFFFFFFFB8 / 64) 0 (0x38 / 64) = true ∧ (Place.far 0x38 511).mem = true ∧ 0x38 % 64 + 8 ≤ 64 ∧
    (Place.scratch 0 65528).mem = true ∧ Tab.wf (0, 0) tMem.lineKey = true ∧ Tab.rising tMem.banks none = true ∧
    (tMem.strandAt 0 0).isSome = true := by decide +kernel

def tFifo : State := tMem.sreg 1 0x50000#64
def tDev : State := tMem.sreg 1 0x30000#64
def tPeer : State := tMem.sreg 1 0x40000#64

/-- A FIFO bank popped, its status read at the next dword, and pushed. -/
theorem witness_FifoDeviceAndPeerAccesses_fifo : tFifo.alone ∧
    tFifo.at_ .read (.scalar64 false) 0x50000#64 8 ≠ tNoPlace ∧ tFifo.tideHeld tFifo.me 0x50000#64 8 = false ∧
    tFifo.stalled (tFifo.at_ .read (.scalar64 false) 0x50000#64 8) = false ∧
    tFifo.fifoBank (tFifo.at_ .read (.scalar64 false) 0x50000#64 8) = some (1, 0) ∧ (tFifo.pop 1 0 0).isSome = true ∧
    tFifo.fifoBank (tFifo.at_ .read (.scalar64 false) 0x50008#64 8) = some (1, 8) ∧
    tFifo.fifoBank (tFifo.at_ .write (.scalar64 true) 0x50000#64 8) = some (1, 0) ∧ (tFifo.push 1 0 0 7).isSome = true ∧
    (tFifo.bank 1).fifo.length < 65536 ∧ (tFifo.bank 1).queue = [] := by decide +kernel

/-- The page of HWIN, and a page of device 5. -/
theorem witness_FifoDeviceAndPeerAccesses_pages : tDev.alone ∧ tPeer.alone ∧ tDev.at_ .read (.scalar64 false) 0x30000#64 8 = .devreg 2 0 ∧
    tDev.at_ .write (.scalar64 true) 0x30000#64 8 = .devreg 2 0 ∧ tDev.stalled (.devreg 2 0) = false ∧
    tPeer.at_ .read (.scalar64 false) 0x40000#64 8 = .peer 5 0 0x40000#64 ∧ tPeer.at_ .write (.scalar64 true) 0x40000#64 8 = .peer 5 0 0x40000#64 ∧
    tPeer.tideHeld tPeer.me 0x40000#64 8 = false ∧ tPeer.stalled (.peer 5 0 0x40000#64) = false := by decide +kernel

/-- One element after another from 0x108 on. -/
def tAdr (i : Nat) : Word := 0x108#64 + BitVec.ofNat 64 (i * 4)

theorem witness_VectorLoads : tMem.vready tSome 32 [] ∧ tMem.settledV 3#6 32 = true ∧ tMem.sound ∧ tMem.actives tSome = [0, 2] ∧
    tMem.val 1#6 + (0#8).signExtend 64 * 64 = 0x108#64 ∧
    (∀ i ∈ tMem.actives tSome, tMem.reads .data (tAdr i) 4 (tMem.at_ .read .data (tAdr i) 4)) ∧
    (∀ i < 4, tAdr i = 0x108#64 + BitVec.ofNat 64 (i * (32 / 8))) ∧ (∀ i < 4, tAdr i = 0x108#64 + BitVec.ofNat 64 i * (tMem.sreg 4 4#64).val 4#6) := by
  decide +kernel

/-- The addresses that v6 gathers. -/
def tGat (i : Nat) : Word := tMem.val 1#6 + BitVec.ofNat 64 ((tMem.lane 6#6 32 i).num * 2 ^ (0#2).toNat)

theorem witness_VectorLoads_gathers : tMem.fullTo 6#6 32 (tMem.len 0) = true ∧
    (∀ i ∈ tMem.actives tSome, tMem.reads .data (tGat i) 4 (tMem.at_ .read .data (tGat i) 4)) := by decide +kernel

/-- A tensor of type i8, 16 × 16, at 0x108, and one of type f32. -/
def tDesc (fcode : Nat) : BitVec 512 :=
  BitVec.ofNat 512 (0x108 + (fcode + 2 ^ 6) * 2 ^ 64 + (16 + 16 * 2 ^ 32) * 2 ^ 128 + 16 * 2 ^ 256 + 0x3F800000 * 2 ^ 352)
def tTen : State := (tMem.sreg 4 1#64).strandWith fun t => { t with td := [(1, tDesc 0), (2, tDesc 8)] }
def tLin (i : Nat) : Int := (tTen.val 4#6).toInt + i

theorem witness_TensorLoads : tTen.vready tSome 8 [] ∧ tTen.settledV 3#6 8 = true ∧ tTen.sound ∧ Tab.find tTen.me.td 1 = some (tDesc 0) ∧ 1 < tTen.me.ntd ∧
    (tidOf (tDesc 0)).fmt.isInt = true ∧ (tidOf (tDesc 0)).fcode < 16 ∧ tyOfNat (tidOf (tDesc 0)).fcode = .i8 ∧ (tidOf (tDesc 0)).bsen = false ∧
    (tidOf (tDesc 8)).fmt.isInt = false ∧
    (∀ i ∈ tTen.actives tSome, ((tidOf (tDesc 0)).ofLinear (tLin i)).isSome = true ∧
      tTen.reads .data ((tidOf (tDesc 0)).addr (((tidOf (tDesc 0)).ofLinear (tLin i)).getD (0, 0, 0, 0))).1 1
        (tTen.at_ .read .data ((tidOf (tDesc 0)).addr (((tidOf (tDesc 0)).ofLinear (tLin i)).getD (0, 0, 0, 0))).1 1)) := by
  decide +kernel

theorem witness_TensorLoads_float : tTen.vready tSome 32 [] ∧ Ty.isF3 .f32 = true ∧ tTen.fullTo 2#6 32 (tTen.len 0) = true ∧
    (∀ i ∈ tTen.actives tSome, ((tidOf (tDesc 8)).ofLinear (tLin i)).isSome = true ∧
      tTen.reads .data ((tidOf (tDesc 8)).addr (((tidOf (tDesc 8)).ofLinear (tLin i)).getD (0, 0, 0, 0))).1 4
        (tTen.at_ .read .data ((tidOf (tDesc 8)).addr (((tidOf (tDesc 8)).ofLinear (tLin i)).getD (0, 0, 0, 0))).1 4) ∧
      (match (tidOf (tDesc 8)).value (codeOf (tidOf (tDesc 8)).fmt
            ((tidOf (tDesc 8)).addr (((tidOf (tDesc 8)).ofLinear (tLin i)).getD (0, 0, 0, 0))).2
            (tTen.readNat (tTen.at_ .read .data ((tidOf (tDesc 8)).addr (((tidOf (tDesc 8)).ofLinear (tLin i)).getD (0, 0, 0, 0))).1 4) 4)) 0 with
        | some y => ((fmtOfTy .f32).encode (modeOf .rne 0#64) false y).isSome
        | none => false) = true) := by
  decide +kernel

/-- Indices 1, 2 and 3 in v6, segments 0, 2 and 1 in v4, both of bytes, under the identifier of i8. -/
def tIdx : State := tTen.withCore fun k => { k with v := Tab.put (Tab.put k.v 6 (tVreg 8 [1, 2, 3])) 4 (tVreg 8 [0, 2, 1]) }
def tIdxAt (i : Nat) : Nat × Nat × Nat × Nat := ((tidOf (tDesc 0)).ofLinear (BitVec.ofNat 8 (tIdx.lane 6#6 8 i).num).toInt).getD (0, 0, 0, 0)

theorem holdsTid_tIdx : tIdx.holdsTid 1 (tidOf (tDesc 0)) := ⟨by decide +kernel, ⟨_, rfl, rfl⟩, .inl (by decide +kernel)⟩

theorem witness_TensorLoads_gathers : tIdx.vready tSome 8 [] ∧ tIdx.sound ∧ tIdx.settledV 3#6 8 = true ∧ tIdx.fullTo 6#6 8 (tIdx.len 0) = true ∧ tIdx.fullTo 4#6 8 (tIdx.len 0) = true ∧
    (∀ i ∈ tIdx.actives tSome, (tIdx.lane 4#6 8 i).num < tIdx.len 0) ∧
    (∀ i ∈ tIdx.actives tSome, (tidOf (tDesc 0)).ofLinear (BitVec.ofNat 8 (tIdx.lane 6#6 8 i).num).toInt = some (tIdxAt i) ∧
      tIdx.reads .data ((tidOf (tDesc 0)).addr (tIdxAt i)).1 1 (tIdx.at_ .read .data ((tidOf (tDesc 0)).addr (tIdxAt i)).1 1) ∧
      tIdx.reads .link ((tidOf (tDesc 0)).addr (tIdxAt i)).1 1 (tIdx.at_ .read .link ((tidOf (tDesc 0)).addr (tIdxAt i)).1 1)) := by
  decide +kernel

/-- A map of two rows of prefix and a slab of four at 0x108, elements 1 and 3 of 32 bits, and 60, which is beyond it. -/
def tMapped : State := { (tMem.sreg 1 5#64).withCore fun k => { k with v := Tab.put k.v 6 (tVreg 32 [1, 2, 7]) } with
  smaps := [(5, ⟨0x180#64, 0x108#64, 2, 2, 0, 8, none⟩)] }
def tGrown : State := { tMapped with smaps := [(5, ⟨0x180#64, 0x108#64, 2, 2, 0, 8, some (0x140#64, 8)⟩)] }
def tMapAt (i : Nat) : Word := if (tMapped.lane 6#6 32 i).num * 4 < 16 then 0x180#64 + BitVec.ofNat 64 ((tMapped.lane 6#6 32 i).num * 4)
  else 0x108#64 + BitVec.ofNat 64 ((tMapped.lane 6#6 32 i).num * 4 - 16)

theorem witness_TensorLoads_maps : tMapped.vready tSome 32 [(6#6, 32)] ∧ tMapped.sound ∧ tMapped.settledV 3#6 32 = true ∧ tMapped.actives tSome = [0, 2] ∧ tMapped.calm ∧
    (Tab.find tMapped.smaps 5).map Smap.asid = some tMapped.me.asid ∧ (tMapped.val 1#6).toNat = 5 ∧
    (∀ i ∈ tMapped.actives tSome, (tMapped.lane 6#6 32 i).num * 4 < 2 * 8 + 2 ^ 2 * 8) ∧
    (∀ i ∈ tMapped.actives tSome, tMapped.reads .data (tMapAt i) 4 (tMapped.at_ .read .data (tMapAt i) 4)) ∧
    tGrown.vready tSome 32 [(6#6, 32)] ∧ tGrown.reads .data (0x140#64 + 12#64) 4 (tGrown.at_ .read .data (0x140#64 + 12#64) 4) ∧
    ¬ (60 * 4 < 2 * 8 + 2 ^ 2 * 8) := by decide +kernel

/-- The word of the gather, with no entry that its ASID may use. -/
theorem witness_TensorLoads_map_faults : (∃ e l, decodeWord 0x99C0_0C11_8180_0900#64 = .ok ⟨e, l, .one (.vgat ⟨0, 1, 1⟩ 3#6 1#6 6#6 .rne .i32 0#1 2#2 0#2)⟩) ∧
    (tMem.sreg 1 5#64).smaps = [] ∧ ((tMem.sreg 1 5#64).actives tSome).head? = some 0 := ⟨⟨_, _, rfl⟩, rfl, by decide +kernel⟩

/-- By the identifier of i8: scatters, sums, atomics and conditional scatters find their places. -/
theorem witness_aimed : tIdx.aimed tSome 1#6 6#6 .i8 1#2 0#2 (tidOf (tDesc 0)) (fun i => ((tidOf (tDesc 0)).addr (tIdxAt i)).1)
      (fun i => ((tidOf (tDesc 0)).addr (tIdxAt i)).2) ∧ tMem.aimed tSome 1#6 6#6 .i32 0#2 0#2 (tidOf (tDesc 0)) tGat (fun _ => false) :=
  ⟨.inr ⟨rfl, holdsTid_tIdx, by decide +kernel, by decide +kernel, by decide +kernel, fun i hi => ⟨tIdxAt i, by
      have : ∀ i ∈ tIdx.actives tSome, (tidOf (tDesc 0)).ofLinear (BitVec.ofNat 8 (tIdx.lane 6#6 8 i).num).toInt = some (tIdxAt i) := by decide +kernel
      exact this i hi, rfl, rfl⟩⟩, .inl ⟨rfl, fun _ => ⟨rfl, rfl⟩⟩⟩

theorem witness_aimed_places : tIdx.vready tSome 8 [(6#6, 8), (2#6, 8), (3#6, 8)] ∧
    (∀ i ∈ tIdx.actives tSome, tIdx.puts .write .data ((tidOf (tDesc 0)).addr (tIdxAt i)).1 1 (tIdx.at_ .write .data ((tidOf (tDesc 0)).addr (tIdxAt i)).1 1) ∧
      tIdx.puts .atomic .data ((tidOf (tDesc 0)).addr (tIdxAt i)).1 1 (tIdx.at_ .atomic .data ((tidOf (tDesc 0)).addr (tIdxAt i)).1 1) ∧
      tIdx.tideHeld tIdx.me ((tidOf (tDesc 0)).addr (tIdxAt i)).1 1 = false) := by decide +kernel

theorem witness_VectorStores : tMem.vready tSome 32 [(2#6, 32)] ∧ tMem.sound ∧
    (∀ i ∈ tMem.actives tSome, tMem.puts .write .data (tAdr i) 4 (tMem.at_ .write .data (tAdr i) 4)) ∧
    (∀ i ∈ tMem.actives tSome, tMem.puts .write .data (tGat i) 4 (tMem.at_ .write .data (tGat i) 4)) ∧
    (∀ i ∈ tTen.actives tSome, tTen.puts .write .data ((tidOf (tDesc 8)).addr (((tidOf (tDesc 8)).ofLinear (tLin i)).getD (0, 0, 0, 0))).1 4
      (tTen.at_ .write .data ((tidOf (tDesc 8)).addr (((tidOf (tDesc 8)).ofLinear (tLin i)).getD (0, 0, 0, 0))).1 4)) := by
  decide +kernel

/-- Segments 2, 1 and 0, all below the length of 3. -/
theorem witness_PooledSumsAndScatterAdds : tMem.vready tSome 32 [(6#6, 32), (2#6, 32)] ∧ tMem.sound ∧ tMem.settledV 3#6 32 = true ∧
    (∀ i ∈ tMem.actives tSome, (tMem.lane 2#6 32 i).num < 3) ∧
    (∀ i ∈ tMem.actives tSome, tMem.reads .data (tGat i) 4 (tMem.at_ .read .data (tGat i) 4)) ∧
    (∀ i ∈ tMem.actives tSome, tMem.puts .atomic .data (tGat i) 4 (tMem.at_ .atomic .data (tGat i) 4) ∧ tMem.tideHeld tMem.me (tGat i) 4 = false) := by
  decide +kernel

/-- The value of a check, if it has one. -/
def tOk {α β : Type} : Except α β → Bool
  | .ok _ => true
  | .error _ => false

def tVal {α β : Type} (d : β) : Except α β → β
  | .ok x => x
  | .error _ => d

/-- A frame of three words at VA 0x180, and room for one on page 2. -/
def tFrame : State := { tMem.sreg 1 0x180#64 with hbm := placeDwords tMem.hbm [(0x100180, spillHeader 3 .i32 8), (0x1001C0, 5 + 6 * 2 ^ 32), (0x1001C8, 7)] }
def tSpill : State := tMem.sreg 1 0x20000#64
def tFrameAdr (i : Nat) : Word := 0x180#64 + BitVec.ofNat 64 (64 + i * 4)

theorem witness_SpillFrames_spill : tSpill.laned ∧ tSpill.sound ∧ tSpill.vready ⟨0, 0, 0⟩ 32 [(1#6, 32)] ∧ tSpill.len 0 < 4096 ∧
    tSpill.val 1#6 + (0#9).signExtend 64 * 64 = 0x20000#64 ∧
    (match tSpill.framePlaces (tSpill.pageMap 0 tSpill.me.asid tSpill.me.lvl .write .data (pageAddrs 0x20000#64 80) [])
        0x20000#64 (List.replicate 80 1#8) with
      | .ok ps => !(ps.any fun x => tSpill.stalled x.1) && (tSpill.linesRefused ps).isNone && ps.all fun x => x.1.mem
      | .error _ => false) = true := by decide +kernel

theorem witness_SpillFrames_fill : tFrame.laned ∧ tFrame.sound ∧ (0x180#64).toNat % 64 = 0 ∧
    (match tFrame.ownRead tFrame.me 0 (fun r x => pageFault r .read x) 0x180#64 1 with
      | .ok hb => decide (field (BitVec.ofNat 64 (ofBytes hb)) 24 8 = 0xB7) && decide (field (BitVec.ofNat 64 (ofBytes hb)) 12 4 = Ty.code4 .i32) &&
          decide (field (BitVec.ofNat 64 (ofBytes hb)) 0 12 = 3)
      | _ => false) = true ∧ 3 ≤ vlmax 32 tFrame.width ∧
    (∀ i < 3, tFrame.reads .data (tFrameAdr i) 4 (tFrame.at_ .read .data (tFrameAdr i) 4)) := by decide +kernel

/-- Tile 5 of four codes, under a tensor of e4m3 at 0x108. -/
def tTile (st : TileSt) : State := ((tMem.sreg 4 1#64).strandWith fun t => { t with td := [(1, tDesc 11)] }).withCore fun k =>
  { k with tiles := [(5, { Tile.start with colsm1 := 1, rowsm1 := 1, st := st })] }
def tTileAt (trans : Bool) (i : Nat) : Nat × Nat × Nat × Nat := if trans then (i / 2, i % 2, 0, 0) else (i % 2, i / 2, 0, 0)

theorem witness_Tiles : (tTile .empty).alone ∧ (tTile .empty).holdsLanes = true ∧ Tab.find (tTile .empty).me.td 1 = some (tDesc 11) ∧
    1 < (tTile .empty).me.ntd ∧ (tidOf (tDesc 11)).recordSet ∧ (tidOf (tDesc 11)).fmt.cls = some ((tTile .empty).tile 5).ew ∧
    ((tTile .empty).tile 5).rows * ((tTile .empty).tile 5).cols = 4 ∧ ((tTile .empty).tile 5).st ≠ .filling ∧
    ((tTile .empty).tile 5).st ≠ .draining ∧ (tidOf (tDesc 11)).bsen = false ∧ (tTile .empty).val 32#6 = 0 ∧ (tTile .empty).sound := by
  decide +kernel

theorem witness_Tiles_fill : (∀ trans : Bool, ∀ i < 4, (tidOf (tDesc 11)).ofCoords (tTileAt trans i) = some (tTileAt trans i) ∧
    (tTile .empty).reads .data ((tidOf (tDesc 11)).addr (tTileAt trans i)).1 (tidOf (tDesc 11)).fmt.bytes
      ((tTile .empty).at_ .read .data ((tidOf (tDesc 11)).addr (tTileAt trans i)).1 (tidOf (tDesc 11)).fmt.bytes)) := by decide +kernel

theorem witness_Tiles_drain : (tTile .ready).alone ∧ (tTile .ready).holdsLanes = true ∧ ((tTile .ready).tile 5).st = .ready ∧
    ((tTile .ready).tile 5).fill.isNone = true ∧ ((tTile .ready).tile 5).poison = 0 := by decide +kernel

theorem witness_Tiles_drains : (∀ i < 4, (tidOf (tDesc 11)).ofCoords (tTileAt false i) = some (tTileAt false i) ∧
      (tTile .ready).puts .write .data ((tidOf (tDesc 11)).addr (tTileAt false i)).1 (tidOf (tDesc 11)).fmt.bytes
        ((tTile .ready).at_ .write .data ((tidOf (tDesc 11)).addr (tTileAt false i)).1 (tidOf (tDesc 11)).fmt.bytes)) := by decide +kernel

/-- `tlatch` of tile 5, its word, and the latch it may find. -/
theorem witness_MatrixRows_latch : (tTile .ready).curCore.latching = none ∧ (tTile .ready).cur.slotB = false ∧ ((tTile .ready).tile 5).ew < 3 ∧
    ((tTile .ready).tile 5).rowsm1 < 128 ∧ ((tTile .ready).tile 5).snap.fcode ≠ 16 ∧ (tidOf (tDesc 11)).fmt ≠ .e8m0 ∧
    (tidOf (tDesc 11)).fmt.width ≤ 16 := by decide +kernel

theorem witness_MatrixRows_word : decodeWord 0x9640_0050_4000_0000#64 = .ok ⟨true, false, .one (.tlatch 5#6 1#6)⟩ := rfl

def tLatch : Latch := { k := 2, n := 3, ew := 1, fa := 11, fb := 11, recA := 0, recB := 0, sA := 0x3F800000, sB := 0x3F800000, scale := 0x3F800000, bsen := false, codes := BitVec.ofNat 131072 0x3A3938313030, side := 0x7F7F7F, poison := 0 }
def tRow : State := (tTile .ready).withCore fun k => { k with latch := some tLatch, v := Tab.put k.v 1 (tVreg 8 [0x30, 0x38]) }
def tRowAt (m k : Nat) : Elt := (Tab.get VReg.zero tRow.curCore.v (1 + m)).get tLatch.fmtA.elemWidth k
def tIsReady : RowState → Bool
  | .ready _ _ => true
  | _ => false

theorem witness_MatrixRows : tRow.vready tSome 32 [] ∧ tRow.curCore.latch = some tLatch ∧ tRow.curCore.latching = none ∧ tRow.len 0 ≤ tLatch.n ∧
    (∀ m ≤ 7, tRow.settledV (10#6 + BitVec.ofNat 6 m) 32 = true ∧ tRow.fullTo (10#6 + BitVec.ofNat 6 m) 32 (tRow.len 0) = true) ∧
    (∀ m ≤ 7, tIsReady (rowState tLatch ⟨tRowAt m, fun _ => .full 127, fun _ => .full 0⟩ (tRow.actives tSome) 0) = true) ∧
    tIsReady (rowState tLatch ⟨tRowAt 0, fun _ => .full 127, fun k => tRow.maskAt 1 k⟩ (tRow.actives tSome) 0) = true := by decide +kernel

theorem witness_MatrixRows_tile : (tRow.tile 5).st = .ready ∧ 0 < (tRow.tile 5).rows ∧ some (tRow.tile 5).ew = tLatch.fmtA.cls ∧
    tLatch.k ≤ (tRow.tile 5).cols ∧ (tRow.tile 5).poison.getLsbD 0 = false ∧ (tRow.val 32#6).toNat = 0 ∧
    tIsReady (rowState tLatch ⟨fun k => .full (getBits (tRow.tile 5).codes ((0 * (tRow.tile 5).cols + k) * (tRow.tile 5).ebits) (tRow.tile 5).ebits),
      fun _ => .full 127, fun _ => .full 0⟩ (tRow.actives tSome) 0) = true ∧
    tLatch.k ≤ 32 ∧ 0 < tLatch.k ∧ getBits tLatch.side 0 8 ≠ 255 := by decide +kernel

/-- A view of 4 by 4 bytes on page 1, whose cutting leaves entries 6 and 7. -/
def tView : Lineage := { Lineage.start with st := 1, gen := 2, root := ⟨0x10000#64, 4, 4, 0, 0, [0]⟩, rows := 4, cols := 4 }
def tReel : State := { (tMem.strandWith fun t => { t with h := [(1, handleImage 5 2)] }) with lineage := [(5, tView)] }
def tCut : State := { (tMem.strandWith fun t => { t with h := [(1, handleImage 6 2), (2, handleImage 7 2)] }) with lineage :=
  [(5, { tView with st := 2, kids := 2 }), (6, { tView with parent := some 5, rows := 2 }), (7, { tView with parent := some 5, rows := 2, r0 := 2, side := 1 })] }
/-- Geometry in s1, the storage's base in s4. -/
def tNew : State := (tMem.sreg 1 0x00030003#64).sreg 4 0x10000#64

theorem witness_ReelHandles_new : tNew.alone ∧ tNew.myHandle 3#6 = .blank ∧ geometry (tNew.val 1#6) tNew.me.fmt = some ⟨0, 4, 4, 0, 0, []⟩ ∧
    tOk (tNew.reelStorage ⟨0, 4, 4, 0, 0, []⟩ (tNew.val 4#6)) = true ∧ tNew.canDraw 1 = true ∧
    tNew.overlapsReleasing ⟨0, 4, 4, 0, 0, []⟩ (tNew.val 4#6) = false := by decide +kernel

/-- A cut after two of four rows, and after three columns, the last that leaves one. -/
theorem witness_ReelHandles_cut : tReel.alone ∧ tReel.me.work.isNone = true ∧ tReel.myHandle 1#6 = .live 5 2 ∧ (tReel.lin 0 5).st = 1 ∧
    (tReel.lin 0 5).gen = 2 ∧ 0 < (tReel.val 3#6).toNat ∧ (tReel.val 3#6).toNat < (tReel.lin 0 5).rows ∧
    (tReel.val 0#6).toNat < (tReel.lin 0 5).cols ∧ reelWidth (tReel.lin 0 5).root.fmt ≠ 4 := by decide +kernel

theorem witness_ReelHandles_cuts : (3#6) ≠ 1#6 ∧ (3#6 + 1 ≠ 1#6) ∧ (3#6).toNat < 15 ∧
    tReel.myHandle 3#6 = .blank ∧ tReel.myHandle (3#6 + 1) = .blank ∧ tReel.canDraw 2 = true ∧ Tab.wf Lineage.start tReel.lineage = true := by
  decide +kernel

theorem witness_ReelHandles_generations (e : Nat) : (tReel.lin 0 e).gen < 65536 := by
  show (Tab.get Lineage.start [(5, tView)] (1024 * 0 + e)).gen < 65536
  unfold Tab.get Tab.find
  split <;> simp [tView, Tab.find, Lineage.start]

theorem witness_ReelHandles_splice : tCut.alone ∧ tCut.myHandle 1#6 = .live 6 2 ∧ tCut.myHandle 2#6 = .live 7 2 ∧ (tCut.lin 0 6).st = 1 ∧
    (tCut.lin 0 7).st = 1 ∧ (tCut.lin 0 6).gen = 2 ∧ (tCut.lin 0 7).gen = 2 ∧ (tCut.lin 0 6).parent = some 5 ∧ (tCut.lin 0 7).parent = some 5 ∧
    (tCut.lin 0 6).side = 0 := by decide +kernel

theorem witness_ReelHandles_spliced : (tCut.lin 0 6).drawn = none ∧ (tCut.lin 0 7).drawn = none ∧ tCut.myHandle 3#6 = .blank ∧
    Tab.wf Lineage.start tCut.lineage = true ∧ (tCut.lin 0 5).gen < 65536 ∧ (tReel.lin 0 5).parent = none ∧ (tReel.lin 0 5).drawn = none ∧
    tReel.rootOpen 0 (tReel.lin 0 5).root = false ∧ tReel.calm ∧ tReel.myHandle 0#6 = .blank := by decide +kernel

/-- A launch of six items, one to three members, with three tide marks of which mark 1 is bound. -/
def tLaunch : Launch := { (launchHeader []).launch 0 [] [] with fields := [(2, 0, 3), (3, 1, 2)], ntm := 3, marks := [(1, ⟨10, some (0x100, 8, 4)⟩)], begun := true, armed := true, items := [(0, ⟨0, 0, [], 0⟩), (1, ⟨0, 0, [], 0⟩), (2, ⟨0, 0, [(0, 1)], 0⟩), (3, ⟨0, 0, [], 0⟩)], group := 1 }
def tItem : WorkItem := ⟨4, 2, 0x15, 0, 0⟩
def tWork : State := { (tReel.strandWith fun t => { t with work := some tItem }) with launches := [(4, tLaunch)] }

theorem witness_ReelHandles_move : tWork.alone ∧ tWork.me.work = some tItem ∧ (Tab.find tWork.launches 4).isSome = true ∧ tItem.linear = (tWork.val 3#6).toNat ∧
    tItem.linear < tLaunch.count ∧ tWork.myHandle 1#6 = .live 5 2 ∧ tWork.matches_ 0 5 2 = true ∧ tWork.myHandle 2#6 = .blank := by decide +kernel

theorem witness_ReelRows : tReel.vready tSome 8 [(4#6, 8)] ∧ tReel.settledV 3#6 8 = true ∧ tReel.sound ∧ (tReel.lin 0 5).root.eltWidth = 8 ∧
    (tReel.lin 0 5).open_ = 0 ∧ 0 < (tReel.lin 0 5).rows ∧ tReel.viewBusy 0 (handleImage 5 2) = false ∧
    (∀ i ∈ tReel.actives tSome, 0 + i < (tReel.lin 0 5).cols ∧ tReel.tideHeld tReel.me ((tReel.lin 0 5).place 0 0 (0 + i)).2.1 1 = false ∧
      tReel.stalled ((tReel.lin 0 5).place 0 0 (0 + i)).1 = false) := by decide +kernel

/-- Near memory, and the pool. -/
theorem witness_ScalarAtomics : tMem.alone ∧ tMem.puts .atomic .data tVa 8 (tMem.at_ .atomic .data tVa 8) ∧ tMem.tideHeld tMem.me tVa 8 = false ∧
    tMem.poisoned (tMem.at_ .atomic .data tVa 8) = false ∧
    tMem.puts .atomic .data 0x60000#64 8 (tMem.at_ .atomic .data 0x60000#64 8) ∧ (tMem.at_ .atomic .data 0x60000#64 8).pooled = true := by
  decide +kernel

theorem witness_VectorAtomics : tMem.vready tSome 32 [(6#6, 32), (2#6, 32), (3#6, 32)] ∧ tMem.settledV 3#6 32 = true ∧ tMem.sound ∧
    (∀ i ∈ tMem.actives tSome, tMem.puts .atomic .data (tGat i) 4 (tMem.at_ .atomic .data (tGat i) 4) ∧ tMem.tideHeld tMem.me (tGat i) 4 = false) := by
  decide +kernel

theorem witness_GatherLinkedScatterConditional : tMem.vready tSome 32 [(6#6, 32)] ∧ tMem.sound ∧ tMem.settledV 3#6 32 = true ∧ tMem.settledQ 2#6 = true ∧
    tMem.fullTo 2#6 32 (tMem.len 0) = true ∧
    (∀ i ∈ tMem.actives tSome, tMem.reads .link (tGat i) 4 (tMem.at_ .read .link (tGat i) 4)) ∧
    (∀ i ∈ tMem.actives tSome, tMem.puts .write .data (tGat i) 4 (tMem.at_ .write .data (tGat i) 4) ∧ tMem.tideHeld tMem.me (tGat i) 4 = false) := by
  decide +kernel

/-- A strand that holds a link on the block written. -/
theorem witness_GatherLinkedScatterConditional_links : (tMem.strandAt 0 0).isSome = true ∧
    ((tMem.at_ .write .data tVa 4).link.map fun l => (⟨l.1, l.2, false⟩ : Link)).isSome = true := by decide +kernel

/-- One member, and two of which the other has contributed. -/
def tXred (fn : Nat) : State := { (tWork.sreg 1 0#64) with
  launches := [(4, { tLaunch with fields := [(2, 0, 3), (1, 4, 2)] })]
  xreds := [⟨4, 2, 0, 1, [0, fn, Ty.code4 .i32, 0, 3], [(0, 1), (1, 2), (2, 3)]⟩] }

theorem witness_CrossDeviceReductions : (tMem.vready tAll 32 [] ∧ tMem.calm ∧ tMem.me.work.isNone = true) ∧ (tWork.vready tAll 32 [] ∧ tWork.calm) ∧
    tLaunch.members ≤ 1 ∧ (∀ m ≤ 1, tWork.settledV (1#6 + BitVec.ofNat 6 m) 32 = true ∧ tWork.fullTo (1#6 + BitVec.ofNat 6 m) 32 (tWork.len 0) = true) := by
  decide +kernel

theorem witness_CrossDeviceReductions_members : (tXred 0).vready tAll 32 [] ∧ (tXred 0).calm ∧ ((tXred 0).myLaunch.map Launch.members) = some 2 ∧
    ((tXred 0).myLaunch.map fun l => (tXred 0).gangBroken l) = some false ∧ (tXred 0).matched tItem 0 = (tXred 0).xreds ∧
    ((tXred 0).xreds.map Contribution.member) = [1] ∧ ((tXred 0).myLaunch.map Launch.member) = some 0 ∧ ((tXred 0).val 1#6).toNat = 0 ∧
    (tXred 0).len 0 = 3 := by decide +kernel

/-- A near dword, and one of the pool, under each access form. -/
theorem witness_Fences : tMem.alone ∧ tMem.reads (.fence false) tVa 8 (tMem.at_ .read (.fence false) tVa 8) ∧
    tMem.puts .write (.fence false) tVa 8 (tMem.at_ .write (.fence false) tVa 8) ∧ Tab.rising tMem.far none = true ∧
    (tMem.sreg 1 0x60000#64).alone ∧
    (tMem.sreg 1 0x60000#64).reads (.fence true) 0x60000#64 8 (tMem.at_ .read (.fence true) 0x60000#64 8) ∧
    (tMem.sreg 1 0x60000#64).puts .write (.fence true) 0x60000#64 8 (tMem.at_ .write (.fence true) 0x60000#64 8) := by decide +kernel

/-- Page 8 of near frame 20 in migration from frame 21; an ASID record at 0x200; the record of a map at 0x220. -/
def tCtl : State := { (tMem.regsWith fun r => ((r.put 1 5#64).put 2 0x200#64).put 4 300#64) with
  hbm := placeDwords tMem.hbm [(0x5040, 0x3F + 20 * 65536 + 2 ^ 62), (0x100200, 0x9000), (0x100208, 7), (0x100220, 0x10000), (0x100228, 0x20000), (0x100230, 100 + 2 * 2 ^ 32 + 8 * 2 ^ 48)]
  stale := [⟨0x5000, 1, []⟩] }

theorem witness_TranslationControl : tCtl.alone ∧ tCtl.me.lvl ≠ .u ∧ (tCtl.val 1#6).toNat ≤ 255 ∧ canonical (tCtl.val 2#6) = true ∧
    (Tab.find tCtl.asids (tCtl.val 32#6).toNat).isSome = true ∧ 255 < (tCtl.val 4#6).toNat ∧ (Tab.find tCtl.asids (tCtl.val 1#6).toNat).isNone = true ∧
    (tCtl.val 2#6).toNat % 16 = 0 ∧ tOk (tCtl.pages 0 tCtl.me.asid tCtl.me.lvl .read .data 0x200#64 (pagesOf 0x200#64 16)) = true ∧
    (match tCtl.ownRead tCtl.me 0 (fun r x => pageFault r .read x) 0x200#64 2 with
      | .ok bs => (asidRecord bs).isSome
      | _ => false) = true := by decide +kernel

/-- No access is held; one in slot 1 that was translated through page 0 of ASID 0. -/
def tHeld : State := tCtl.setStrand 0 1 { tStrand0 with flight := [⟨0x1000#64, 1, tMem.me.r, [{ Entry.start 0x9903_1010_0000_0001#64 false 0 3
  (planOfWord 0x9903_1010_0000_0001#64 false) with held := true, pages := match tCtl.leafOf 0 0x108#64 with
    | .ok l => [(0, .ok l)]
    | .error _ => [] }], none, true⟩] }

theorem witness_TranslationControl_held : (tCtl.heldBy fun _ _ => true) = [] ∧ (tHeld.heldBy fun t p => t.asid == 0 && coversPage 0x108#64 p) ≠ [] ∧
    tHeld.alone ∧ tHeld.calm ∧ tHeld.cur.slotB = false ∧ 255 < (tHeld.val 4#6).toNat ∧ canonical (0x8000000000000000#64) = false ∧
    (Tab.find tHeld.asids (tHeld.val 1#6).toNat).isNone = true ∧ (tHeld.val 1#6).toNat ≤ 255 := by decide +kernel

/-- A record that is read, at an address that is not aligned, one that is malformed, and one that no page holds. -/
theorem witness_TranslationControl_records : (match tCtl.recordRead 0x200#64, tCtl.recordRead 0x208#64, tCtl.recordRead 0x220#64, tCtl.recordRead 0x70000#64 with
      | .ok a, .ok _, .ok c, .trap _ => (asidRecord a).isSome && (asidRecord c).isNone
      | _, _, _, _ => false) = true ∧ (0x208#64).toNat % 16 ≠ 0 ∧ (0x220#64).toNat % 16 = 0 := by decide +kernel

/-- Banks that hold reel storage, an item's, and a strand that waits. -/
def tBanks : State := { tCtl with
  lineage := [(5, { Lineage.start with st := 1, gen := 2, root := ⟨0x10000#64, 4, 4, 0, 0, [8 * 4]⟩, rows := 4, cols := 4 })]
  banks := [(3, { Bank.start with item := some (4, 2) }), (4, { Bank.start with mode := 1 }), (5, { Bank.start with mode := 2, queue := [(0, 1, true)] })] }

theorem witness_TranslationControl_answers : tBanks.bankReel 4 = true ∧ tBanks.bankReel 3 = false ∧ (tBanks.bank 3).item ≠ none ∧ tBanks.bankReel 5 = false ∧
    (tBanks.bank 5).item = none ∧ (tBanks.bank 5).mode = 2 ∧ (tBanks.bank 5).queue ≠ [] ∧ (tBanks.bank 3).mode = 0 ∧ (tBanks.bank 4).mode = 1 ∧
    (tBanks.bank 6).switch.isNone = true ∧ tBanks.bankReel 6 = false := by decide +kernel

/-- An ASID that something uses, one that nothing does, and the banks at their boundary. -/
def tAsids : State := { tCtl with asids := [(0, ⟨1, 1⟩), (5, ⟨2, 2⟩), (255, ⟨3, 1⟩)], cmds := [(9, ⟨1, 0, 2, 4, 255, .s, 0, 0, 0, 0, true, none, false, false, false⟩)] }

theorem witness_TranslationControl_asids : tAsids.alone ∧ 0 < (tAsids.val 1#6).toNat ∧ (Tab.find tAsids.asids 5).isSome = true ∧ tAsids.asidUsed 5 = false ∧
    (Tab.find tAsids.asids 255).isSome = true ∧ tAsids.asidUsed 255 = true ∧ ((tAsids.sreg 1 255#64).val 1#6).toNat = 255 := by decide +kernel

theorem witness_TranslationControl_banks : ((tCtl.sreg 1 2047#64).val 1#6).toNat < 2048 ∧ 2048 ≤ ((tCtl.sreg 1 2048#64).val 1#6).toNat ∧
    (tCtl.bank 2047).switch.isNone = true ∧ tCtl.bankModeNow 2047 ((tCtl.sreg 3 1#64).val 3#6).toNat = none ∧ tCtl.cur.slotB = false ∧
    ((tCtl.sreg 3 3#64).val 3#6) = 3 := by decide +kernel

theorem witness_TranslationControl_word : decodeWord 0x9AC0_1410_C000_0000#64 = .ok ⟨true, false, .one (.bankMode 5#6 1#6 3#6)⟩ := rfl

theorem witness_TranslationControl_probe : tOk (tCtl.leafFor 0 tCtl.me.asid tCtl.me.lvl .read (.scalar64 false) (tCtl.val 2#6)) = true ∧
    tOk (tCtl.leafFor 0 tCtl.me.asid tCtl.me.lvl .read (.scalar64 false) 0x70000#64) = false ∧ tCtl.atU.alone ∧ tCtl.atU.me.lvl = .u := by decide +kernel

/-- Two counters, 2 in use at 7 of which 3 are done, and a command that has stopped with its record in memory. -/
def tStopped : Cmd := { kind := 1, core := 0, ctr := 2, num := 4, asid := 0, lvl := .s, dst := 0x400#64, src := 0x500#64, len := 64, entry := 0, begun := true, stop := some (3, 0x400#64), sent := true, logged := false, fin := false }
def tTl : State := { (tCtl.strandWith fun t => { t with tl := [2, 5] }).withCore fun k => { k with ctrs := [(2, ⟨7, 3, true, 1, none⟩), (5, Ctr.start)] } with
  nextCmd := 10
  cmds := [(9, tStopped)]
  smaps := [(5, ⟨0x10000#64, 0x20000#64, 100, 23, 0, 8, none⟩)]
  hbm := placeDwords tCtl.hbm ((List.range 8).map fun i => (0x100300 + 8 * i, (tStopped.record.getD i 0).toNat)) }

theorem witness_CountersAndEngines : tTl.alone ∧ tTl.me.tl[(0#6).toNat]? = some 2 ∧ (tTl.ctr 0 2).iss = 7 ∧ (tTl.ctr 0 2).done = 3 ∧
    (tTl.val 0#6).toNat ≤ (tTl.ctr 0 2).done ∧ (tTl.ctr 0 2).done < (tTl.val 1#6).toNat ∧ (tTl.val 1#6).toNat ≤ (tTl.ctr 0 2).iss ∧
    (tTl.ctr 0 2).iss < (tTl.val 7#6).toNat ∧ tTl.calm ∧ tTl.outstanding 0 < 64 ∧ (Tab.find tTl.cmds tTl.nextCmd).isNone = true ∧
    (∀ x ∈ tTl.cmds, x.2.num ≠ (tTl.ctr 0 2).iss + 1) := by decide +kernel

/-- Copies that do not overlap, of no bytes too; a page that migrates; a map that grows and one that is removed. -/
theorem witness_CountersAndEngines_commands : rangesOverlap 0x400#64 0x500#64 0x100 = false ∧ rangesOverlap 0x400#64 0x400#64 0 = false ∧ tTl.me.lvl ≠ .u ∧
    tTl.migrates tTl.me.asid 0x80000#64 (BitVec.ofNat 64 (0x3F + 21 * 65536)) = true ∧ tOk (tTl.leafOf tTl.me.asid 0x80000#64) = true ∧
    (Tab.find tTl.smaps 5).isSome = true ∧ ((Tab.find tTl.smaps 5).bind Smap.grow).isNone = true ∧
    ((Tab.find tTl.smaps 5).map Smap.k) = some 23 ∧ (tTl.val 2#6).toNat % 64 = 0 ∧ tTl.val 32#6 = 0 := by decide +kernel

/-- A record that `smap.inv` reads, and what is wrong with ranges, pages and maps that trap. -/
theorem witness_CountersAndEngines_traps : (match tTl.smapRecord 0x220#64 with
      | some (.ok _) => true
      | _ => false) = true ∧ rangesOverlap 0x400#64 0x410#64 0x100 = true ∧
    tTl.migrates tTl.me.asid (tTl.val 1#6) (tTl.val 2#6) = false ∧ (Tab.find tTl.smaps (tTl.val 2#6).toNat).all (fun m => m.grow.isSome) = true ∧
    tTl.smapRecord (tTl.val 32#6) ≠ some .held ∧ tTl.calm ∧ tTl.outstanding 0 < 64 ∧ (0x228#64).toNat % 32 ≠ 0 ∧
    (match tTl.ownRead tTl.me 0 (fun r x => pageFault r .read x) 0x300#64 4 with
      | .ok bs => smapRecordOk bs
      | _ => true) = false := by decide +kernel

theorem witness_CountersAndEngines_resume : (match tTl.resumeRecord 0x300#64 with
      | .ok bs => (tTl.stoppedBy 0 2 (recordOf bs)).isSome
      | _ => false) = true := by decide +kernel

theorem witness_CountersAndEngines_maps : (tTl.val 4#6).toNat ≤ 16383 ∧ (Tab.find tTl.smaps (tTl.val 4#6).toNat).isNone = true ∧
    (Tab.find tTl.smaps (tTl.val 1#6).toNat).isSome = true ∧ 16383 < (tTl.val 5#6).toNat ∧
    tOk (tTl.pages 0 tTl.me.asid tTl.me.lvl .read .data 0x220#64 (pagesOf 0x220#64 32)) = true ∧ (0x220#64).toNat % 32 = 0 ∧
    (match tTl.ownRead tTl.me 0 (fun r x => pageFault r .read x) 0x220#64 4 with
      | .ok bs => smapRecordOk bs
      | _ => false) = true := by decide +kernel

/-- Sixteen pages for an image at XTF, an entry with a landing at XVEC, and two counters. -/
def State.framed (s : State) : State :=
  { (s.strandWith fun t => { t with xtf := 0x100000#64, h := [(3, 5#64)], td := [(1, 77)], tl := [2, 5] }).withCore fun k =>
      { k with xvec := 8#64, ctrs := [(2, ⟨7, 3, true, 0, none⟩), (5, Ctr.start)] } with
    hbm := placeDwords s.hbm ((0x100008, 2 ^ 61 + 2 ^ 63) :: (List.range 16).map fun i => (0x5080 + 8 * i, 0x3F + (100 + i) * 65536)) }
def tTrap : State := tBare.paged.framed
def tCause : Trap := { cause := 10, info := 0x12345, elem := some 0x1FFFF, pos := 7, word := 3, slotB := true, addr := 0x99, xinfo := 5 }
def tRec : Strand := tTrap.me.record tCause 0x1000#64

theorem witness_TakingTraps : (tTrap.strandAt 0 0).isSome = true ∧ tTrap.me.lvl ≠ .m ∧ tCause.log.isNone = true ∧ tCause.cause < 256 ∧
    tCause.info < 2 ^ 32 ∧ tCause.word < 4 ∧ tCause.pos < 8 ∧ tTrap.me.xdepth < 15 ∧ (tTrap.core 0).xvec ≠ 0 ∧ (tTrap.core 0).xvec.toNat % 8 = 0 ∧
    tTrap.vectorBad 0 (tTrap.core 0).xvec = false ∧ (match tTrap.imageLines 0 0 tTrap.me.xtf (tTrap.image 0 0 tRec) with
      | .ok ls => ls.all fun l => !tTrap.poisoned l.1
      | .error _ => false) = true := by decide +kernel

/-- The line of HBM that a near address lies in. -/
def tLine (a : Nat) : Nat := (nearPhys 0 a).getD 0 / 64
/-- A line of the image's place that holds an uncorrectable error. -/
def tBadFrame : State := { tTrap with poison := [(tLine 0x640000, true)] }
theorem witness_TakingTraps_poison : (match tBadFrame.imageLines 0 0 tTrap.me.xtf (tTrap.image 0 0 tRec) with
      | .ok ls => ls.any fun l => tBadFrame.poisoned l.1
      | .error _ => false) = true := by decide +kernel

/-- An image that finds no page, no vector, no landing there, and the last depth. -/
theorem witness_TakingTraps_fails : tOk (tTrap.imageLines 0 0 0x70000#64 (tTrap.image 0 0 tRec)) = false ∧ (tBare.core 0).xvec = 0 ∧
    tTrap.vectorBad 0 0x108#64 = true ∧ (15 ≤ (tTrap.strandWith fun t => { t with xdepth := 15 }).me.xdepth) := by decide +kernel

theorem witness_TakingTraps_image : tTrap.me.vec.isNone = true ∧ tTrap.me.work.isNone = true ∧ (tTrap.core 0).holder.isNone = true ∧ tTrap.me.flight = [] ∧
    tTrap.me.asid < 256 ∧ tTrap.me.wait < 16 ∧ tTrap.me.ntd < 65 ∧ tTrap.me.tl.length < 17 ∧ tTrap.me.tl ≠ [] := by decide +kernel

/-- The same strand in its handler, with an image of it at level U below XTF: header, PC, FRST, XEL, XTF, ORIG, the entry's own place and
counters, g1 and g8, the counters' values, one frame of 32, and some registers. -/
def tImage : List (Nat × Nat) := [(0x640000, 0x15843), (0x640008, 0x7000), (0x640018, 0x202000), (0x640078, 2 ^ 64 - 1), (0x640088, 0x1100000), (0x640108, 0x12345678), (0x640400, 32), (0x640800, 3), (0x640808, 0x108)]
def tFrameOne : State := { (tTrap.strandWith fun t => { t with xtf := 0x200000#64, xdepth := 1 }) with hbm := placeDwords tTrap.hbm tImage }

theorem witness_TrapReturnAndPrivilege : tTrap.alone ∧ tTrap.calm ∧ tTrap.me.lvl ≠ .u ∧ tTrap.me.xdepth = 0 ∧ tTrap.atU.alone ∧ tTrap.atU.calm ∧
    tTrap.atU.me.lvl = .u := by decide +kernel

theorem witness_TrapReturnAndPrivilege_returns : tFrameOne.alone ∧ tFrameOne.calm ∧ tFrameOne.me.lvl ≠ .u ∧ tFrameOne.me.xdepth ≠ 0 ∧
    (match tFrameOne.readImage 0 tFrameOne.me.lvl (tFrameOne.me.xtf - 0x100000#64) 0 true with
      | .ok rd => decide (tFrameOne.imgNat rd 0x88 1 = 0) && decide (field (tFrameOne.img rd 0) 26 1 = 0) && decide (field (tFrameOne.img rd 0) 43 1 = 0)
      | _ => false) = true := by decide +kernel

/-- Another strand in slot 1 of core 0, and one at M; operands that name them, no slot, and no core; room for the image. -/
def tOther : Strand := { Strand.start 0x5550#64 with lvl := .u, tl := [9] }
def tMove (w : Word) : State := ((tTrap.setStrand 0 1 tOther).setStrand 0 2 { tOther with lvl := .m }).sreg 1 w |>.sreg 2 0x100123#64

theorem witness_MovingStrands : (tMove 0x10000#64).alone ∧ (tMove 0x10000#64).me.lvl ≠ .u ∧ field 0x10000#64 9 7 = 0 ∧ field 0x10000#64 19 45 = 0 ∧
    (tMove 0x10000#64).outCores.contains 0 = false ∧ (tMove 0x10000#64).strandAt 0 1 = some tOther ∧ tOther.lvl ≠ .m ∧
    tOk ((tMove 0x10000#64).pages 0 0 .s .write .data 0x100000#64 (pagesOf 0x100000#64 (2 ^ 20))) = true ∧
    (tMove 0x10000#64).awaited 0 1 tOther = false ∧
    tOther.delivering = false ∧ tOther.checking = false ∧
    tOk ((tMove 0x10000#64).imageLines 0 0 0x100000#64 ((tMove 0x10000#64).image 0 1 tOther.stoppedForSave)) = true := by decide +kernel

theorem witness_MovingStrands_codes : field 0x200#64 9 7 ≠ 0 ∧ field 0x80000#64 19 45 ≠ 0 ∧ ((tMove 0#64).freeSlots 0).contains 0 = false ∧
    ((tMove 0x30000#64).freeSlots 0).contains 3 = true ∧ ((tMove 0x30000#64).strandAt 0 3).isNone = true ∧ (((tMove 0x20000#64).strandAt 0 2).map Strand.lvl) = some .m ∧
    (match (tMove 0x30000#64).readImage 0 .s 0x100000#64 0 false with
      | .code _ => true
      | _ => false) = true := by decide +kernel

/-- A free slot, and an image of a strand at U: the core has served no owner, then this one. -/
def tLoad : State := ((tMove 0x30000#64).withCore fun k => { k with owner := some 1 })
def tSaved : State := { tLoad with hbm := placeDwords tLoad.hbm tImage }
def tReader : State → Option Reader := fun s => match s.readImage 0 .s 0x100000#64 0 false with
  | .ok rd => some rd
  | _ => none

theorem witness_MovingStrands_loads : (tReader tSaved).isSome = true ∧ ((tReader tSaved).bind fun rd => tSaved.scrubFor rd 0) = none ∧
    ((tReader (tSaved.withCore fun k => { k with owner := none })).bind fun rd =>
      (tSaved.withCore fun k => { k with owner := none }).scrubFor rd 0).isSome = true ∧ (tSaved.core 0).holder.isNone = true ∧ (tSaved.core 0).scrub = false := by decide +kernel

theorem witness_MovingStrands_records : tBare.val 6#6 = -1 ∧ (Tab.find tBare.erecs (tBare.val 0#6).toNat).isNone = true ∧
    (Tab.find ({ tBare with erecs := [(3, [1, 2, 3, 4, 5, 6, 7, 8])] } : State).erecs (tBare.val 0#6).toNat).isSome = true := by decide +kernel

/-- A descriptor at 0x400 in memory. -/
def tTid : State := { tMem with hbm := placeDwords tMem.hbm ((List.range 8).map fun i => (0x100400 + 8 * i, getBits (tDesc 11) (64 * i) 64)) }

theorem witness_RecordsIdentifiersLanes : tTid.alone ∧ tTid.calm ∧ recordOk 0x43B9#64 = true ∧ recordOk (tTid.val 5#6) = false ∧ (0#6).toNat < tTid.me.ntd ∧
    tTid.me.ntd ≤ (63#6).toNat ∧ (0x400#64).toNat % 8 = 0 ∧
    (match tTid.ownRead tTid.me 0 (fun r x => pageFault r .read x) 0x400#64 8 with
      | .ok bs => descriptorOk (BitVec.ofNat 512 (ofBytes bs)) tTid.me.fmt
      | _ => false) = true ∧ (0x404#64).toNat % 8 ≠ 0 ∧
    tOk (tTid.pages 0 tTid.me.asid tTid.me.lvl .read .data 0x404#64 (pagesOf 0x404#64 64)) = true := by decide +kernel

theorem witness_RecordsIdentifiersLanes_lanes : tLaned.holdsLanes = true ∧ tLaned.curCore.latching.isNone = true ∧
    (tLaned.curCore.tiles.all fun t => !t.2.busy) = true ∧ tBare.holdsLanes = false ∧ tBare.lanesFree 0 0 tBare.curCore.gvl = true := by decide +kernel

/-- A code object of major version 3 at 0x800, and a portable one at 0x900 with room on page 2; the same after its table is full. -/
def tCode (maj : Nat) : State := { (tMem.sreg 1 0x800#64).sreg 2 0x20000#64 with hbm := placeDwords tMem.hbm [(0x100800, 0x4F435144 + maj * 2 ^ 32 + 1 * 2 ^ 40), (0x100808, 0x40), (0x100810, 24), (0x100840, 0x8420_1040_000F_FFF8), (0x100848, 0xA5C0_0000_0000_0004)] }

def tVerdict (s : State) : Option (Nat × Int) := match s.readObject (s.val 1#6) with
  | .object h ws => some (h.maj, h.verdict ws)
  | _ => none

theorem witness_CodeObjects : (tCode 3).alone ∧ (tCode 3).me.lvl ≠ .u ∧ tVerdict (tCode 3) = some (3, 0) ∧ (Tab.find (tCode 3).codes 0).isNone = true ∧
    (tVerdict (tCode 7)).isSome = true ∧ tVerdict (tCode 7) ≠ some (7, 0) ∧ tVerdict (tMem.sreg 1 0x800#64) = none := by decide +kernel

/-- A portable object: a word that translation leaves, and its end. -/
def tPortable : State := { (tMem.sreg 1 0x900#64).sreg 2 0x20000#64 with hbm := placeDwords tMem.hbm [(0x100900, 0x4F435144 + 1 * 2 ^ 32), (0x100908, 0x40), (0x100910, 16), (0x100940, 0x9FC0_0000_0000_0000)] }

theorem witness_CodeObjects_portable : tVerdict tPortable = some (1, 0) ∧ (tPortable.val 2#6).toNat % 65536 = 0 ∧ (tPortable.val 3#6).toNat % 65536 ≠ 0 ∧
    tOk (tPortable.ownWrite (tPortable.val 2#6) [0x9FC0_0000_0000_0000#64, 0]) = true := by decide +kernel

theorem find_range' (c : Code) (n k i : Nat) (h : k ≤ i ∧ i < k + n) : Tab.find ((List.range' k n).map fun i => (i, c)) i = some c := by
  induction n generalizing k with
  | zero => omega
  | succ n ih =>
    simp only [List.range'_succ, List.map_cons, Tab.find]
    by_cases e : i = k
    · simp [e]
    · simpa [e] using ih (k + 1) (by omega)

/-- Every entry taken, and all but the last. -/
theorem witness_CodeObjects_full (n i : Nat) (h : i < n) :
    (Tab.find ({ tCode 3 with codes := (List.range' 0 n).map fun i => (i, (⟨0, 8, [], []⟩ : Code)) } : State).codes i).isSome = true := by
  simp [find_range' _ n 0 i ⟨Nat.zero_le i, by omega⟩]

theorem witness_CodeObjects_drop : 1023 < ((tMem.sreg 1 1024#64).val 1#6).toNat ∧
    (Tab.find ({ tMem with codes := [(3, ⟨0, 8, [], []⟩)] } : State).codes (tMem.val 0#6).toNat).isSome = true ∧ (tMem.val 0#6).toNat ≤ 1023 ∧
    ({ tLaunch with code := 3, retired := false } : Launch).code = (tMem.val 0#6).toNat := by decide +kernel

/-- A launch header at 0x800, two counters, an entry of code. -/
def tHead (ws : List (Nat × Nat)) : State := { ((tMem.sreg 1 0x800#64).strandWith fun t => { t with tl := [2, 5] }) with
  codes := [(0, ⟨0x1000#64, 64, [0, 2], []⟩)]
  hbm := placeDwords tMem.hbm ([(0x100800, 1 + 3 * 2 ^ 32 + 2 ^ 44), (0x100808, 2), (0x100810, 4 + 5 * 2 ^ 42), (0x100818, 5), (0x100848, 3 + 2 * 128 + 2 ^ 21 + 2 * 2 ^ 32), (0x100850, 0x4000), (0x100858, 512), (0x100860, 0xABC)] ++ ws) }
/-- How far the checks of R61 let a header come: 0 for the first that fails. -/
def tRefused (s : State) : Nat := match s.headerDwords (s.val 1#6) 16 with
  | .ok hb =>
    let h := launchHeader (wordList hb)
    if h.versionOk = false then 17
    else match Tab.find s.codes (h.get 0 16 10) with
      | none => 18
      | some c => if h.get 1 0 32 ∉ c.entries then 19 else if h.fieldsOk = false then 20 else if h.capacityOk s = false then 21
        else if h.resourcesOk = false then 22 else 0
  | _ => 99
def tRead (s : State) (gang : Bool) : Option (Nat × Nat × Nat × Nat) := match s.readLaunch (s.val 1#6) gang with
  | .ok h deps links members => some (h.get 9 48 1, deps.length, links.length, members.length)
  | _ => none
def tCoded (s : State) (gang : Bool) : Bool := match s.readLaunch (s.val 1#6) gang with
  | .code _ => true
  | _ => false

theorem witness_Launches : (tHead []).alone ∧ (tHead []).me.lvl ≠ .u ∧ ((tHead []).val 1#6).toNat % 8 = 0 ∧ tRefused (tHead []) = 0 ∧
    ((tMem.sreg 1 0x804#64).val 1#6).toNat % 8 ≠ 0 ∧ tRead (tHead []) false = some (0, 0, 0, 0) ∧ (tHead []).outstanding 0 < 64 := by decide +kernel

/-- Each check in turn is the first to fail: a version of 2, code entry 5, a word that is no landing, seven fields, nine slots
of a core, and a count of identifiers above 64. -/
theorem witness_Launches_refused : tRefused (tHead [(0x100800, 2 + 2 ^ 44)]) = 17 ∧ tRefused (tHead [(0x100800, 1 + 5 * 2 ^ 16 + 2 ^ 44)]) = 18 ∧
    tRefused (tHead [(0x100808, 3)]) = 19 ∧ tRefused (tHead [(0x100800, 1 + 7 * 2 ^ 44)]) = 20 ∧
    tRefused (tHead [(0x100810, 4), (0x100818, 8)]) = 21 ∧ tRefused (tHead [(0x100848, 65)]) = 22 ∧ tCoded (tHead [(0x100848, 65)]) false = true := by
  decide +kernel

/-- A completion counter; a gang of two with its list of members. -/
def tGang : State := tHead [(0x100800, 1 + 3 * 2 ^ 32 + 2 * 2 ^ 44 + 2 ^ 47), (0x100810, 2 + 2 * 2 ^ 7 + 4 * 2 ^ 42 + 5 * 2 ^ 45), (0x100818, 1), (0x100820, 2), (0x100870, 99), (0x100878, 0xA00), (0x100A00, 0), (0x100A08, 7)]
theorem witness_Launches_counter : tRead (tHead [(0x100848, 3 + 2 * 128 + 2 ^ 21 + 2 * 2 ^ 32 + 2 ^ 48)]) false = some (1, 0, 0, 0) := by decide +kernel

theorem witness_Launches_gang : tGang.alone ∧ tRead tGang true = some (0, 0, 0, 2) ∧ tGang.outstanding 0 < 64 ∧
    (match tGang.readLaunch (tGang.val 1#6) true with
      | .ok h deps links members => ((((tGang.ownNote tGang.me tGang.cur.core (tGang.val 1#6) 16).enqueue h
          (tGang.ownMember 99 members) deps links).1.prepareGang h 1 (tGang.physDeps deps) links members).isSome)
      | _ => false) = true := by decide +kernel

/-- A work item whose group has arrived but for it, and has not; marks bound and not; barriers above its levels. -/
theorem witness_WorkItems : tWork.alone ∧ tWork.me.work = some tItem ∧ (0#3).toNat < tLaunch.fields.length ∧
    (0#3).toNat < (tLaunch.fields.takeWhile fun x => x.2.1 < 4).length ∧ (Tab.find tLaunch.items 3).isSome = true ∧
    ((Tab.find tLaunch.items 3).map fun i => i.steps 0 % 2) = some 0 ∧ (2#4).toNat < tLaunch.ntm ∧ (tLaunch.fields.takeWhile fun x => x.2.1 < 4).length ≤ (2#3).toNat := by
  decide +kernel

theorem witness_WorkItems_barriers : Tab.rising tLaunch.items none = true ∧
    (∀ j ∈ tLaunch.items, j.1 ≠ 3 → j.1 / tLaunch.groupSize 0 = 3 / tLaunch.groupSize 0 → 0 + 1 ≤ j.2.steps 0) ∧
    ¬ (∀ j ∈ tLaunch.items, j.1 ≠ 1 → j.1 / tLaunch.groupSize 0 = 1 / tLaunch.groupSize 0 → 0 + 1 ≤ j.2.steps 0) := by decide +kernel

theorem witness_WorkItems_marks : (Tab.get ⟨0, none⟩ tLaunch.marks 2).bound.isNone = true ∧ (Tab.get ⟨0, none⟩ tLaunch.marks 1).bound.isSome = true ∧
    bindable (tWork.val 7#6) (tWork.val 7#6) (tWork.val 4#6) = true ∧ bindable (tWork.val 32#6) (tWork.val 32#6) (tWork.val 32#6) = false ∧
    (tWork.val 7#6).toNat ≤ (Tab.get ⟨0, none⟩ tLaunch.marks 1).m ∧ (Tab.get ⟨0, none⟩ tLaunch.marks 1).m < (tWork.val 1#6).toNat ∧ tWork.calm := by
  decide +kernel

theorem witness_WorkItems_words : decodeWord 0x8201_0000_0000_0000#64 = .ok ⟨true, false, .one (.barK 0#3)⟩ := rfl

theorem witness_WorkItems_halt : Tab.rising tWork.cores none = true ∧ Tab.rising tWork.curCore.slots none = true ∧
    tWork.commandsOpen 0 tWork.me.tl = false ∧ (∀ i < 16, tMem.handle 0 tMem.me i = .blank) ∧ tMem.holdsLanes = true ∧
    tMem.curCore.latching.isNone = true ∧ (tMem.curCore.tiles.all fun t => !t.2.busy) = true ∧ tMem.calm := by decide +kernel

/-- A root at 0x800 over a leaf of three rows at 0x400 and one that is full at 0x600, and a query in v1. -/
def tTree : State := { ((tMem.sreg 1 0x400#64).sreg 2 0x800#64).withCore fun k => { k with v := Tab.put k.v 1 (tVreg 32 [0x3F800000, 0x40000000]) } with
  hbm := placeDwords tMem.hbm [(0x100400, 0x17C + 3 * 2 ^ 32), (0x100408, 0x40000000 + 0x3F800000 * 2 ^ 32), (0x100410, 100), (0x100480, 0x3F800000), (0x1004A0, 0x40400000), (0x100600, 0x17C + 16 * 2 ^ 32), (0x100608, 0x40000000 + 0x3F800000 * 2 ^ 32), (0x100610, 200), (0x100680, 0x3F800000), (0x100800, 0x7C + 2 * 2 ^ 9 + 19 * 2 ^ 32), (0x100808, 0x40A00000 + 0x3F800000 * 2 ^ 32), (0x100810, 100), (0x100840, 0x400), (0x100848, 0x600), (0x100880, 0x40000000)] }
def tNode (va : Word) : Option (Nat × Nat × Bool) := match tTree.header tTree.me 0 [] va none with
  | .ok (t, _) => some (t.d, t.count, scaleOk t.scale)
  | .error _ => none
def tRowOf (j : Nat) : Word := 0x400#64 + BitVec.ofNat 64 (128 + 4 * j)

theorem witness_SummaryTrees_read : tTree.vready tSome 32 [] ∧ tTree.settledV 3#6 32 = true ∧ tTree.tideHeld tTree.me 0x400#64 128 = false ∧
    tNode 0x400#64 = some (8, 3, true) ∧ tTree.sound ∧ tTree.reads .link 0x400#64 1 (tTree.at_ .read .link 0x400#64 1) ∧
    tTree.reads .link (0x400#64 + 64#64) 1 (tTree.at_ .read .link (0x400#64 + 64#64) 1) ∧
    headerOk 0x400#64 (dwordOf (tTree.readBytes (tTree.at_ .read .link 0x400#64 1) 64 ++
      tTree.readBytes (tTree.at_ .read .link (0x400#64 + 64#64) 1) 64)) none = true ∧ (∀ j ∈ tTree.actives tSome, j < 8 → tTree.reads .link (tRowOf j) 4 (tTree.at_ .read .link (tRowOf j) 4)) := by
  decide +kernel

def tWalk (x : Bool) : Bool := match tTree.header tTree.me 0 [] 0x800#64 none with
  | .ok (t, m0) =>
    let q := (List.range t.d).map fun j => tyVal .f32 (tTree.lane 1#6 32 j).num
    tOk (tTree.visit tTree.me tTree.cur.core ⟨q, f32.value (rne32 (FVal.sqrt (dot q q))), f32.value t.scale, field tTree.curCore.otau 0 32,
      field tTree.curCore.ofloor 0 32, field tTree.curCore.odepth 0 5, t.dw, x, tTree.len 0⟩ 16 0x800#64 (.ok ⟨none, [], 0, [], m0⟩))
  | .error _ => false

theorem witness_SummaryTrees_walk : tTree.laned ∧ tNode 0x800#64 = some (8, 19, true) ∧ tTree.len 0 ≤ vlmax 32 tTree.width ∧ 8 + 2 ≤ vlmax 32 tTree.width ∧
    tTree.fullTo 1#6 32 8 = true ∧ tTree.settledV 2#6 32 = true ∧ tTree.settledV 3#6 32 = true ∧ (2#6) ≠ 3#6 := by decide +kernel

theorem witness_SummaryTrees_walks : tWalk false = true ∧ tWalk true = true := by decide +kernel

/-- A path that ends in a leaf of three rows, and one that ends in the full leaf. -/
def tPath (va : Word) : Option (List Nat × Bool) := match tTree.path tTree.me 0 16 [] va none with
  | .ok (p, m) => some (p.map Tussock.count, tOk (tTree.pathPages tTree.me 0 (m.forWrite tTree.me.lvl) p))
  | .error _ => none

theorem witness_SummaryTrees_update : tPath 0x400#64 = some ([3], true) ∧ tPath 0x600#64 = some ([16], true) ∧ (tPath 0x800#64).isSome = true ∧
    tTree.fullTo 3#6 32 8 = true := by decide +kernel

/-- A build of one leaf of sixteen rows, and operands that name none. -/
def tBuild : State := { ((tMem.sreg 1 0x4000#64).sreg 2 (1 + 2 * 2 ^ 16)).sreg 3 (2 * 2 ^ 44) with
  smaps := [(1, ⟨0x1000#64, 0x2000#64, 0, 24, 0, 32, none⟩), (2, ⟨0x1200#64, 0x2000#64, 0, 24, 0, 32, none⟩)] }

theorem witness_SummaryTrees_build : ((plotOf (tBuild.val 1#6) (tBuild.val 2#6) (tBuild.val 3#6)).map fun p => (p.keyMap, p.valueMap, p.dw, p.leaves, p.branch)) = some (1, 2, 0, 1, 2) ∧
    (∀ m ∈ [1, 2], ((Tab.find tBuild.smaps m).map fun x => decide (8 * (0 + 1) * 32 ≤ x.rb * 8)) = some true ∧
      tOk (tBuild.slabRows tBuild.me 0 m 8 .f32 ((List.range 16).map fun i => 0 + i)) = true) ∧
    tOk (tBuild.recordPages tBuild.me 0 [] 0x4000#64 (192 * plotCount 2 13 1)) = true ∧
    (∀ x ∈ tBuild.curCore.slots, ∀ y ∈ x.2.flight, ∀ e ∈ y.entries, walkerServes e.word = false) ∧ (plotOf (tMem.val 0#6) 0 0).isNone = true ∧ tMem.calm := by decide +kernel

theorem witness_SummaryTrees_word : decodeWord 0x9E40_1400_4000_E000#64 = .ok ⟨true, false, .one (.twbuild 5#6 0#6 1#6 3#6 .f32)⟩ := rfl

/-- A strand at VA 8, where `addi` stands, then a pair of `add`, then an illegal word. -/
def tCodeAt (pc : Word) : State := { (tBare.paged.strandWith fun t => { t with pc := pc }) with
  hbm := placeDwords tBare.paged.hbm [(0x100008, 0x8420_1040_000F_FFF8), (0x100010, 0xC150_4000_0420_8000), (0x100018, 0x8000_0000_0000_0000)] }
def tIsNext (o : Out) : Bool := match o with
  | .next u => match u.note with
    | .wait _ => false
    | _ => true
  | _ => false
def tFetched : List Fetched := match (tick (tCodeAt 0x10#64)).nextConvoy 0 0 with
  | .ok (l, 1) => l
  | _ => []

theorem witness_StepRunsDecoded : (tick (tCodeAt 8#64)).agenda = [] ∧ ((tick (tCodeAt 8#64)).core (tick (tCodeAt 8#64)).turn).slots = [(0, (tCodeAt 8#64).me)] ∧
    (tCodeAt 8#64).me.flight = [] ∧ (tCodeAt 8#64).me.stopped = false ∧ (tCodeAt 8#64).me.pend = none ∧ (tCodeAt 8#64).me.vec = none ∧
    (tCodeAt 8#64).me.wait = 0 ∧ (tCodeAt 8#64).me.halting = false ∧
    (tick (tCodeAt 8#64)).fetchWords 0 0 .s 8#64 4 = .ok [0x8420_1040_000F_FFF8#64] ∧ (tCodeAt 8#64).me.landing = false := by
  exact ⟨rfl, rfl, rfl, rfl, rfl, rfl, rfl, rfl, rfl, rfl⟩

theorem witness_StepRunsDecoded_one : decodeWord 0x8420_1040_000F_FFF8#64 = .ok ⟨true, false, .one (.addi 4#6 4#6 0xFFFF8#20)⟩ ∧
    (planOfWord 0x8420_1040_000F_FFF8#64 false).lvl.num ≤ (tCodeAt 8#64).me.lvl.num ∧
    tIsNext (exec (.addi 4#6 4#6 0xFFFF8#20) ((tick (tCodeAt 8#64)).aimAt 0 0 1 0 ⟨.addi 4#6 4#6 0xFFFF8#20, 0, 0x8420_1040_000F_FFF8#64, false⟩ true)) = true := by
  exact ⟨rfl, by decide +kernel, rfl⟩

/-- The pair, of which the second runs on what the first left. -/
theorem witness_StepRunsDecoded_two : tFetched.map Fetched.slotB = [false, true] ∧
    convoyReasons (tick (tCodeAt 0x10#64)) 0 0 1 tFetched = [] ∧
    (∀ i ∈ tFetched.head?, tIsNext (exec i.instr ((tick (tCodeAt 0x10#64)).aimAt 0 0 1 0 i false)) = true ∧
      ∀ j ∈ tFetched.getLast?, tIsNext (exec j.instr ((tNx (exec i.instr ((tick (tCodeAt 0x10#64)).aimAt 0 0 1 0 i false))).aimAt 0 0 1 1 j true)) = true) := by
  decide +kernel

/-- Canonical memory, of reset and with something in each part. -/
theorem witness_MemoryStaysCanonical : Memory.wf State.reset = true ∧ Memory.wf (tCodeAt 8#64) = true ∧
    Memory.wf { tMem with pool := [(0, 1#8), (5, 255#8)], far := [(0, ⟨0, [(3, 7#8)], 8#64⟩)] } = true ∧
    Memory.wf { tMem with pool := [(5, 0#8)] } = false := by decide +kernel

theorem witness_MemoryStaysCanonical_step : tIsNext (step (tCodeAt 8#64)) = true := rfl

/-- A strand with one convoy of one instruction in flight. -/
def tEntry (w : Word) : Entry := Entry.start w false 0 3 (planOfWord w false)
def tConvoy (e : Entry) : Convoy := ⟨0x1000#64, 1, tMem.me.r, [e], none, true⟩
def tFly (e : Entry) : State := tMem.strandWith fun t => { t with flight := [tConvoy e] }
def tOp (w : Word) : Nat × Nat := (if w.getLsbD 62 then 0 else field w 54 7, field w 48 6)

/-- Words of `frame`, `ret`, `mwait`, `tm.adv`, `bar.k`, a row of a tree, an `xred`, a load and a store of a FIFO's window, and
what their entries say of memory. -/
theorem witness_EventsFireInFlight : (tOp 0xA5C0_0000_0000_0004#64).1 = 0x17 ∧ tOp 0x8102_0000_0000_0000#64 = (4, 2) ∧ tOp 0x8180_0C40_8000_0000#64 = (6, 0) ∧
    tOp 0x8241_0000_0000_0000#64 = (9, 1) ∧ tOp 0x8201_0000_0000_0000#64 = (8, 1) ∧ (tOp 0x9E00_0000_0000_0000#64).1 = 0x78 ∧
    (tOp 0x9CC0_0000_0000_0000#64).1 = 0x73 ∧ (tOp 0x9900_0000_0000_0000#64).1 = 0x64 ∧ (tOp 0x9940_0000_0000_0000#64).1 = 0x65 ∧
    (tEntry 0x9903_1010_0000_0001#64).mem = true ∧ (tEntry 0x9903_1010_0000_0001#64).hasDm = true ∧ (tEntry 0x8420_1040_000F_FFF8#64).mem = false := by
  decide +kernel

/-- An `addi` of s4 in an older convoy, one of s5 before and one of s6 after the instruction in its own, one of s7 in a younger one. -/
def tAddi (r : Nat) : Entry := tEntry (0x8420_0000_000F_FFF8#64 + BitVec.ofNat 64 (r * 2 ^ 42 + r * 2 ^ 36))
def tAmid (e : Entry) : State := tMem.strandWith fun t => { t with
  flight := [tConvoy (tAddi 4)] ++ { tConvoy e with entries := [tAddi 5] ++ e :: [tAddi 6] } :: [tConvoy (tAddi 7)] }
def tFire (w : Word) : State × Entry :=
  let s := tAmid (tEntry w)
  let c : Convoy := { tConvoy (tEntry w) with entries := [tAddi 5] ++ tEntry w :: [tAddi 6] }
  (planOfWord w false).fireNow ((s.aim 0 0 c (tEntry w)).setMe { s.me with r := { s.me.r with fb := c.before.fb } })
    ([tConvoy (tAddi 4)].flatMap Convoy.entries ++ [tAddi 5]).reverse (tEntry w)
/-- Of the instructions in flight, a property holds of the one in the middle alone. -/
def tOnly (e : Entry) (f : Entry → Bool) : Bool := f e && [tAddi 4, tAddi 5, tAddi 6, tAddi 7].all fun x => !f x

theorem witness_EventsFireInFlight_only : tOnly (tEntry 0xA5C0_0000_0000_0004#64) (fun x => (tOp x.word).1 = 0x17) = true ∧
    tOnly (tEntry 0x9903_1010_0000_0001#64) (fun x => x.mem && x.hasDm) = true ∧ tOnly (tEntry 0x9903_1010_0000_0001#64) (fun x => (tOp x.word).1 = 0x64) = true ∧
    tOnly (tEntry 0x8241_0000_0000_0000#64) (fun x => tOp x.word = (9, 1)) = true ∧ tOnly (tEntry 0x9CC0_0000_0000_0000#64) (fun x => (tOp x.word).1 = 0x73) = true ∧
    blockedBy (planOfWord 0x8241_0000_0000_0000#64 false) [tAddi 5] = false ∧ blockedBy (planOfWord 0x9903_1010_0000_0001#64 false) [tAddi 5] = false ∧
    walkerServes 0x9E00_0000_0000_0000#64 = true ∧ (tEntry 0x9E00_0000_0000_0000#64).flt.isNone = true ∧ tMem.me.stopped = false := by decide +kernel

theorem witness_EventsFireInFlight_fires : ((tFly (tEntry 0x8420_1040_000F_FFF8#64)).strandAt 0 0).isSome = true ∧
    (tEntry 0x8420_1040_000F_FFF8#64).done = false ∧ (tEntry 0x8420_1040_000F_FFF8#64).again = false := by decide +kernel

/-- An `addi`, a tide mark's advance: each firing leaves what is in flight as it stood. -/
def tFiresIn (w : Word) : Prop := (tFire w).1.cur = ((tAmid (tEntry w)).aim 0 0 { tConvoy (tEntry w) with entries := [tAddi 5] ++ tEntry w :: [tAddi 6] } (tEntry w)).cur ∧
  (tFire w).1.me.flight = (tAmid (tEntry w)).me.flight

theorem witness_EventsFireInFlight_add : tFiresIn 0x8420_1040_000F_FFF8#64 := ⟨rfl, rfl⟩
theorem witness_EventsFireInFlight_tide : tFiresIn 0x8241_0000_0000_0000#64 := ⟨rfl, rfl⟩

/-- The work item's launch, of no contribution of another member. -/
theorem witness_EventsFireInFlight_work : ((tFly (tEntry 0x8201_0000_0000_0000#64)).strandWith fun t => { t with work := some tItem }).me.work = some tItem ∧
    (Tab.find tWork.launches 4).isSome = true ∧ ((Tab.find tWork.launches 4).bind fun l => Tab.find l.items 2).isSome = true ∧
    (∀ y ∈ tWork.xreds, y.member ≠ 0) ∧ tMem.cores.length = 1 ∧ tMem.curCore.slots.length = 1 := by decide +kernel

/-- Entries that are done, that halt, that hold a fault, and that are to be rechecked. -/
def tDone (w : Word) (f : Entry → Entry) : Entry := f { tEntry w with done := true, chk := false }
def tHalt : Entry := tDone 0x8181_0000_0000_0000#64 fun e => { e with ending := .halt }
def tFault : Entry := tDone 0x9903_1010_0000_0001#64 fun e => { e with done := false, flt := some { cause := 7, info := 1 } }
def tVec : Entry := tDone 0x8C44_1020_0000_0000#64 fun e => { e with vd := [(3, tVreg 32 [1, 2])], w := 32, n := 3, ending := .none, chk := true, hasDm := false, mem := false }

theorem witness_RetirementDeliveryChecking : (∀ e ∈ [tHalt, { tVec with chk := false }], e.done = true ∧ e.flt.isNone = true ∧ e.bad.isNone = true ∧ e.chk = false) ∧
    tHalt.ending = .halt ∧ tHalt.again = false ∧ tHalt.word.getLsbD 62 = false ∧ field tHalt.word 54 7 = 6 ∧ field tHalt.word 48 6 = 1 ∧
    tVec.ending = .none ∧ (tFly tVec).curCore.holder = some 0 ∧ Tab.rising (tFly tVec).curCore.v none = true ∧ Tab.rising (tFly tHalt).cores none = true ∧
    Tab.rising (tFly tHalt).curCore.slots none = true := by decide +kernel

theorem witness_RetirementDeliveryChecking_traps : (tFly tFault).me.stopped = false ∧ (tFly tFault).me.pend.isNone = true ∧ tFault.flt.isSome = true ∧
    tFault.bad.isNone = true ∧ tFault.held = false ∧ ((tFault.flt.map Trap.after) = some false) ∧ (tFly tFault).awaited 0 0 (tFly tFault).me = false ∧ (tFly tFault).me.checking = false ∧
    ((tFly tFault).strandWith fun t => { t with pend := some { cause := 2 } }).me.pend.isSome = true ∧ (tFly tFault).me.lvl ≠ .m := by decide +kernel

def tFetchCause (s : State) : Option Nat := match s.fetchWords 0 s.me.asid s.me.lvl s.me.pc 4 with
  | .error t => some t.cause
  | .ok _ => none

/-- A page that is not present, a good word while the strand waits for it, and an illegal word. -/
theorem witness_RetirementDeliveryChecking_fetches : tFetchCause (tCodeAt 0x70000#64) = some 4 ∧ tFetchCause (tCodeAt 8#64) = none ∧
    ((tCodeAt 8#64).strandWith fun t => { t with wait := 12 }).me.wait = 12 ∧ tFetchCause (tCodeAt 0x18#64) = none ∧
    (tCodeAt 0x18#64).me.landing = false ∧ legalWord 0x8000_0000_0000_0000#64 = false ∧ (0x8000_0000_0000_0000#64).getLsbD 62 = false ∧
    (tCodeAt 0x18#64).me.monitor.isNone = true ∧ (tCodeAt 0x18#64).awaited 0 0 (tCodeAt 0x18#64).me = false := by decide +kernel

theorem witness_RetirementDeliveryChecking_checks : tVec.chk = true ∧ tVec.done = true ∧ tVec.n ≤ 16384 / tVec.w ∧ 1 < tVec.n ∧
    [7, 2 ^ 32 - 1].length = 64 / tVec.w ∧ (∀ x ∈ [7, 2 ^ 32 - 1], x < 2 ^ tVec.w) ∧ tVec.hasDm = false ∧ tVec.qd = [] ∧ tVec.w ∈ [8, 16, 32, 64] ∧ tVec.vd.length = 1 := by decide +kernel

/-- Core 0 with a strand in slot 2 that waits for the lanes, nobody holding them. -/
def tQueue : State := (tBare.setStrand 0 2 (Strand.start 0x88#64)).withCore fun k => { k with laneQ := [2, 1] }
/-- A filled tile and a drained one; the latch's copy. -/
def tFilled : Tile := { Tile.start with st := .filling, colsm1 := 0, rowsm1 := 0, fill := some ⟨tDesc 11, 0, 0, false, BitVec.allOnes 131072⟩ }
def tTiles : State := tMem.withCore fun k => { k with tiles := [(5, tFilled), (6, { tFilled with st := .draining })], latching := some (5, false), latch := some tLatch }

theorem witness_CoreAndClusterEvents : tQueue.curCore.laneQ = [2, 1] ∧ ([1].all fun x => decide (x ≠ 2)) = true ∧
    ((tQueue.strandAt 0 2).map fun t => t.vec.isNone) = some true ∧ tQueue.curCore.holder.isNone = true ∧ tQueue.curCore.scrub = false ∧
    8 ≤ tQueue.curCore.gvl := by decide +kernel

theorem witness_CoreAndClusterEvents_tiles : (tTiles.tile 5).st = .filling ∧ (tTiles.tile 6).st = .draining ∧ tTiles.curCore.latching = some (5, false) ∧
    (tNx (exec (.latchCopy 0) tTiles)).curCore.latching = some (5, true) ∧ tTiles.curCore.latch.isSome = true := by decide +kernel
theorem witness_CoreAndClusterEvents_filled : (tTiles.tile 5).filled = true := by decide +kernel

/-- A limit, a bank that switches, its key, a core whose lanes are held, and one below its MVL. -/
def tSwitch : State := (tMem.setBank 2047 { Bank.start with switch := some 2 }).withCore fun k => { k with pwr := 31 }
theorem witness_CoreAndClusterEvents_banks : 32 ∈ [8, 16, 32] ∧ tSwitch.curCore.pwr < tSwitch.curCore.mvl ∧ 31 < 32 ∧ 255 < 256 ∧
    tSwitch.curCore.holder.isSome = true ∧ tBare.curCore.holder.isNone = true ∧ 2047 = 256 * 7 + 255 ∧ Tab.rising tSwitch.banks none = true ∧
    (tSwitch.bank 2047).switch = some 2 ∧ tSwitch.releasing = [] ∧ Tab.rising tSwitch.far none = true := by decide +kernel

/-- A core that powers its lanes in stage 4 of power-up, with the next and as the last in service; and a group of which cores 0
and 1 are still to scrub, then banks 3 and 7 to zero, then one core alone, and nothing. -/
def tStage : State := { State.reset with stage := 4, cores := [(0, { Core.start with pwr := 0 })] }
def tStart (cores banks : List Nat) : State := { tBare with starting := [⟨4, [(0, 1, tOther)], cores, banks⟩] }
theorem witness_CoreAndClusterEvents_starting : (tStage.core 0).pwr + 1 < (tStage.core 0).mvl ∧ tSwitch.stage ≠ 4 ∧
    (∃ cl < 8, 511 ∈ tStage.serving cl) ∧ (∀ g ∈ tBare.starting, 0 ∉ g.cores) ∧ (tStart [0, 1] [3, 7]).starting = [⟨4, [(0, 1, tOther)], [0, 1], [3, 7]⟩] ∧
    (∃ x ∈ [0, 1], x ≠ 0) ∧ (∀ x ∈ [0], x = 0) ∧ (tStart [0] []).curCore.holder.isNone = true ∧ ((tStart [0] []).withCore fun k => { k with holder := some 0 }).curCore.holder.isSome = true ∧
    Tab.rising (tStart [] [7]).banks none = true ∧ (∀ g ∈ (tStart [0, 1] [3, 7]).starting, g.banks.head? ≠ some 7) ∧
    (∀ h, tSwitch.curCore.holder = some h → h < 8) := by
  refine ⟨by decide +kernel, by decide +kernel, ⟨7, by decide +kernel, by decide +kernel⟩, ?_, rfl, ?_, ?_, rfl, rfl, rfl, ?_, ?_⟩
  · intro g h; cases h
  · exact ⟨1, by decide, by decide⟩
  · decide
  · decide +kernel
  · intro h e; cases e; decide

/-- A handle on its way to the work item in slot 0; a dirty far line. -/
def tDeliver : State := { tWork with lineage := [(5, { tView with move := some (0, 1, 4, 2, 3) })], far := [(512, ⟨0, [(63, 7#8)], 1#64 <<< 63⟩)] }
theorem witness_CoreAndClusterEvents_delivery : Tab.rising tDeliver.lineage none = true ∧ (tDeliver.lin 0 5).move.isSome = true ∧ (tDeliver.lin 0 5).open_ = 0 ∧
    tDeliver.resident 4 2 = some (0, 0) ∧ (tDeliver.strandAt 0 0).isSome = true ∧ Tab.rising tDeliver.far none = true ∧
    ((Tab.find tDeliver.far 512).map fun l => l.dirty.getLsbD 63) = some true ∧ Tab.wf memDefault tDeliver.pool = true := by decide +kernel

/-- Commands that have begun: a copy of one page that runs, one that has stopped, a growing slab and a migration. -/
def tCmd (kind : Nat) : Cmd := { tStopped with kind := kind, dst := 0x20000#64, src := 0x100#64, len := 40, entry := 5, stop := none, sent := false }
def tEng (c : Cmd) : State := { (tCtl.withCore fun k => { k with ctrs := [(2, ⟨4, 3, true, 2, none⟩)] }) with
  cmds := [(9, c)]
  smaps := [(5, ⟨0x10000#64, 0x20000#64, 100, 23, 0, 8, some (0, 0)⟩)]
  efqb := 0x20000#64
  efqHead := 65535
  efqTail := 65535 }
def tPiece (c : Cmd) (n : Nat) : Nat := match (tEng c).copyPiece c n with
  | (.ok bs, _) => bs.length
  | (.stop _ _, _) => 1000
  | _ => 2000

theorem witness_EngineEvents : (∀ k ∈ [1, 3], (tCmd k).stop.isNone = true ∧ (tCmd k).fin = false ∧ (tCmd k).begun = true ∧ tPiece (tCmd k) 40 = 40) ∧
    min (tCmd 1).len (65536 - (tCmd 1).dst.toNat % 65536) = 40 ∧ tPiece { tCmd 1 with src := 0x70000#64 } 40 = 1000 ∧
    tOk ((tEng (tCmd 1)).enginePages (tCmd 1) .write (tCmd 1).dst 40) = true ∧ tOk ((tEng (tCmd 1)).enginePages (tCmd 1) .read (tCmd 1).src 40) = true ∧
    ((Tab.find (tEng (tCmd 3)).smaps 5).bind Smap.grow).isSome = true := by decide +kernel

/-- The last line of a migration, and a line before it. -/
def tMig (n : Nat) : State := { tEng { tCmd 2 with dst := 0x80000#64 } with migs := [⟨0, 20, BitVec.ofNat 64 (0x3F + 21 * 65536), n, 9⟩] }
theorem witness_EngineEvents_migration : tOk ((tMig 1023).leafOf 0 0x80000#64) = true ∧ (tMig 1023).migs.length = 1 ∧ (tMig 0).migs.length = 1 ∧
    (tMig 1023).poison = [] := by decide +kernel

/-- A stop to report, its queue's head at its last value; and a number that is next to complete. -/
theorem witness_EngineEvents_queue : (tEng tStopped).efqb ≠ 0 ∧ (tEng tStopped).efqHead < 65536 ∧
    ((tEng tStopped).efqHead + 65536 - (tEng tStopped).efqTail) % 65536 ≠ 64 ∧
    tOk ((tEng tStopped).xlate 0 0 .s .write .data ((tEng tStopped).efqb + BitVec.ofNat 64 (64 * ((tEng tStopped).efqHead % 64)))) = true ∧
    (tEng tStopped).poison = [] ∧ (tEng tStopped).lineage = [] ∧ Tab.rising (tEng tStopped).cores none = true ∧
    Tab.rising ((tEng tStopped).core 0).ctrs none = true ∧ (tCmd 1).num = ((tEng tStopped).ctr 0 2).done + 1 ∧ ((tEng tStopped).ctr 0 2).mine = none := by
  decide +kernel

/-- A launch whose group has waited its time; one of which a group starts; a device with none. -/
def tQueued : State := { tTrap with cycle := lqage + 5, launches := [(4, { tLaunch with items := [], group := 0, since := some 5 })] }
theorem witness_EngineEvents_launches : (Tab.find tQueued.launches 4).isSome = true ∧ 5 + lqage ≤ tQueued.cycle ∧ Instr.launchGroupStart ∉ tQueued.agenda ∧
    tMem.queued = [] ∧ tLaunch.retired = false ∧ 0 < tLaunch.groups ∧ tLaunch.armed = true := by decide +kernel

/-- A launch of one item of core 0, of which slot 7 alone is free, and the device once it has started. -/
def tOne : Launch := { tLaunch with fields := [(0, 1, 1), (0, 2, 1), (0, 3, 1)], items := [], group := 0, marks := [], ntm := 0, since := none }
def tPlace : State := { (tTrap.withCore fun k => { k with owner := some 1, slots := (List.range 7).map fun n => (n, tOther) }) with launches := [(4, tOne)] }
def tPlaced : State := ({ tPlace with launches := Tab.put tPlace.launches 4 { tOne with items := Tab.put tOne.items 0 ⟨0, 0, [], 0⟩ } } : State).setStrand 0 7
  (({ tPlace with launches := Tab.put tPlace.launches 4 { tOne with items := Tab.put tOne.items 0 ⟨0, 0, [], 0⟩ } } : State).itemStrand 4 tOne 0 0 7 [] 0)

theorem freely_one (s : State) (salt x : Nat) : s.freely salt [x] = [x] := by simp [State.freely, Nat.mod_one]

theorem tPlace_starts : tPlace.startItem 4 0 0 0 = some tPlaced := by
  have h : (tPlace.freely 1 (tPlace.freeSlots 0)).head? = some 7 := by
    rw [show tPlace.freeSlots 0 = [7] by decide +kernel, freely_one]; rfl
  unfold State.startItem
  rw [show Tab.find tPlace.launches 4 = some tOne from rfl]
  simp only [h]
  exact (if_neg (by decide +kernel)).trans (by rfl)

theorem tPlace_group : (tPlace.startGroup 4 tOne) = (tPlace.startItem 4 0 0 0).map fun s1 =>
    match Tab.find s1.launches 4 with
    | none => s1
    | some l1 => { s1 with launches := Tab.put s1.launches 4 { l1 with group := tOne.group + 1, since := none } } := by
  rw [tPlace_starts]
  have h : tOne.nextGroup = [(0, some 0, some 0, some 0)] := by decide +kernel
  have c : (tPlace.serving 0)[0]? = some 0 := by decide +kernel
  simp [State.startGroup, h, keysOf, State.startOnDies, State.startInDie, State.startInCluster, c, State.startAll, tPlace_starts]
  all_goals rfl

theorem witness_EngineEvents_group : tPlace.launches = [(4, tOne)] ∧ tOne.retired = false ∧ tOne.group < tOne.groups ∧ tOne.armed = true ∧
    (tPlace.startGroup 4 tOne).isSome = true := by
  refine ⟨rfl, rfl, by decide +kernel, rfl, ?_⟩
  rw [tPlace_group, tPlace_starts]
  rfl

theorem witness_EngineEvents_placed : coresToScrub tPlace tPlaced 4 (tPlace.ownerOf tOne) = [] ∧ banksToZero tPlace tPlaced (tPlace.ownerOf tOne) = [] := by
  decide +kernel

/-- The same of a core that has served another owner, and of one with no free slot. -/
theorem witness_EngineEvents_scrubs : coresToScrub tPlace { tPlaced with banks := [(9, { Bank.start with item := some (4, 0) })] } 4 99 = [0] ∧
    banksToZero tPlace { tPlaced with banks := [(9, { Bank.start with item := some (4, 0) })] } 99 = [9] := by decide +kernel

def tCrowd : State := tPlace.withCore fun k => { k with slots := (List.range 8).map fun n => (n, tOther) }
theorem witness_EngineEvents_crowd : tCrowd.launches = [(4, tOne)] ∧ (tCrowd.startGroup 4 tOne).isNone = true := by
  have f : tCrowd.startItem 4 0 0 0 = none := by
    unfold State.startItem
    rw [show Tab.find tCrowd.launches 4 = some tOne from rfl, show tCrowd.freeSlots 0 = [] by decide +kernel]
    simp [State.freely]
  have h : tOne.nextGroup = [(0, some 0, some 0, some 0)] := by decide +kernel
  have c : (tCrowd.serving 0)[0]? = some 0 := by decide +kernel
  exact ⟨rfl, by simp [State.startGroup, h, keysOf, State.startOnDies, State.startInDie, State.startInCluster, c, State.startAll, f]⟩

/-- An access of another device to a dword here, and to a page that is not present. -/
def tElt (va : Nat) : PeerElt := ⟨0, va, 8, none, 7, 0⟩
def tPeerReq (kind va : Nat) (ask : Bool) : PeerReq := ⟨5, kind, .n64, false, ask, [tElt va]⟩
def tHome (kind va : Nat) : Place := match tMem.homePlace (peerAcc (tPeerReq kind va false)) (tElt va) with
  | .ok p => p
  | .error _ => tNoPlace
theorem witness_EngineEvents_peers : (∀ k ∈ [0, 1, 2, 12, 13], tOk (tMem.homePlace (peerAcc (tPeerReq k 0x108 true)) (tElt 0x108)) = true ∧
    tMem.poisoned (tHome k 0x108) = false ∧ ({ tMem with poison := [(tLine 0x100108, true)] } : State).poisoned (tHome k 0x108) = true) ∧
    (match tMem.homePlace .read (tElt 0x70000) with
      | .ok _ => 0
      | .error e => e) ≠ 0 := by decide +kernel

/-- A device with a journal request at 0x8000, an install request at 0x9000 for slot 511, and decoder 1 on. -/
def tHost : State := { tMem with
  agenda := [.hostWrite 2 0x40 ⟨[1, 2], true, none⟩, .hostWrite 2 0 ⟨[1, 2, 3], false, none⟩]
  hwin := 0x2000000#64
  msix := [(2 * 2047 + 1, 0)]
  hbm := placeDwords tMem.hbm [(0x8008, 1), (0x9010, 511), (0x9018, 1), (0x9020, 77), (0xA010, 0), (0xB010, 0xC000)] }

/-- A window of 1 GiB at the last place that is open, and the next. -/
theorem witness_HostAndRegisterEvents_window : ({ tHost with hwin := 508#64 <<< 30 } : State).windowOpen = true ∧
    ({ tHost with hwin := 509#64 <<< 30 } : State).windowOpen = false ∧ (2 ^ 30 - 3) + [1, 2, 3].length ≤ 2 ^ 30 := by decide +kernel

/-- The one write that is due, without the relaxed attribute. -/
theorem witness_HostAndRegisterEvents_order : (∃ e t, ({ tHost with agenda := [.hostWrite 2 0 ⟨[1], false, none⟩] } : State).nextEvent = some (e, t) ∧ ∃ b o x w, e = .hostWrite b o ⟨x, false, w⟩) := by
  have h : ∀ n : Nat, inOrder [Instr.hostWrite 2 0 ⟨[1], false, none⟩] (n % max 1 1) = 0 := by intro n; rw [show n % max 1 1 = 0 from Nat.mod_one n]; rfl
  exact ⟨_, _, by simp only [State.nextEvent]; rw [show [Instr.hostWrite 2 0 ⟨[1], false, none⟩].length = 1 from rfl, h]; rfl, _, _, _, _, rfl⟩

theorem witness_HostAndRegisterEvents_messages : 2047 < 2048 ∧ (tHost.msixDword (2 * 2047 + 1)).getLsbD 32 = false ∧
    (tHost.msixDword (2 * 0 + 1)).getLsbD 32 = true := by decide +kernel

theorem witness_HostAndRegisterEvents_journal : 0x8000 + 64 ≤ nearBytes ∧ jState ((List.range 8).map fun i => tHost.nearDword (0x8000 + 8 * i)) = 1 ∧
    ((List.range 8).map fun i => tHost.nearDword (0x8000 + 8 * i)).getD 1 0 / 2 ^ 10 = 0 ∧
    (tHost.journalAppend ((List.range 8).map fun i => tHost.nearDword (0x8000 + 8 * i))).isSome = true ∧ tHost.nearDword (0x9000 + 8) % 16 ≠ 1 := by
  decide +kernel

/-- The journal after that: entry 1 may go from state 1 to state 2, and not to itself. -/
def tJournal : State := tNx (exec (.japp 0x8000) tHost)
theorem witness_HostAndRegisterEvents_states : (tJournal.journal false 1).getD 0 0 = 1 ∧ jStep ((tJournal.journal false 1).getD 1 0 % 16) (2 % 16) = true ∧
    jStep ((tJournal.journal false 1).getD 1 0 % 16) (1 % 16) = false := by decide +kernel

theorem witness_HostAndRegisterEvents_keys : 0x9000 + 256 ≤ nearBytes ∧ tHost.nearDword (0x9000 + 16) = 511 ∧ tHost.nearDword (0x9000 + 24) = 1 ∧
    (Tab.find tHost.keys 511).isNone = true ∧ tHost.nearDword (0xA000 + 16) = 0 ∧ (Tab.find tHost.keys 0).isSome = true ∧
    Tab.rising tHost.keys none = true ∧ tHost.nearDword (0xB000 + 16) + 696 ≤ nearBytes := by decide +kernel

theorem witness_HostAndRegisterEvents_decoders : (tHost.decoder 0).en ≠ (tHost.decoder 1).en ∧ Tab.rising tHost.pdec none = true := by decide +kernel

/-- A port that is up with no lane failed, one that recalibrates, one with two failed lanes, and one in training. -/
def tPort : State := { ((tMem.putPst 3 1).putPst 4 3) with cycle := 2 ^ 20, ports := [(5, ⟨1, some 0, [], [], 0⟩), (6, ⟨0, none, [(2, 6)], [0, 1], 0⟩), (7, ⟨0, none, [], [], 5⟩)] } |>.putPst 6 2
theorem witness_DeviceLifeEvents_ports : Tab.rising tPort.pst none = true ∧ Tab.rising tPort.ports none = true ∧ Tab.rising tPort.meas none = true ∧
    Tab.rising tPort.cores none = true ∧ tPort.portState 3 = 1 ∧ (tPort.port 3).bad = [] ∧ (tPort.port 3).cal = none ∧ (tPort.port 3).since + 2 ^ 20 ≤ tPort.cycle ∧ tPort.cycle < (tPort.port 7).since + 2 ^ 20 ∧ (tPort.port 5).cal = some 0 ∧
    Tab.get 0 (tPort.port 6).reps 2 < 7 := by decide +kernel
theorem witness_DeviceLifeEvents_trains : field (tPort.pstWord 6) 0 2 = tPort.portState 6 ∧ tPort.portState 6 ≠ 0 ∧ (tPort.port 6).bad.length = 2 ∧
    tPort.portState 4 = 3 := by decide +kernel

/-- A gang that this device issued and one that it joined, of devices 0 and 5. -/
def tHeader : List Word := BitVec.ofNat 64 (2 ^ 47) :: (List.replicate 15 0 ++ [0, 5])
def tGangs (committed : Bool) : State := { tMem with
  cycle := 2000000
  gangs := [(7, ⟨true, tHeader, [], [(0, 4)], [0], [], [], 0, committed, false, false, 0⟩), (8, ⟨false, tHeader, [], [(0, 4)], [], [], [], 0, committed, false, false, 0⟩)]
  launches := [(4, { tLaunch with begun := false, gseq := some 7 })] }
theorem witness_DeviceLifeEvents_gangs : (Tab.find (tGangs false).gangs 9).isNone = true ∧ ((tGangs false).journalAppend (gangEntry 9 true)).isSome = true ∧ (launchHeader (tHeader.take 16)).get 0 47 1 = 1 ∧
    ((Tab.find (tGangs false).gangs 7).map fun g => (g.issuer, g.committed, g.broken)) = some (true, false, false) ∧
    ((Tab.find (tGangs false).gangs 8).map Gang.issuer) = some false ∧ ((Tab.find (tGangs false).launches 4).map Launch.begun) = some false ∧
    0 + (tGangs false).gtmo ≤ (tGangs false).cycle ∧ ((Tab.find (tGangs false).gangs 7).map fun g => g.all (addOnce g.acks 1)) = some true ∧
    ((Tab.find (tGangs true).gangs 7).map fun g => (g.committed, g.all g.commits)) = some (true, false) := by decide +kernel

/-- The last stages of power-up, an image of each number, and a first boot. -/
def tBoot : State := { State.reset with stage := 3, flash := [(0, ([1], [2], [])), (1, ([1], [2], [])), (2, ([1], [2], [3])), (3, ([1], [2], toBytes 32 Config.rootKey.toNat))] }
theorem witness_DeviceLifeEvents_boot : State.reset.stage < 5 ∧ ({ State.reset with stage := 4 } : State).stage < 5 ∧ (Tab.find tBoot.flash 3).isSome = true ∧ tBoot.stage = 3 ∧
    3 ≤ 3 ∧ State.reset.journalSlots = [] ∧ State.reset.gangs = [] ∧ (State.reset.serving 7).head? = some 448 := by decide +kernel
theorem witness_DeviceLifeEvents_root : (Tab.find tBoot.flash 3).map (fun x => x.2.2) = some (toBytes 32 Config.rootKey.toNat) ∧
    State.reset.launchesLost 5 = [] := ⟨rfl, rfl⟩

/-! ### Witnesses of single clauses -/

/-- A shape of 256 by 512 bytes, which no tile holds, and tiles that fill and drain. -/
theorem witness_MtsWrites_tiles : (tLaned.sreg 1 0x7FFFF#64).alone ∧ (tLaned.sreg 1 0x7FFFF#64).holdsLanes = true ∧ (tLaned.sreg 1 0x7FFFF#64).calm ∧
    131072 < (((tLaned.sreg 1 0x7FFFF#64).val 1#6).toNat % 256 + 1) * (((tLaned.sreg 1 0x7FFFF#64).val 1#6).toNat / 256 % 512 + 1) *
      (4 * 2 ^ (((tLaned.sreg 1 0x7FFFF#64).val 1#6).toNat / 2 ^ 18 % 4)) ∧
    (∀ x ∈ [TileSt.filling, .draining], (tTile x).alone ∧ (tTile x).holdsLanes = true ∧ (Tab.get Tile.start (tTile x).curCore.tiles 5).st = x) := by
  decide +kernel

/-- Powers of 2^12, of a value near 0, of 1.5 and of 3; a square that is no even square. -/
theorem witness_VectorFloats_powers : (0 < 3 ∧ 3 < 2 ^ 24) ∧ (4096 : ℝ) ≤ |(1 : Nat) * (2 : ℝ) ^ (12 : Int)| ∧
    |(1 : Nat) * (2 : ℝ) ^ (-41 : Int)| < (2 : ℝ) ^ (-40 : Int) ∧
    ((2 : ℝ) ^ (-40 : Int) ≤ |(3 : Nat) * (2 : ℝ) ^ (-1 : Int)| ∧ |(3 : Nat) * (2 : ℝ) ^ (-1 : Int)| < 4096) ∧
    ((3 : Nat) * (2 : ℝ) ^ (0 : Int) = (3 : Int) ∧ |(3 : Nat) * (2 : ℝ) ^ (0 : Int)| < 4096) := by norm_num

theorem witness_ReductionsAndScans_tree : 1 < 12 ∧ [some 1, none].length = 2 ^ 1 ∧ 0 < [some 2].length ∧ [some 2].length ≤ 2 ^ 1 := by decide

/-- 2^127 itself, the greatest value that e8m0 holds. -/
theorem witness_Conversions_greatest : (2 : Rat) ^ ((254 : Int) - 127) ≤ 1 * (2 : Rat) ^ (127 : Int) ∧
    1 * (2 : Rat) ^ (127 : Int) < (2 : Rat) ^ ((254 : Int) - 126) ∧ (1 : Nat) * (2 : Rat) ^ (127 : Int) = (2 : Rat) ^ (127 : Int) := by norm_num

/-- A latch of two blocks; rows that wait, are POISON, and hold a reserved code of their own and of the latch. -/
def tRowOfKind (c k : Elt) : Row := ⟨fun _ => c, fun _ => .full 127, fun _ => k⟩
theorem witness_MatrixRows_states : 0 < { tLatch with k := 40 }.k ∧ ({ tLatch with k := 40 }.k + 31) / 32 = 2 ∧
    (tRowOfKind .empty (.full 0)).codes 1 = .empty ∧ 1 < tLatch.k ∧ (tRowOfKind .empty (.full 0)).skip 1 ≠ .full 1 ∧
    (tRowOfKind .poison (.full 0)).codes 1 = .poison ∧
    ({ tLatch with fa := 32, recA := 0x00000001002001A7#64 } : Latch).fmtA.decode 0x20 = none ∧
    ({ tLatch with fb := 32, recB := 0x00000001003001A7#64 } : Latch).fmtB.decode (tLatch.code 0 0) = none ∧
    tRow.actives tSome ≠ [] ∧ (tTile .ready).poison = [] := by decide +kernel

/-- The same image's lines are not stalled, nor refused, and no core is kept for a group. -/
theorem witness_MovingStrands_lines : (match (tMove 0x10000#64).imageLines 0 0 0x100000#64 ((tMove 0x10000#64).image 0 1 tOther.stoppedForSave) with
      | .ok ls => !(ls.any fun l => (tMove 0x10000#64).stalled l.1) && ((tMove 0x10000#64).linesRefused ls).isNone
      | .error _ => false) = true ∧ (tSaved.withCore fun k => { k with owner := none }).keptFor 0 1 = false := by decide +kernel

theorem witness_CodeObjects_writes : tOk ((tPortable.ownAsk (tPortable.val 2#6) 2).ownWrite (tPortable.val 2#6) [0x9FC0_0000_0000_0000#64, 0]) = true := by
  decide +kernel

/-- A header with two dependences and a link to a mark of launch 4; the same as a gang's. -/
def tLinked (gang : Nat) : State := { tHead [(0x100800, 1 + 3 * 2 ^ 32 + 2 * 2 ^ 44 + gang * 2 ^ 47), (0x100810, 2 + 2 * 2 ^ 7 + 4 * gang * 2 ^ 45), (0x100818, 1), (0x100820, 2),
    (0x100848, 3 + 2 * 128 + 2 ^ 21 + 2 * 2 ^ 32 + 2 ^ 37 + 2 * 2 ^ 41), (0x100868, 0x900), (0x100870, 99 * gang), (0x100878, 0xA00 * gang),
    (0x100900, 1), (0x100908, 7), (0x100910, 0), (0x100918, 8), (0x100920, 4), (0x100928, 1 + 3 * 16), (0x100A00, 0), (0x100A08, 7), (0x100A10, 9)] with
  launches := [(4, tLaunch)] }
def tWords (s : State) (va : Word) (n : Nat) : List Nat := match s.headerDwords va n with
  | .ok bs => (List.range n).map fun i => ofBytes ((bs.drop (8 * i)).take 8)
  | _ => []
theorem witness_Launches_entries : (∀ gang ∈ [0, 1], (tLinked gang).alone ∧ tRefused (tLinked gang) = 0 ∧ tWords (tLinked gang) 0x900#64 4 = [1, 7, 0, 8] ∧
    tWords (tLinked gang) 0x920#64 2 = [4, 49] ∧ tRead (tLinked gang) (gang == 1) = some (0, 2, 1, 3 * gang) ∧ tCoded (tLinked gang) (gang == 0) = true) ∧
    tWords (tLinked 1) 0xA00#64 3 = [0, 7, 9] ∧ (Tab.find (tLinked 0).launches 4).any (fun p => decide (1 < p.ntm)) = true ∧
    (Tab.find (tLinked 0).asids 0).isSome = true ∧ (tLinked 0).launches.length < 1024 := by decide +kernel

/-- A record that reads, one that does not; a record in memory's own form; and rows for the leaves of a build of three. -/
def tTussock : Tussock := ⟨0x400#64, true, 0, 3, 0x40000000, 0x3F800000, 100, [], List.replicate 8 0x3F800000, List.replicate 8 0x40400000⟩
theorem witness_SummaryTrees_visits : (tTussock.dw < 32 ∧ tTussock.count < 2 ^ 32 ∧ tTussock.radius < 2 ^ 32 ∧ tTussock.scale < 2 ^ 32 ∧ tTussock.kids.length ≤ 8 ∧
      tTussock.ksum.length = tTussock.d ∧ tTussock.vsum.length = tTussock.d ∧ ∀ x ∈ tTussock.ksum ++ tTussock.vsum, x < 2 ^ 32) ∧
    tOk (tTree.tussock tTree.me 0 [] 0x400#64 (some 0)) = true ∧ tOk (tTree.tussock tTree.me 0 [] 0x70000#64 (some 0)) = false ∧
    FVal.mul (.inf false) (.num false 0 0) = .nan ∧ (∀ x ∈ tTussock.ksum ++ List.replicate 8 0x40000000, x % 2 ^ 31 < 0x7F800000) ∧
    tTussock.radius < 0x7F800000 ∧ tTussock.count ≠ 0 := by decide +kernel

theorem witness_SummaryTrees_powers : (4096 : ℝ) ≤ |(1 : Nat) * (2 : ℝ) ^ (12 : Int)| ∧ (0 < |(1 : Nat) * (2 : ℝ) ^ (-41 : Int)| ∧
    |(1 : Nat) * (2 : ℝ) ^ (-41 : Int)| < (2 : ℝ) ^ (-40 : Int)) ∧
    ((2 : ℝ) ^ (-40 : Int) ≤ |(3 : Nat) * (2 : ℝ) ^ (-1 : Int)| ∧ |(3 : Nat) * (2 : ℝ) ^ (-1 : Int)| < 4096) := by norm_num

/-- Three leaves with two children to a branch stand on two levels above: two branches, then the root. -/
theorem witness_SummaryTrees_levels : ∃ S O : Nat → Nat, S 0 = 3 ∧ (∀ h, S (h + 1) = (S h + 2 - 1) / 2) ∧ O 0 = 0 ∧ (∀ h, O (h + 1) = O h + S h) ∧
    S 2 = 1 ∧ ∀ h < 2, 1 < S h := by
  refine ⟨Nat.rec 3 fun _ x => (x + 2 - 1) / 2, Nat.rec 0 fun h x => x + Nat.rec 3 (fun _ x => (x + 2 - 1) / 2) h, rfl, fun _ => rfl, rfl, fun _ => rfl, rfl, ?_⟩
  decide

theorem witness_EventsFireInFlight_undecided : (tEntry 0x8420_1040_000F_FFF8#64).stuck = false ∧ (tEntry 0x9CC0_0000_0000_0000#64).stuck = false := by decide +kernel

theorem witness_RetirementDeliveryChecking_votes : tVec.sure = false ∧ ({ tVec with sure := true } : Entry).sure = true ∧ (tFly tVec).curCore.lmap = 0 ∧
    (tFly tVec).curCore.width ∈ [8, 16, 32] ∧ Tab.rising (tFly tVec).erecs none = true ∧
    ((tFly tFault).strandWith fun t => { t with pend := some { cause := 2 } }).awaited 0 0 ((tFly tFault).strandWith fun t => { t with pend := some { cause := 2 } }).me = false := by
  decide +kernel

/-- A strand with a fresh mask in flight, one whose lanes are kept, and links on far line 512 and on another. -/
def tQdone : Entry := { tVec with vd := [], qd := [(2, tQreg [1, 0, 1])] }
def tKept : State := tTiles.strandWith fun t => { t with vec := some ⟨8, [(3, tVreg 32 [1])], [(2, tQreg [1])], [], none⟩, links := [⟨2 ^ 60 + 1, 0, false⟩] }
theorem witness_CoreAndClusterEvents_words : tTiles.curCore.latch.isSome = true ∧ (tTile .empty).tile 5 ≠ (tTile .ready).tile 5 ∧ ((tTile .empty).tile 5).st = .empty ∧
    ((tFly tVec).me.flight.map fun c => c.entries.map fun e => e.vd.map Prod.fst) = [[[3]]] ∧
    ((tFly tQdone).me.flight.map fun c => c.entries.map fun e => e.qd.map Prod.fst) = [[[2]]] ∧ tKept.me.vec.isSome = true ∧
    tKept.linkedFar 512 = true ∧ tKept.linkedFar 513 = false := by decide +kernel

/-- A group of the launch that has still to be scrubbed for, and one of another. -/
theorem witness_EngineEvents_starting : (∀ g ∈ ({ tPlace with starting := [⟨3, [], [0], []⟩] } : State).starting, g.launch ≠ 4) ∧
    (⟨4, [], [0], []⟩ : Starting) ∈ ({ tPlace with starting := [⟨4, [], [0], []⟩] } : State).starting ∧ tPlace.starting = [] := by
  refine ⟨?_, ?_, rfl⟩
  · intro g h; rw [List.mem_singleton.mp h]; decide
  · exact List.mem_singleton.mpr rfl

/-- Two elements of one request. -/
theorem witness_EngineEvents_elements : (match (tMem.homePerform (tPeerReq 1 0x108 false) (tElt 0x108)), tMem.homeAll (tPeerReq 0 0x108 false) [tElt 0x110] with
      | (_, y), (_, z) => (y, z)) = ((0, 0), [(0, 0)]) := by decide +kernel

/-- A write that has begun under its own window, and slots whose removal waits, or may go on. -/
def tRemoving : State := { tHost with keys := [(0, ⟨1, 0, some 0xA000⟩)], agenda := [.hostWrite 2 0x40 ⟨[1, 2], true, some 0#64⟩] }
theorem witness_HostAndRegisterEvents_removals : tRemoving.slotOpen 0 = true ∧ ({ tRemoving with agenda := [] } : State).slotOpen 0 = false ∧
    (∀ y ∈ tHost.keys, y.2.going.isNone = true) ∧ (∀ y ∈ tRemoving.keys, y.2.going = some 0xA000 → y.1 = 0) ∧
    (Tab.find tRemoving.keys 0).map KeySlot.going = some (some 0xA000) ∧ 0x40 + [1, 2].length ≤ 2 ^ 30 ∧ ({ tRemoving with hwin := 0 } : State).windowOpen = false := by
  decide +kernel


/-! ### One step each: results worked out by hand from the rules -/

/-- The scalar result of one instruction on `tBare` with s9 and s10 as given. -/
def res (i : Instr) (a b : Word) : Word := (tNx (exec i ((tBare.sreg 9 a).sreg 10 b))).val 4#6

/-- R113: sums wrap; mulh is the high half of the signed product; shifts count modulo 64. -/
theorem test_arithmetic : res (.add 4#6 9#6 10#6) (-1) 3 = 2 ∧ res (.mulh 4#6 9#6 10#6) (-1) 5 = -1 ∧ res (.mulhn 4#6 9#6 10#6) (-1) 5 = 4 ∧
    res (.shl 4#6 9#6 10#6) 1 65 = 2 ∧ res (.sra 4#6 9#6 10#6) 0x8000000000000000#64 63 = -1 ∧ res (.slt 4#6 9#6 10#6) (-1) 0 = 1 ∧
    res (.sltn 4#6 9#6 10#6) (-1) 0 = 0 := by decide +kernel
/-- R114: an immediate is sign-extended. -/
theorem test_immediate : res (.addi 4#6 9#6 0xFFFF8#20) 8 0 = 0 ∧ res (.andni 4#6 9#6 0xFFFFF#20) 7 0 = 0 := by decide +kernel
/-- R115: division by zero, and the quotient that overflows. -/
theorem test_division : res (.div 4#6 9#6 10#6) 7 0 = -1 ∧ res (.rem 4#6 9#6 10#6) 7 0 = 7 ∧ res (.div 4#6 9#6 10#6) (-7) 2 = -3 ∧
    res (.rem 4#6 9#6 10#6) (-7) 2 = -1 ∧ res (.div 4#6 9#6 10#6) 0x8000000000000000#64 (-1) = 0x8000000000000000#64 ∧
    res (.rem 4#6 9#6 10#6) 0x8000000000000000#64 (-1) = 0 := by decide +kernel
/-- R116 to R120. -/
theorem test_bits : res (.clz 4#6 9#6) 0 0 = 64 ∧ res (.ctz 4#6 9#6) 8 0 = 3 ∧ res (.popc 4#6 9#6) (-1) 0 = 64 ∧ res (.lsa 4#6 9#6 10#6 3#2) 5 2 = 21 ∧
    res (.ext 4#6 9#6 4#6 7#6) 0xABC 0 = 0xAB ∧ res (.extS 4#6 9#6 4#6 7#6) 0xABC 0 = 0xFFFFFFFFFFFFFFAB#64 ∧ res (.lui 4#6 0x12345#20) 0 0 = 0x112345 ∧
    res (.adr 4#6 8#20) 0 0 = 0x1008 := by decide +kernel
/-- R121 to R124: 1 ÷ 0 is an infinity with DZ; the sum of opposites; NaN compares unordered; 2.5 to nearest even is 2. -/
theorem test_floats : res (.fdivS 4#6 9#6 10#6 .rne) 0x3F800000 0 = 0x7F800000 ∧ res (.faddS 4#6 9#6 10#6 .rdn) 0x3F800000 0xBF800000 = 0x80000000 ∧
    res (.fcmpSUn 4#6 9#6 10#6) 0x7FC00000 0 = 1 ∧ res (.fcvtSFi 4#6 9#6 .rne) 0x40200000 0 = 2 ∧ res (.fsqrtS 4#6 9#6 .rne) 0x40800000 0 = 0x40000000 ∧
    res (.fcvtSIf 4#6 9#6 .rne) 3 0 = 0x40400000 := by decide +kernel
/-- R100: g0 keeps 0. -/
theorem test_g0 : (tNx (exec (.li 32#6 7#20) tBare)).val 32#6 = 0 := by decide +kernel
/-- R92, R93: branch targets are relative to the convoy's base, in words. -/
theorem test_branches : (tNx (exec (.beq 0#6 0#6 0xFFFFF#20) tBare)).me.pc = 0xFF8 ∧ (tNx (exec (.bne 0#6 0#6 2#20) tBare)).me.pc = 0x1008 ∧
    (tNx (exec (.call 2#20) tBare)).me.r.plink = some 0x1009#64 := by decide +kernel

/-- Element `i` of v3 after one instruction on `tVect`. -/
def el (i : Instr) (w k : Nat) : Elt := (tNx (exec i tVect)).lane 3#6 w k
/-- R142, R135: v1 holds 7, −1, 3 and v2 holds 2, 1, 0; sat is the signed one; q1 leaves element 1 out. -/
theorem test_vectors : el (.vadd tAll 3#6 1#6 2#6 .i32 0#1) 32 1 = .full 0 ∧ el (.vadd tAll 3#6 1#6 2#6 .n32 1#1) 32 1 = .full 0xFFFFFFFF ∧
    el (.vsub tAll 3#6 2#6 1#6 .n32 1#1) 32 0 = .full 0 ∧ el (.vmul tAll 3#6 1#6 2#6 .i32 0#1) 32 0 = .full 14 ∧
    el (.vadd tSome 3#6 1#6 2#6 .i32 0#1) 32 1 = .full 0 ∧ el (.vadd ⟨0, 1, 0⟩ 3#6 1#6 2#6 .i32 0#1) 32 1 = .full 1 := by decide +kernel
theorem test_vector_max : el (.vmax tAll 3#6 1#6 2#6 .i32) 32 1 = .full 1 ∧ el (.vmax tAll 3#6 1#6 2#6 .n32) 32 1 = .full 0xFFFFFFFF := by decide +kernel
/-- R152: the ordered sum of v1 from v2's element 0; R149: counts of a mask. -/
theorem test_reductions : el (.vredoAdd tAll 3#6 1#6 2#6 .rne .i32 0#1) 32 0 = .full 11 ∧
    (tNx (exec (.qpopc tAll 4#6 1#6) tVect)).val 4#6 = 2 ∧ (tNx (exec (.qfirst tAll 4#6 1#6) tVect)).val 4#6 = 0 := by decide +kernel
/-- R131: the smaller of the request and VLMAX. -/
theorem test_vsetl : (tNx (exec (.vsetl 40#6 0#6 .i32) tLaned)).val 40#6 = 3 := by decide +kernel

/-- R247, R254: a load after a store to the same dword; a signed byte; a dword that is not aligned traps. -/
theorem test_memory : (tNx (exec (.ldI64 4#6 1#6 0#20) tMem)).val 4#6 = 0x0123456789ABCDEF ∧ (tNx (exec (.ldI8 4#6 1#6 0#20) tMem)).val 4#6 = 0xFFFFFFFFFFFFFFEF ∧
    (tNx (exec (.ldI32 4#6 1#6 4#20) tMem)).val 4#6 = 0x01234567 := by decide +kernel
theorem test_store : (tNx (exec (.st16 2#6 1#6 2#20) tMem)).nearDword 0x100108 = 0x01234567FFFECDEF := by decide +kernel
/-- R290: the old value comes back, and the sum stands in memory. -/
theorem test_atomic : (tNx (exec (.amoAdd 4#6 1#6 3#6 .i64 0#2) tMem)).val 4#6 = 0x0123456789ABCDEF ∧
    (tNx (exec (.amoAdd 4#6 1#6 3#6 .i64 0#2) tMem)).nearDword 0x100108 = 0x0123456789ABCDF1 := by decide +kernel
set_option maxRecDepth 20000 in
/-- R307, R310: a trap goes to XVEC at level S with its cause, and the frame pointer moves on by one image. -/
theorem test_trap : (tNx (exec (.trap 77#20) tTrap)).me.pc = 8 ∧ field (tNx (exec (.trap 77#20) tTrap)).me.xcause 0 8 = 31 ∧
    field (tNx (exec (.trap 77#20) tTrap)).me.xcause 16 32 = 77 ∧ (tNx (exec (.trap 77#20) tTrap)).me.xtf = 0x200000 ∧
    (tNx (exec (.trap 77#20) tTrap)).me.xdepth = 1 := by decide +kernel
/-- R321: back to the image's PC. -/
theorem test_return : (tNx (exec .sret tFrameOne)).me.pc = 0x7000 := by decide +kernel
set_option maxRecDepth 20000 in
/-- R48, R4: a privileged instruction at U traps with cause 3. -/
theorem test_privilege : field (tNx (exec .tlbinvAll tTrap.atU)).me.xcause 0 8 = 3 ∧ (tNx (exec .tlbinvAll tTrap.atU)).me.lvl = .s := by decide +kernel
/-- R206, R209: cutting after two of four rows leaves the rest to the second child, and splicing gives the parent back. -/
theorem test_splice : (tNx (exec (.rsplc 3#6 1#6 2#6) tCut)).myHandle 3#6 = .live 5 2 ∧ (tNx (exec (.rsplc 3#6 1#6 2#6) tCut)).myHandle 1#6 = .blank ∧
    ((tNx (exec (.rsplc 3#6 1#6 2#6) tCut)).lin 0 6).gen = 3 := by decide +kernel
/-- R245: the oldest entry is popped. -/
theorem test_fifo : (tNx (exec (.ldI64 4#6 1#6 0#20) tFifo)).val 4#6 = 42 ∧ ((tNx (exec (.ldI64 4#6 1#6 0#20) tFifo)).bank 1).fifo = [] := by decide +kernel
/-- R362: a full leaf takes no row. -/
theorem test_walker : (tNx (exec (.twupd 4#6 1#6 5#6 3#6 .f32) (tTree.sreg 5 0x600#64))).val 4#6 = -1 ∧
    (tNx (exec (.twupd 4#6 1#6 5#6 3#6 .f32) (tTree.sreg 5 0x400#64))).val 4#6 = 103 := by decide +kernel

end
end Sys2Proof.Machine
end

section
/-!
PROOFS. Scalar integer and address instructions (06, R113 to R120): what the arithmetic of each gives, and the
obligations ArithmeticAndLogic (O6) and DivisionBitsAddresses (O7).
-/

namespace Sys2Proof.Machine

/-! ### The shape that the common ones leave out -/

/-- A plan that only reads registers and gives `d` the value of `f`, which does not look at the opened convoy. -/
theorem run_scalarOf {s : State} {d : BitVec 6} (h : s.alone) (names : List Name) {f : State → Word}
    (hf : f s.openConvoy = f s) :
    run { reads := names, writes := sname d, fire := Plan.scalar d f } s = .next (s.gave d (f s)) :=
  run_scalar h (Plan.lvl_le_of_u rfl) rfl rfl rfl rfl rfl rfl rfl rfl hf

/-! ### The immediate (R114) -/

/-- The extended immediate stands for the number that its 20 bits stand for. -/
theorem toInt_imm20 (x : BitVec 20) : (imm20 x).toInt = x.toInt := BitVec.toInt_signExtend_of_le (by decide)

/-! ### Division (R115) -/

/-- The quotient by zero, as the model writes it. -/
theorem ofInt_neg_one : BitVec.ofInt 64 (-1) = (-1 : Word) := by decide

/-- 2^63 has no signed code: the quotient wraps to the dividend. -/
theorem aluDiv_overflow : aluDiv (BitVec.ofInt 64 (-2 ^ 63)) (BitVec.ofInt 64 (-1)) = BitVec.ofInt 64 (-2 ^ 63) := by decide

theorem aluRem_overflow : aluRem (BitVec.ofInt 64 (-2 ^ 63)) (BitVec.ofInt 64 (-1)) = 0 := by decide

/-! ### Bit counts (R116) -/

theorem trailing_le (x n i : Nat) : trailing x n i ≤ n := by
  induction n generalizing i with
  | zero => simp [trailing]
  | succ n ih =>
    rw [trailing]
    split
    · omega
    · have := ih (i + 1)
      omega

theorem testBit_of_lt_trailing {x n i j : Nat} (h : j < trailing x n i) : x.testBit (i + j) = false := by
  induction n generalizing i j with
  | zero => simp [trailing] at h
  | succ n ih =>
    rw [trailing] at h
    split at h
    case isTrue => omega
    case isFalse hi =>
      cases j with
      | zero => simpa using hi
      | succ j =>
        have := ih (i := i + 1) (j := j) (by omega)
        rwa [show i + 1 + j = i + (j + 1) by omega] at this

theorem testBit_trailing {x n i : Nat} (h : trailing x n i < n) : x.testBit (i + trailing x n i) = true := by
  induction n generalizing i with
  | zero => omega
  | succ n ih =>
    rw [trailing] at h ⊢
    split
    case isTrue hi => exact hi
    case isFalse hi =>
      rw [if_neg hi] at h
      have := ih (i := i + 1) (by omega)
      rwa [show i + 1 + trailing x n (i + 1) = i + (1 + trailing x n (i + 1)) by omega] at this

/-- The count of leading zeros: they are zeros, and the bit below them, if there is one, is set. -/
theorem aluClz_eq (a : Word) : ∃ z, aluClz a = BitVec.ofNat 64 z ∧ z ≤ 64 ∧ (∀ i < z, a.getLsbD (63 - i) = false) ∧
    (z < 64 → a.getLsbD (63 - z) = true) := by
  by_cases ha : a = 0
  · exact ⟨64, if_pos ha, le_rfl, by simp [ha], by simp⟩
  · have hn : a.toNat ≠ 0 := fun h0 => ha (BitVec.eq_of_toNat_eq h0)
    have htop : Nat.log2 a.toNat < 64 := (Nat.log2_lt hn).2 a.isLt
    refine ⟨63 - Nat.log2 a.toNat, if_neg ha, by omega, fun i hi => ?_, fun _ => ?_⟩
    · exact Nat.testBit_lt_two_pow ((Nat.log2_lt hn).1 (by omega))
    · rw [show 63 - (63 - Nat.log2 a.toNat) = Nat.log2 a.toNat by omega]
      exact Nat.testBit_log2 hn

/-- The count of trailing zeros, in the same terms. -/
theorem aluCtz_eq (a : Word) : ∃ z, aluCtz a = BitVec.ofNat 64 z ∧ z ≤ 64 ∧ (∀ i < z, a.getLsbD i = false) ∧
    (z < 64 → a.getLsbD z = true) := by
  refine ⟨trailing a.toNat 64 0, rfl, trailing_le _ _ _, fun i hi => ?_, fun hz => ?_⟩
  · simpa [BitVec.testBit_toNat] using testBit_of_lt_trailing hi
  · simpa [BitVec.testBit_toNat] using testBit_trailing hz

theorem popBits_eq_countP (x n : Nat) : popBits x n = (List.range n).countP fun i => x.testBit i := by
  induction n with
  | zero => rfl
  | succ n ih => simp [popBits, ih, List.range_succ, List.countP_append, List.countP_singleton, Nat.add_comm]

theorem aluPopc_eq (a : Word) : aluPopc a = BitVec.ofNat 64 ((List.range 64).countP fun i => a.getLsbD i) := by
  simp [aluPopc, popBits_eq_countP, BitVec.testBit_toNat]

/-! ### Bit fields (R120) -/

/-- The `len + 1` bits of a word from bit `pos` on. -/
abbrev fieldBits (a : Word) (pos len : Nat) : BitVec (len + 1) := (a >>> pos).setWidth (len + 1)

theorem bitField_eq (a : Word) (pos len : Nat) : bitField a pos len = (fieldBits a pos len).toNat := by
  simp [bitField, Nat.shiftRight_eq_div_pow]

theorem aluExt_eq (a : Word) (pos len : Nat) : aluExt a pos len = (fieldBits a pos len).setWidth 64 := by
  apply BitVec.eq_of_toNat_eq
  rw [aluExt, bitField_eq]
  simp

theorem aluExtS_eq (a : Word) (pos len : Nat) : aluExtS a pos len = (fieldBits a pos len).signExtend 64 := by
  have hmsb : (fieldBits a pos len).toNat.testBit len = (fieldBits a pos len).msb := by
    rw [BitVec.testBit_toNat, BitVec.msb_eq_getLsbD_last, Nat.add_sub_cancel]
  rw [aluExtS, bitField_eq, hmsb, BitVec.signExtend, BitVec.toInt_eq_msb_cond]
  split
  · simp
  · rw [BitVec.ofInt_natCast]

/-- Inserting a field takes its bits from the low end of `a` and leaves the others of `d`. -/
theorem getLsbD_aluIns (d a : Word) {pos len i : Nat} (hi : i < 64) : (aluIns d a pos len).getLsbD i =
    if pos ≤ i ∧ i ≤ pos + len then a.getLsbD (i - pos) else d.getLsbD i := by
  have hmask : (BitVec.ofNat 64 (2 ^ (len + 1) - 1) <<< pos).getLsbD i = decide (pos ≤ i ∧ i ≤ pos + len) := by
    rw [Bool.eq_iff_iff]
    simp only [BitVec.getLsbD_shiftLeft, BitVec.getLsbD_ofNat, Nat.testBit_two_pow_sub_one, Bool.and_eq_true,
      Bool.not_eq_true', decide_eq_true_eq, decide_eq_false_iff_not]
    omega
  simp only [aluIns, BitVec.getLsbD_or, BitVec.getLsbD_and, BitVec.getLsbD_not, hmask, BitVec.getLsbD_shiftLeft]
  by_cases hin : pos ≤ i ∧ i ≤ pos + len <;> simp [hi, hin]

/-! ### The obligations -/

/-- Settles O6: the register forms are `binary` of one operation each, the immediate forms `withImm` of the same. -/
theorem arithmeticAndLogic : Obligations.ArithmeticAndLogic := by
  intro s d a b x h
  have reg (f : Word → Word → Word) := run_binary (d := d) (a := a) (b := b) h f
  have imm (f : Word → Word → Word) := run_withImm (d := d) (a := a) h x f
  rw [← toInt_imm20 x]
  exact ⟨⟨reg aluAdd, reg aluSub, reg aluMul, reg aluMulh, reg aluMulhn, reg aluAnd, reg aluOr, reg aluXor, reg aluAndn,
      reg aluShl, reg aluShr, reg aluSra, reg aluRol, reg aluMin, reg aluMax, reg aluMinn, reg aluMaxn, reg aluSlt,
      reg aluSltn⟩,
    imm aluAdd, imm aluSub, imm aluMul, imm aluMulh, imm aluMulhn, imm aluAnd, imm aluOr, imm aluXor, imm aluAndn,
    imm aluShl, imm aluShr, imm aluSra, imm aluRol, imm aluMin, imm aluMax, imm aluMinn, imm aluMaxn, imm aluSlt,
    imm aluSltn⟩

/-- Settles O7: each result is that of its operation, and the counts and fields are as the lemmas above say. -/
theorem divisionBitsAddresses : Obligations.DivisionBitsAddresses := by
  constructor
  · intro s d a b h
    have reg (f : Word → Word → Word) := run_binary (d := d) (a := a) (b := b) h f
    rw [← ofInt_neg_one]
    refine ⟨reg aluDiv, reg aluDivn, reg aluRem, reg aluRemn, fun ha hb => ⟨?_, ?_⟩⟩
    · rw [exec_div, planDiv, reg, ha, hb, aluDiv_overflow]
    · rw [exec_rem, planRem, reg, ha, hb, aluRem_overflow]
  · intro s d a b c x k p n h
    have un (f : Word → Word) := run_unary (d := d) (a := a) h f
    obtain ⟨z, hz, zeros⟩ := aluClz_eq (s.val a)
    obtain ⟨y, hy, zeros'⟩ := aluCtz_eq (s.val a)
    rw [exec_clz, exec_ctz, exec_sel, exec_li, exec_lui, exec_adr, exec_lsa, exec_ext, exec_extS, exec_ins,
      ← aluPopc_eq, ← aluExt_eq, ← aluExtS_eq]
    refine ⟨⟨z, hz ▸ un aluClz, zeros⟩, ⟨y, hy ▸ un aluCtz, zeros'⟩, un aluPopc, ?_⟩
    exact ⟨run_scalarOf h _ (by simp), run_scalarOf h _ rfl, run_scalarOf h _ (by simp), run_scalarOf h _ rfl,
      run_binary h _, fun _ => ⟨un _, un _, _, run_scalarOf h _ (by simp), fun i hi => getLsbD_aluIns _ _ hi⟩⟩

end Sys2Proof.Machine
end
